-- ==== Sys2Proof/Word.lean ====
section
/-! DEFINITION. The plain data types every other file uses: bytes, sparse tables and the shape of one row of the
register table, with the plainest arithmetic on them. -/

namespace Sys2Proof

/-- One byte. -/
abbrev Byte := BitVec 8

/-- A string of bytes as it lies in memory or on a link, first byte first. -/
abbrev Bytes := List Byte

/-- A sparse table: key and value pairs in rising key order, with no entry equal to the table's default. Every array
of the machine (registers, contexts, queues, descriptors) is one, so equal tables are equal data. -/
abbrev Tab (α : Type) := List (Nat × α)

/-- Access types of R10. -/
inductive RTyp where
  | ro | rw | wo | w1c | w1s | rc | rws | rwl
deriving DecidableEq, Repr

/-- One field of the register map: where it lies, how wide it is, how it is accessed and what it resets to.
`id` numbers the fields; `stride` and `n` give the instances (block instances, or the entries shown through a
selector when `view` is not 0); `rs` and `rn` give the registers of an array inside one instance. -/
structure Row where
  id     : Nat
  base   : Nat
  stride : Nat
  n      : Nat
  off    : Nat
  rs     : Nat
  rn     : Nat
  lo     : Nat
  w      : Nat
  typ    : RTyp
  rst    : Nat
  view   : Nat
deriving DecidableEq, Repr

/-- `ceil(a / b)`. -/
def cdiv (a b : Nat) : Nat := (a + b - 1) / b

/-- Bits `hi` down to `lo` of a number. -/
def bitsOf (v hi lo : Nat) : Nat := (v >>> lo) % 2 ^ (hi + 1 - lo)

/-- Two's complement of `w` bits, as a number. -/
def toTwos (w : Nat) (z : Int) : Nat := (z % (2 ^ w : Int)).toNat

/-- A number of `w` bits read as two's complement. -/
def ofTwos (w v : Nat) : Int := if v % 2 ^ w < 2 ^ (w - 1) then (v % 2 ^ w : Int) else (v % 2 ^ w : Int) - 2 ^ w

/-- A condition as one bit. -/
def bit (b : Bool) : Nat := if b then 1 else 0

/-- The bytes of a list from offset `o`, `n` of them; bytes past its end read zero. -/
def bytesAt (p : Bytes) (o n : Nat) : Bytes := (List.range n).map fun i => p.getD (o + i) 0

/-- A little-endian number (R7). -/
def leNat : Bytes → Nat
  | [] => 0
  | b :: r => b.toNat + 256 * leNat r

/-- A number in network byte order. -/
def beNat (p : Bytes) : Nat := p.foldl (fun a b => a * 256 + b.toNat) 0

/-- The little-endian field of `n` bytes at byte `o`. -/
def fld (p : Bytes) (o n : Nat) : Nat := leNat (bytesAt p o n)

/-- The network-order field of `n` bytes at byte `o`. -/
def nfld (p : Bytes) (o n : Nat) : Nat := beNat (bytesAt p o n)

/-- `n` bytes of a number, little-endian. -/
def toLe : Nat → Nat → Bytes
  | 0, _ => []
  | n + 1, v => BitVec.ofNat 8 v :: toLe n (v / 256)

/-- `n` bytes of a number, in network order. -/
def toBe (n v : Nat) : Bytes := (toLe n v).reverse

end Sys2Proof
end

