-- ==== Sys2Proof/Machine/Parts.lean ====
section
/-! DEFINITION. The parts of the state that are not register fields: the channels, the scheduler's tasks, the reference pool,
composition, and the trace of what leaves the block; and the shapes of command operands. Named register fields of the
spec live in the register file (Regs.lean); what stands here is state the spec gives the machine without a register of
its own. The queues, which hold commands, stand in QueParts.lean. -/

namespace Sys2Proof

/-- The 32-byte header of a host command (R235) after its OPCODE, and the queue it stands on. `zero` is the field that
must be zero. -/
structure Hdr where
  qid     : Fin 66
  flags   : BitVec 8
  channel : BitVec 8
  tag     : BitVec 16
  plen    : BitVec 16
  effpt   : BitVec 64
  zero    : BitVec 128
deriving DecidableEq, Repr

/-- What a unit reports when it ends a task: what the spec leaves to the hardware's timing and to errors. What the unit makes is a
function of the state. -/
inductive TaskRes where
  /-- A slice or re-encoded slice is coded: the largest FCLK count of a CTU and the corrected window cache errors (R83, R107). -/
  | slice (maxCtu winCorr : Nat)
  /-- Composition reports columns 0 to `upto` − 1 of its row as written (R60, R138); the last report ends the task. `bad` are lines that this read
  found uncorrectable for the first time, as (internal address, kind). -/
  | compose (upto : Nat) (bad : List (Nat × Nat))
  /-- The rows of a band fill are staged: 0 good at once, 1 good on re-read, 2 failed on re-read, 3 the descriptor
  uncorrectable (R104), 4 good on re-read with equal samples and another UCHECK (R433). -/
  | band (outcome : Nat)
  /-- A copy ends, with or without a write error (R104). -/
  | written (error : Bool)
  /-- The header unit ends a substitute record. -/
  | record
  /-- The header unit ends a prefix record, and the blank picture where there is one (R67). -/
  | header
  /-- Packing ends. `bad` are the lines that it found uncorrectable for the first time, as (internal address, kind) (R198). -/
  | pack (bad : List (Nat × Nat))
  /-- The task's parameter record was uncorrectable, at a store address (R198). -/
  | badParam (addr kind : Nat)
  /-- Any other task ends. -/
  | plain
deriving DecidableEq, Repr

end Sys2Proof

namespace Sys2Proof.Machine

/-! ### Rate control (R110 to R130) -/

/-- The rate settings in force for a picture (R131). -/
structure RcSet where
  maxrate : Nat := 50000
  emcap   : Nat := 0
  tq      : Nat := 32
  qmin    : Nat := 10
  qmax    : Nat := 45
  dqp     : Nat := 6
  slack   : Nat := 8
  ofs     : Int := 0
  mode    : Nat := 0
  period  : Nat := 60
deriving DecidableEq, Repr

/-- A refresh sweep (R121): first picture, units per picture, number of units, pictures, direction, and whether the pair
controller asked for it (R385). -/
structure Sweep where
  start : Nat
  k     : Nat
  units : Nat
  len   : Nat
  rowMode : Bool
  conv  : Bool
deriving DecidableEq, Repr

/-- One row slot not yet settled (R114): its cap, QP, prefix charge, drain, slices wholly in floor form, records' charge so far, BITS so far, whether
it makes its picture a floor picture or holds a substitute (R119, R80), and its floor forms (R112). -/
structure Slot where
  frame  : Nat
  row    : Nat
  cap    : Nat
  qp     : Nat
  pre    : Nat
  drain  : Nat
  whole  : Nat := 0
  charge : Nat := 0
  bits   : Nat := 0
  floor  : Bool := false
  forms  : List Bool := []
deriving DecidableEq, Repr

/-- What the task of a slice carries of rate control beside its cap and QP (R114): the settings of its picture, its floor forms, the picture's refresh
units and the sweeps that run. -/
structure RcIn where
  set    : RcSet := {}
  forms  : List Bool := []
  units  : List Nat := []
  sweeps : List Sweep := []
deriving DecidableEq, Repr

/-- The rate-control state of a channel (R130). Refresh units are numbered 2 × column, or 2 × row + 1. `lateOpen`: the
previous picture may still turn out a floor picture by a row settled after the present one began; `heldTo` is the end of the older sweep
that a held request waits for; `floorEv` the floor pictures reported; `hist` gives (frame, BITS, QP) by row. -/
structure RcSt where
  set    : RcSet := {}
  slots  : List Slot := []
  e      : Nat := 0
  budget : Int := 0
  pre    : Nat := 0
  settled : Nat := 0
  drain  : Nat := 0
  bb     : Nat := 0
  phase  : Nat := 0
  emFrom : Nat := 0
  sweeps : List Sweep := []
  newest : Option Sweep := none
  req    : Bool := false
  reqConv : Bool := false
  heldTo : Option Nat := none
  carried : List Nat := []
  units  : List Nat := []
  prevUnits : List Nat := []
  pic    : Option Nat := none
  floorPic : Bool := false
  floorEv : List Nat := []
  lateOpen : Bool := false
  hist   : Tab (Nat × Nat × Nat) := []
  completed : Nat := 0
  convEnd : Option Nat := none
  lastQp : Nat := 0
  lastCap : Nat := 0
deriving DecidableEq, Repr

/-! ### Commits (R21, R220) -/

/-- A layer's settings (OP_LAYER_SET). -/
structure LSet where
  enable : Bool := false
  static : Bool := false
  gang   : Bool := false
  predec : Bool := false
  matrix : Nat := 0
  bank   : Nat := 0
  galpha : Nat := 1023
  src    : List Nat := [0, 0, 0, 0]
  dst    : List Nat := [0, 0, 0, 0]
  fill   : Nat := 0
  coef   : List Int := []
  pre    : List Int := []
  post   : List Int := []
deriving DecidableEq, Repr

/-- What a layer is bound to (OP_LAYER_BIND): format 6 is an input flow. -/
structure LBind where
  fmt   : Nat
  pitch : Nat
  base  : Nat
  w     : Nat
  h     : Nat
  flow  : Nat
deriving DecidableEq, Repr

/-- What a commit changes when it applies. -/
inductive CommitK where
  | rate (maxrate emcap tq qmin qmax dqp slack ofs : Nat)
  | refresh (mode period : Nat)
  | coding (mask : Nat) (vals : List Nat) (mdcv : Bytes) (cll ccflow : Nat)
  | start
  | stop
  | markLong
  | layerSet (k : Nat) (v : LSet)
  | layerBind (k : Nat) (v : LBind) (waits : List Nat)
  | layerFlip (k base : Nat) (waits : List Nat)
  | layerDirty (k : Nat)
  | coef (bank : Nat) (h v : List Int)
  | route (slot kind src pair : Nat)
  | unroute (slot : Nat)
  | shaper (net sidx mode rate burst ovh : Nat)
  | audPort (port flags frame slotbits rate preroll postroll group : Nat)
  | window (mac win en cycle start len : Nat)
  | handover (key : Nat)
deriving DecidableEq, Repr

/-- A commit: its channel (255 for a device commit), its effective row as (frame, row), its resolved point in ns, and
its FSEQ. `late` marks one that reached the Spindle after its point (R220). -/
structure Commit where
  late  : Bool := false
  desc  : Nat := 0
  ch    : Nat
  frame : Nat
  row   : Nat
  ns    : Nat
  fseq  : Nat
  kind  : CommitK
deriving DecidableEq, Repr

/-! ### Host interface (R229 to R256) -/

/-- A command fetched and not yet interpreted. `pos` counts slots since the queue was created; `dma` is 0 for no copy
needed or done, 1 waiting for a DMA channel, 2 copying, 3 failed. -/
structure Fetched where
  pos    : Nat
  slots  : Nat
  tag    : Nat
  opcode : Nat
  flags  : Nat
  channel : Nat
  plen   : Nat
  dma    : Nat
deriving DecidableEq, Repr

/-- An accepted command whose completion has not been posted; `done` holds status, detail and results. -/
structure Outst where
  key    : Nat
  pos    : Nat
  tag    : Nat
  opcode : Nat
  flags  : Nat
  channel : Nat
  done   : Option (Nat × Nat × Nat × Nat)
deriving DecidableEq, Repr

/-- What holds a reply back: nothing, the acknowledgement of a mirror sent at a time (R256), or a reply delay until a time (R496). -/
inductive Hold where
  | none
  | ack (seq sent : Nat)
  | until (ns : Nat)
deriving DecidableEq, Repr

/-- A reply or completion on its way to the ring, with the commits its posting hands on (R242). -/
structure Rply where
  pos     : Nat
  tag     : Nat
  opcode  : Nat
  channel : Nat
  status  : Nat
  detail  : Nat
  r0      : Nat
  r1      : Nat
  compl   : Bool
  halted  : Bool
  notify  : Bool
  unmirrored : Bool
  final   : Bool
  hold    : Hold
  commits : List Commit
deriving DecidableEq, Repr

/-- A barrier being waited for: its command, the tails it covers, and the time at which its timeout expires (R248). -/
structure Barrier where
  pos    : Nat
  tag    : Nat
  flags  : Nat
  tails  : List (Nat × Nat)
  expiry : Nat
deriving DecidableEq, Repr

/-! ### Events (R436 to R450) -/

/-- An event record waiting to be written. `route` is the group whose MSI-X route follows the record. -/
structure Rec where
  src     : Nat
  cls     : Nat
  channel : Nat
  detail  : Nat
  ns      : Nat
  occ     : Nat
  aux     : Nat
  ao      : Bool
  route   : Option Nat
deriving DecidableEq, Repr

/-- One entry of the backlog: a record, or the place of records dropped. -/
inductive Back where
  | record (r : Rec)
  | dropped (n firstNs : Nat)
deriving DecidableEq, Repr

/-- The event unit beside its registers. `burst` holds the occurrences of the command in progress, by time and source number (R24); it is empty
between commands. -/
structure Evt where
  burst   : List Rec := []
  occ     : Tab Nat := []
  backlog : List Back := []
  gapNext : Bool := false
  ao      : List Rec := []
  aoDropped : Bool := false
  lastMsg : Tab (Option Nat) := []
deriving DecidableEq, Repr

/-! ### Channels -/

/-- What a channel holds reserved (R38): the accepted pixel charge, pages, descriptors and frame buffers. -/
structure Adm where
  pix      : Nat := 0
  ringPages : List Nat := []
  cpbPages : List Nat := []
  descs    : List Nat := []
deriving DecidableEq, Repr

/-- The emergency slot of a channel (R219). `cmd` names the command, for its one event. -/
structure EmSlot where
  on  : Bool
  frame : Nat
  row : Nat
  ns  : Nat
  cmd : Nat
deriving DecidableEq, Repr

/-- Coding parameters (R72). `locSet` says that a command has set CHROMA_LOC. -/
structure Coding where
  codec  : Nat := 0
  chroma : Nat := 1
  depth  : Nat := 1
  colour : Nat := 0
  loc    : Nat := 0
  locSet : Bool := false
  captions : Nat := 0
  mdcv   : Bytes := []
  cll    : Nat := 0
  ccflow : Nat := 0
deriving DecidableEq, Repr

/-- A record of the coded-picture ring (R73): its header fields, the ring offset it starts at, its NAL units, and
whether one of its lines is uncorrectable (R198, R199). -/
structure RingRec where
  typ   : Nat
  frame : Nat
  row   : Nat
  col   : Nat
  off   : Nat
  nal   : Bytes
  bits  : Nat
  flags : Nat
deriving DecidableEq, Repr

/-- The pixels of one composed row, in raster order (R149). -/
structure RowPix where
  y  : List Nat := []
  cb : List Nat := []
  cr : List Nat := []
deriving DecidableEq, Repr, Inhabited

/-- One CTU row of a reference band (R93, R94): the picture it is staged for, the row and the descriptor it was read from, and the time it was staged. -/
structure BandRow where
  frame : Nat
  row   : Nat
  desc  : Nat
  ns    : Nat
deriving DecidableEq, Repr

/-- A slice that is or will be substituted, for its one event in slice order (R84): frame, row, column, and whether its substitute is written. -/
structure SubstEv where
  frame : Nat
  row   : Nat
  col   : Nat
  done  : Bool
deriving DecidableEq, Repr

/-- One channel context beside its CHC registers. `composed` gives the report times of the columns written of a row in composition, by 1024 ×
frame + row (R60); `bands` the rows in the reference bands, by 16 × list position + ring slot (R93); `pfx` the prefix records by picture, as the header unit
will write them (R68). `lminStart` is the L_min of the last start (R366); `cRate` the C
signalled (R70); `longNamed` the pictures OP_CH_MARK_LONG names (R97); `maskFrame` the frame whose first slice loaded
SLOTMASK_ACT (R43); `lists` the descriptors each undispatched or running picture reads, and `slicesLeft` its slices not
ended; `sei` the CAPTIONS, MDCV, CLL and
CCFLOW in force. -/
structure Chan where
  raster : Nat := 2
  rate   : Nat := 6
  infmt  : Nat := 0
  coding : Coding := {}
  refs   : Nat := 2
  longPeriod : Nat := 0
  periodSet : Bool := false
  adm    : Option Adm := none
  pixPresent : Nat := 0
  startFrame : Nat := 0
  gridBase : Nat := 0
  nextFrame : Nat := 0
  nextRow : Nat := 0
  lastPic : Option Nat := none
  packed : Option Nat := none
  commits : List Commit := []
  longNamed : List Nat := []
  emSet  : Bool := false
  emApplied : Bool := false
  emSlot : Option EmSlot := none
  emInvalidPic : Option Nat := none
  rc     : RcSt := {}
  lminStart : Nat := 0
  cRate  : Nat := 0
  maskFrame : Option Nat := none
  curPic : Option Nat := none
  lists  : Tab (List Nat) := []
  slicesLeft : Tab Nat := []
  ring   : List RingRec := []
  ringHead : Nat := 0
  composed : Tab (List Nat) := []
  bands  : Tab BandRow := []
  pfx    : Tab Bytes := []
  substs : List SubstEv := []
  intDue : Bool := false
  paramBad : Bool := false
  sei    : Nat × Bytes × Nat × Nat := (0, [], 0, 0)
  follow : Bool := false
  rcWait : Option (Nat × Nat) := none
  matchRun : Nat := 0
deriving DecidableEq, Repr

/-! ### The Spindle -/

/-- A coefficient bank: 64 × 8 horizontal taps and 64 × 6 vertical taps. -/
structure Bank where
  h : List Int := []
  v : List Int := []
deriving DecidableEq, Repr

/-- What a composition task uses (R22, R56, R150): the layers' settings and bindings, the coefficient banks and the tiles of a valid cache of its frame, and
the emergency selection of its row, as its release found them; and, from its dispatch, the emergency variant as [VALID, FG, BG, BGALPHA, FGALPHA, EMMODE]. -/
structure CompSnap where
  acts  : List LSet := []
  bnds  : List (Option LBind) := []
  banks : List (Option Bank) := []
  em    : Bool := false
  emv   : List Nat := []
  tiles : Option (List (Nat × Nat)) := none
deriving DecidableEq, Repr

/-- A task descriptor (R207). `rc` are a slice's rate-control inputs, `list` its list 0 and `live` the descriptors of it that were not MISSING at the dispatch (R105);
`avoid` the engine a re-encode must not take (R77); `snap` what a composition uses. `state` is 0 FREE, 1 WAITING, 2 DELAYED, 3 READY, 4 DISPATCHED, 5 DONE. `retries` counts
the failed re-encodes of the slice; `bound` is a stand-in the task waits for; `proj` that its finish has been
projected (R215); `key` is the host command it serves. -/
structure Task where
  state  : Nat := 0
  kind   : Nat := 0
  cls    : Nat := 0
  prio   : Nat := 0
  dep    : Nat := 0
  flow   : Nat := 0
  ch     : Nat := 0
  col    : Nat := 0
  fseq   : Nat := 0
  row    : Nat := 0
  target : Nat := 255
  frame  : Nat := 0
  release : Nat := 0
  deadline : Option Nat := none
  succ   : List Nat := []
  param  : Nat := 0
  gseq   : Nat := 0
  retries : Nat := 0
  bound  : Option Nat := none
  proj   : Bool := false
  start  : Nat := 0
  standin : Bool := false
  missed : Bool := false
  cap    : Nat := 0
  qp     : Nat := 0
  allIntra : Bool := false
  key    : Nat := 0
  rc     : RcIn := {}
  list   : List Nat := []
  live   : List Nat := []
  avoid  : Option Nat := none
  snap   : Option CompSnap := none
deriving DecidableEq, Repr

/-- A flow (R216, R217). -/
structure Flow where
  atomic : Bool := false
  valid  : Bool := false
  window : Nat := 0
  next   : Nat := 0
  oldest : Nat := 0
deriving DecidableEq, Repr

/-- One record of the shavings log (R225). -/
structure Trace where
  ns    : Nat
  kind  : Nat
  cp    : Nat
  task  : Nat
  flow  : Nat
  ch    : Nat
  target : Nat
  frame : Nat
  row   : Nat
  col   : Nat
  tkind : Nat
  aux   : Nat
deriving DecidableEq, Repr

/-- The Spindle beside its registers. -/
structure Spd where
  tasks  : Tab Task := []
  flows  : Tab Flow := []
  log    : List Trace := []
  trigLeft : Option Nat := none
  devCommits : List Commit := []
  winOpen : Nat := 0
  winClose : Nat := 0
  winLast : Option Nat := none
  refNext : Option Nat := none
  refEnd : Nat := 0
  stallFrom : Option Nat := none
deriving DecidableEq, Repr

/-! ### Engines and reference pool -/

/-- An engine beside its registers: its task, the times of its recent faults, whether a command or the boot started its
self-test, and the OP_ENG_SERVICE commands that wait for it. -/
structure Eng where
  task   : Option Nat := none
  faults : List Nat := []
  cmdTest : Bool := false
  outKeys : List Nat := []
  inKey  : Nat := 0
deriving DecidableEq, Repr

/-- A reference descriptor (R99) with its on-chip mark (R100). `owner` is the channel that reserved it, 255 for none; `recon` the
samples last written to its buffer, by 4 × CTU row + slice column, which the coding of its units gives back (R103). -/
structure Ref where
  mark   : Nat := 0
  owner  : Nat := 255
  const  : Bool := false
  mf     : Bool := false
  cRead  : Bool := false
  cWrite : Bool := false
  poc    : Nat := 0
  frame  : Nat := 0
  addr   : Nat := 0
  granules : Nat := 0
  recon  : Tab RowPix := []
deriving DecidableEq, Repr

/-! ### Composition -/

/-- A layer: its active and latest accepted settings, its bindings, and what waits for a frame boundary (R150). -/
structure Layer where
  act    : LSet := {}
  latest : LSet := {}
  bnd    : Option LBind := none
  latestBnd : Option LBind := none
  pendSet : Option LSet := none
  pendBind : Option (LBind × List Nat) := none
  last   : Option LBind := none
  dirty  : Bool := false
deriving DecidableEq, Repr

/-- The overlay cache of a channel: whether it is valid; its occupied tiles, as (tile, place in the pool); the FLATTEN task that runs, and whether the
run changed under it; whether an abandoned flatten waits for tiles, whether tiles have been freed since, and whether a frame boundary has fallen after that;
whether a flatten failed; the tiles of a flatten that has ended; the places of the old cache; and whether a bad tile invalidates
the cache at the next boundary. -/
structure Cache where
  valid  : Bool := false
  tiles  : List (Nat × Nat) := []
  flattening : Option Nat := none
  stale  : Bool := false
  retry  : Bool := false
  freed  : Bool := false
  due    : Bool := false
  failed : Bool := false
  fresh  : Option (List (Nat × Nat)) := none
  old    : List Nat := []
  drop   : Bool := false
deriving DecidableEq, Repr

/-- Composition beside its registers. `banks` are the latest banks; `chBank` the bank a running channel still uses, by
4n + bank; `coefWait` the coefficient commands not in effect everywhere, as (bank, number, point in ns, channels); `emDone` the emergency commands
whose event was raised. -/
structure Cmp where
  layers : Tab Layer := []
  caches : Tab Cache := []
  banks  : Tab Bank := []
  chBank : Tab (Option Bank) := []
  coefWait : List (Bank × Nat × Nat × List Nat) := []
  emDone : List Nat := []
deriving DecidableEq, Repr

/-! ### Blitters (R164 to R183) -/

/-- A blitter beside its registers: the blit it runs, its place in scan order, the bytes written, and the dead time it
waits out, in FCLK. -/
structure BltUnit where
  task  : Option Nat := none
  pos   : Nat := 0
  bytes : Nat := 0
  dead  : Option Nat := none
deriving DecidableEq, Repr

/-- The blitters: the accepted blits by descriptor, as (queue, tag, parameters), and the units. -/
structure Blt where
  cmds  : Tab (Nat × Nat × Bytes) := []
  units : Tab BltUnit := []
deriving DecidableEq, Repr

/-! ### Input (R269 to R293) -/

/-- One sequence number of a merge window: received on A, on B, by repair, and whether its loss was declared. -/
structure SeqSt where
  a    : Bool := false
  b    : Bool := false
  rep  : Bool := false
  decl : Bool := false
deriving DecidableEq, Repr

/-- A line of an input ring: the flow frame and line it holds, the pixel ranges written (offset, length), and whether its
group has been latched. -/
structure RLine where
  frame : Nat
  line  : Nat
  px    : List (Nat × Nat)
  latched : Bool
deriving DecidableEq, Repr

/-- The format of a video flow (R275). -/
structure FlowFmt where
  raster : Nat
  rate   : Nat
  phase  : Nat
  infmt  : Nat
deriving DecidableEq, Repr

/-- An input flow (OP_IN_CREATE) beside its registers: its merge window, the deadlines of missing sequences (R282), the
time of the last packet of each path, its ring, the group (grid frame, first line) that latches next, the packets kept to
answer repairs, and its audio and captions as received. -/
structure InFlow where
  kind   : Nat
  nets   : Nat
  dportA : Nat
  dportB : Nat
  groupA : Nat
  srcA   : Nat
  groupB : Nat
  srcB   : Nat
  meter  : Nat
  first  : Nat := 0
  hi     : Option Nat := none
  win    : Tab SeqSt := []
  due    : Tab Nat := []
  pathAt : Tab Nat := []
  lastEv : Tab Nat := []
  fmt    : Option FlowFmt := none
  pages  : List Nat := []
  lines  : Nat := 0
  bytes  : Nat := 0
  hmin   : Nat := 0
  ring   : Tab (Option RLine) := []
  latNext : Option (Nat × Nat) := none
  answer : List (Nat × Bytes × Bytes) := []
  audRate : Nat := 0
  audHi  : Nat := 0
  aud    : Tab (List Int) := []
  caps   : List (Nat × List Nat) := []
deriving DecidableEq, Repr

/-- A meter: its rates and sizes, and for each network the two buckets in 2^-16 byte, the last update, and the time of
the last EV_INP_METER_RED. -/
structure Meter where
  set  : Bool := false
  cir  : Nat := 0
  pir  : Nat := 0
  cbs  : Nat := 0
  pbs  : Nat := 0
  tc   : Tab Nat := []
  tp   : Tab Nat := []
  last : Tab Nat := []
  red  : Option Nat := none
deriving DecidableEq, Repr

/-- Input beside its registers: flows, meters, leaves that wait (flow, network, old MAC, due), neighbours learnt by MAC
and address, times of the once-per-second events by source, protocol frames counted in the present second by MAC, and
whether a MAC has seen a query since link-up. -/
structure Inp where
  flows  : Tab (Option InFlow) := []
  meters : Tab Meter := []
  leaves : List (Nat × Nat × Nat × Nat) := []
  neigh  : List (Nat × Nat × Nat) := []
  router : Tab Nat := []
  secEv  : Tab Nat := []
  ctrl   : Tab (Nat × Nat) := []
  query  : Tab Bool := []
deriving DecidableEq, Repr

/-! ### Central Store and memories -/

/-- A Central Store page: its owner (R193) and the channel that holds it. -/
structure Page where
  owner : Nat := 0
  ch    : Nat := 255
deriving DecidableEq, Repr

/-- Store pages beside the CST registers: HOST runs by first page, and the frees not yet complete, as (key, pages left,
blits waited for); the scrub; when the wipe began (R201); and the corrections of the second. -/
structure Cst where
  pages : Tab Page := []
  runs  : Tab Nat := []
  frees : List (Nat × List Nat × List Nat) := []
  scrubLine : Nat := 0
  scrubAt : Option Nat := none
  wipeAt : Nat := 0
  corrSec : Nat := 0
  corrCount : Nat := 0
  corrRaised : Bool := false
deriving DecidableEq, Repr

/-- The memories: Central Store by store offset, DRAM by offset from DRAM_BASE, flash by flash offset, the working SRAM; the wrong bits of store lines,
by line (R185); and the DRAM lines that are damaged (0 good; 1 the line, 2 its code line). -/
structure Mem where
  cs    : List Host.Cell := []
  dram  : List Host.Cell := []
  flash : List Host.Cell := []
  sram  : List Host.Cell := []
  csFlip : Tab (List Nat) := []
  dramBad : Tab Nat := []
deriving DecidableEq, Repr

/-! ### DRAM controllers (R391 to R408) -/

/-- A controller beside its registers: code lines written and not yet written back, oldest first; its guard tables by
16 × rank + bank, as (row, count); the next scrub line; the last EV_DMC_ECC; neighbour refreshes in the present second,
as (second, count); the candidate records by point, as a mask of steps passed; and the time in ns of the last scrub. -/
structure DmcCh where
  code  : List Nat := []
  guard : Tab (List (Nat × Nat)) := []
  scrub : Nat := 0
  eccAt : Option Nat := none
  guardSec : Nat × Nat := (0, 0)
  cand  : Tab Nat := []
  scrubAt : Option Nat := none
deriving DecidableEq, Repr

/-- A training run: its point, the channels selected, those still in it, those that passed step 7, its step, its key. -/
structure Train where
  point : Nat
  sel   : Nat
  live  : Nat
  good  : Nat
  step  : Nat
  key   : Nat
deriving DecidableEq, Repr

/-- The controllers together. Times are internal, in 1/16 ns: the next refresh due, the last one due, a batch as (t_b, issued),
the end of a payback. `cut` says that a rate rise ended the batch of the present window (R400); `fall` is a lower rate that
waits for a payback; `calm` counts polls with every die at 1× or slower; `hot` the channels that caused the present rate;
`skew` the refresh skew in ns and the time up to which due times were already reported; `mr4At` and `clearAt` the times in ns of the last MR4 poll and of
the last clearing of the guard tables. -/
structure Dmc where
  chans : Tab DmcCh := []
  due   : Nat := 0
  last  : Nat := 0
  batch : Option (Nat × Nat) := none
  payEnd : Nat := 0
  cut   : Bool := false
  fall  : Option Nat := none
  calm  : Nat := 0
  hot   : List Nat := []
  skew  : Option (Int × Nat) := none
  train : Option Train := none
  points : List (Nat × Nat) := []
  mr4At : Option Nat := none
  clearAt : Nat := 0
deriving DecidableEq, Repr

/-! ### Requests that wait at a memory (R191, R201, R403) -/

/-- A request that its memory holds: a host write or read of BAR2, or a controller's access of a DRAM line. -/
inductive Req where
  | write (off : Nat) (data : Bytes)
  | read (off len : Nat) (errs : List (Nat × Nat))
  | dram (line : Nat) (data : Option Bytes) (act : Bool) (res : Nat)
deriving DecidableEq, Repr

/-! ### Programs and shapers (R294 to R315) -/

/-- A program's settings (OP_OUT_CREATE), its routed slots (kind, source, pair), and its continuity counters by PID. -/
structure Prog where
  nets   : Nat
  mode   : Nat
  pt     : Nat
  dscp   : Nat
  dport  : Nat
  sport  : Nat
  ssrc   : Nat
  ttl    : Nat
  initSeq : Nat
  dstA   : Nat
  dstB   : Nat
  pmtPid : Nat
  vidPid : Nat
  audPid : Nat
  progNum : Nat
  audPort : Nat
  audPt  : Nat
  cc     : Tab Nat := []
  startFrame : Nat := 0
deriving DecidableEq, Repr

/-- A route of a program slot: source kind (0 SAP, 1 flow), source, and channel pair. -/
structure Route where
  kind : Nat
  src  : Nat
  pair : Nat
deriving DecidableEq, Repr

/-- A frame formed and not yet released: its sequence number, base and computed launch time, charged size, RTP
timestamp and marker, payload, the ring offsets its payload is gathered from, and its unit. -/
structure QFrame where
  seq    : Nat
  base   : Nat
  e      : Nat
  k      : Nat
  ts     : Nat
  marker : Bool
  payload : Bytes
  lines  : List Nat
  frame  : Nat
  row    : Nat
  audio  : Bool
  held   : Bool := false
deriving DecidableEq, Repr

/-- A shaper beside its registers (R306): the credit in 2^-16 byte, the time of its last update, the last computed launch
time and the rate, burst, overhead and reset mode of the arithmetic; its queue; the last release; a change that waits for its base, with whether it comes from R_min; the latest accepted RATE (0 for AUTO)
and OVERHEAD; and the unit last reported late. -/
structure Shaper where
  c      : Int := 0
  tau    : Nat := 0
  lastE  : Nat := 0
  rate   : Nat := 0
  burst  : Nat := 0
  ovh    : Nat := 0
  mode   : Nat := 0
  fresh  : Bool := true
  queue  : List QFrame := []
  lastRel : Nat := 0
  lastSeq : Option Nat := none
  pend   : List (Nat × Nat × Nat × Nat × Nat × Bool) := []
  applied : List (Nat × Nat × Nat × Nat × Nat × Bool) := []
  accRate : Nat := 0
  accOvh : Nat := 0
  lateUnit : Option (Nat × Nat) := none
deriving DecidableEq, Repr

/-- A frame released to the transmit arbiter of its MAC that waits for the wire (R309): its virtual finish, its shaper,
its charged size in bytes, and the bytes to send. -/
structure TxWait where
  finish : Nat
  shaper : Nat
  k      : Nat
  bytes  : Bytes
deriving DecidableEq, Repr

/-- The transmit arbiter of a MAC (R309): the virtual finish of the frame in service, that of the last frame of each
shaper's queue, the time at which the wire falls idle, and the released frames that wait for it. -/
structure Arb where
  v     : Nat := 0
  prev  : Tab Nat := []
  idle  : Nat := 0
  wait  : List TxWait := []
deriving DecidableEq, Repr

/-- The packer's state per program: the next sequence numbers counted from INIT_SEQ without wrapping (R298), the last
ones released, the payload decisions already made by sequence number (1 replaced, 2 withheld; R199), the first audio
count of the program (R302), and the first audio count not yet packed in direct-RTP mode. -/
structure Pkr where
  seq    : Nat := 0
  audSeq : Nat := 0
  rel    : Option Nat := none
  audRel : Option Nat := none
  decided : List (Nat × Nat) := []
  aud0   : Option Nat := none
  audNext : Option Nat := none
  noAddrAt : Option Nat := none
deriving DecidableEq, Repr

/-! ### The join image (R387) -/

/-- The join image: its image time; the register fields of the blocks whose settings it holds; flows and meters; channel
contexts and their reference descriptors; layers and coefficient banks; programs, shapers, packers and routes; the page map;
and the device commits pending. -/
structure Image where
  ts     : Nat
  regs   : Tab Nat := []
  flows  : Tab (Option InFlow) := []
  meters : Tab Meter := []
  chans  : Tab Chan := []
  refs   : Tab Ref := []
  layers : Tab Layer := []
  banks  : Tab Bank := []
  chBank : Tab (Option Bank) := []
  coefWait : List (Bank × Nat × Nat × List Nat) := []
  progs  : Tab (Option Prog) := []
  routes : Tab (Option Route) := []
  routesAct : Tab (Option Route) := []
  shps   : Tab Shaper := []
  pkrs   : Tab Pkr := []
  pages  : Tab Page := []
  runs   : Tab Nat := []
  devCommits : List Commit := []
deriving DecidableEq, Repr

/-! ### What leaves the block -/

/-- The device's output pins that a command can change. -/
inductive Pin where
  | pwrMainEn | lockOut | hbOut | ppsOut | frameSync (i : Nat) | mclkOut | alert
deriving DecidableEq, Repr

/-- What a Tyhorn frame carries. Records whose byte layout the spec gives are bytes; the others are their fields. -/
inductive LRec where
  /-- The 32-byte heartbeat record (R370). -/
  | heartbeat (body : Bytes)
  /-- A mirrored command (R256, R375): queue, opcode, header with its resolved point, parameters, and the status and
  result words of HEADSTOCK. -/
  | mirror (qid opcode flags channel tag plen effpt : Nat) (params : Bytes) (status detail r0 r1 : Nat)
  /-- A CHECK record body (R378). -/
  | check (body : Bytes)
  /-- RCREC (R384): channel, frame, row slot, cap, QP, floor form of each CTU, refresh units, convergence flag and, at
  row 0, the rate-control state of R130. -/
  | rcrec (ch frame row cap qp : Nat) (floor : List Bool) (units : List Nat) (conv : Bool) (rc : Option RcSt)
  /-- AUDIO (R382): port, first count, samples of 8 periods. -/
  | audio (port first : Nat) (samples : List Int)
  | repairReq (flow ext : Nat)
  | repairAns (flow ext : Nat) (header payload : Bytes)
  | repairAbsent (flow ext : Nat)
  | resyncReq (full : Bool) (mask : Nat)
  /-- The join image (R387). -/
  | image (i : Image)
  /-- A mirror's acknowledgement with its status (R375). -/
  | mirrorAck (seq status : Nat)
  /-- Link control (R373): acknowledgements only, or the reset of a channel with its next SEQ. -/
  | ackOnly
  | reset (ch next : Nat)
deriving DecidableEq, Repr

/-- One thing that left the block. -/
inductive Out where
  /-- A reply or completion entry written to a completion ring (R240). -/
  | reply (qid tag status state rflags detail sqhead opcode r0 r1 : Nat)
  /-- An event record written to the event ring (R446). -/
  | event (src eflags channel detail sec ns occ aux : Nat)
  /-- An MSI-X message (R243, R450). -/
  | msix (vector : Nat)
  /-- The completion of a register read (R10, R13). -/
  | regData (master : Nat) (data : Nat)
  /-- The completion of a BAR2 read; `poisoned` is EP (R198). -/
  | bar2Data (data : Bytes) (poisoned : Bool)
  /-- An Unsupported Request completion (R419, R514). -/
  | unsupported
  /-- A frame leaves a MAC at an internal time in ns (R309, R321, R326). -/
  | frame (mac ns : Nat) (data : Bytes)
  /-- A membership report or leave leaves a MAC for a flow (R273, R274). -/
  | join (mac flow : Nat) (leave : Bool)
  /-- A service-port reply (R478). -/
  | service (typ seq status detail : Nat) (body : Bytes)
  /-- A Tyhorn frame of a logical channel: 0 heartbeat, 1 mirror, 2 data, 3 link control (R372, R373), with the
  acknowledgements it carries; `bad`: its CRC was corrupted (R496). -/
  | link (ch seq : Nat) (acks : List Nat) (bad : Bool) (r : LRec)
  /-- An output pin changes. -/
  | pin (p : Pin) (v : Bool)
  /-- An output pulse (R328): the pin rises at an internal time in ns and stays high for `width` ns. -/
  | pulse (p : Pin) (ns width : Nat)
  /-- The frame of a media-clock count on a port (R332, R334): WS at each BCLK where the port is a master, and SD at each BCLK where it
  transmits. In formats 0 and 3 the last bit of SD falls on the first BCLK of the next frame. -/
  | audio (port count : Nat) (ws sd : List Bool)
  /-- DRAM command: refresh, neighbour refresh, MR4 read (R397, R398, R401). -/
  | dramCmd (dmc kind arg : Nat)
  /-- A lane transmits with bits inverted (R361). -/
  | inject (lane bits : Nat)
deriving DecidableEq, Repr

/-! ### Pair (R364 to R390) -/

/-- A CHECK record's fields (R378). -/
structure CheckRec where
  ch     : Nat
  stream : Nat
  row    : Nat
  frames : Nat
  seq    : Nat
  frame  : Nat
  cc     : Nat
  check  : Nat
deriving DecidableEq, Repr

/-- A logical channel of the link as sender: next SEQ, frames sent and not acknowledged (SEQ, first transmission, last
transmission), and records waiting for credit. -/
structure LinkTx where
  next    : Nat := 0
  unacked : List (Nat × Nat × Nat × LRec) := []
  wait    : List LRec := []
deriving DecidableEq, Repr

/-- The claim (R368): idle, waiting for 1 µs of a released line since a time, guarding since a time, or holding against
a second claim since its own assertion. -/
inductive Claim where
  | idle
  | wait (since : Nat)
  | guard (since : Nat)
  | contest (asserted : Nat) (high : Option Nat)
deriving DecidableEq, Repr

/-- A mirror that waits for the image (R387): its SEQ, opcode, header and parameters, and HEADSTOCK's status and results. -/
structure MirrorRec where
  seq    : Nat
  op     : Nat
  h      : Hdr
  p      : Bytes
  status : Nat
  detail : Nat
  r0     : Nat
  r1     : Nat
deriving DecidableEq, Repr

/-- The pair controller beside its registers. `enableKeys` are the OP_PAIR_ENABLE commands not complete; `aStop` says that
the heartbeat watchdog stopped network A (R369); `hbNext` is when the next heartbeat is due and `hbSent` when the last one
was made; `asked` the channels whose join sweep was requested. `hbLinkAt` and `hbLineAt` are the last heartbeat frame and edge;
`pRole`, `pImage`, `pSlot`, `pRev` are what the partner's last heartbeat showed; `own` and `theirs` are checks without
their match, the own ones with their base and check deadline; `picRows` counts the matched main units of a picture by
channel; `switches` are the last role changes, as (first base of the new role,
role before it; R374); `bCut` and `bWas` the same for network B of a HEADSTOCK; `fullPend` says a full resync is wanted; `pUpd` is the partner's HFLAGS[2], `lastBad` the last frame of each channel discarded for
its CRC, as (SEQ, bytes 0 to 2,043); `recAt` the RCRECs that came early. -/
structure Pair where
  tx       : Tab LinkTx := []
  rx       : Tab Nat := []
  hbSeq    : Nat := 0
  hbLinkAt : Nat := 0
  hbLineAt : Nat := 0
  hbLevel  : Bool := false
  pRole    : Nat := 0
  pImage   : Bool := false
  pSlot    : Nat := 0
  pRev     : Nat := 0
  prefer   : Bool := false
  joinBy   : Option Nat := none
  enableKeys : List Nat := []
  handKey  : Nat := 0
  handAt   : Option Nat := none
  handBack : Bool := false
  aStop    : Bool := false
  hbNext   : Nat := 0
  hbSent   : Nat := 0
  slotSaid : Bool := false
  asked    : List Nat := []
  disabling : Bool := false
  claim    : Claim := .idle
  backoff  : Nat := 0
  own      : List (CheckRec × Nat × Nat) := []
  theirs   : List CheckRec := []
  picRows  : Tab (Nat × Nat) := []
  imageSending : Bool := false
  imageAt  : Option Nat := none
  failed   : Bool := false
  fullPend : Bool := false
  switches : List (Nat × Nat) := []
  bCut     : Nat := 0
  bWas     : Bool := false
  rcrecs   : List LRec := []
  portAudio : Tab (List (Nat × Int × Int)) := []
  heldMirrors : List MirrorRec := []
  repairs  : List (Nat × Nat × Nat) := []
  pUpd     : Bool := false
  lastBad  : Tab (Option (Nat × Bytes)) := []
deriving DecidableEq, Repr

/-! ### Perturbation (R493 to R499) -/

/-- The TST block beside its registers: when the heartbeat silence ends, and the check injection armed, as (kind, target,
items left), with kind 0 for none. -/
structure Tst where
  hbUntil : Option Nat := none
  inj     : Nat × Nat × Nat := (0, 0, 0)
deriving DecidableEq, Repr

/-! ### Serial audio ports (R332 to R346) -/

/-- A port beside its registers: its ring by count (unlisted counts are zero), the count of the last frame, the frames
passed in the present roll, the last captured sample, the start of the last valid frame, the first count of the present
RUN, the first count not yet counted in ZEROINS, the time of the last EV_AUD_SLIP, the rate, clock role, FRAME and SLOTBITS that a POSTROLL
finishes, a frame that waits for its reference frame (R341), and the first count not yet sent to the partner. -/
structure AudPort where
  ring   : Tab (Int × Int) := []
  hi     : Option Nat := none
  roll   : Nat := 0
  last   : Int × Int := (0, 0)
  lastAt : Nat := 0
  runFrom : Nat := 0
  filled : Nat := 0
  slipEv : Option Nat := none
  old    : Option (Nat × Bool × Nat × Nat) := none
  wait   : Option (Nat × Int × Int) := none
  sent   : Nat := 0
deriving DecidableEq, Repr

/-- The audio unit: its ports, and the reference frames of each group as (count, start, kind), newest last: kind 0 a frame, 1 a
frame dropped, 2 a count repeated. -/
structure Aud where
  ports  : Tab AudPort := []
  refs   : Tab (List (Nat × Nat × Nat)) := []
deriving DecidableEq, Repr

/-- A master heard on a network (R323): its port identity, the dataset of its last Announce, the UTC offset and flags, the
times in ns of its last Announce and of the one before (0 for none), and its Announce interval in ns. -/
structure Master where
  port  : Nat
  prio1 : Nat
  cls   : Nat
  acc   : Nat
  var   : Nat
  prio2 : Nat
  gm    : Nat
  steps : Nat
  utc   : Nat
  flags : Nat
  seen  : Nat
  prev  : Nat
  every : Nat
deriving DecidableEq, Repr

/-- The PTP instance of a network (R321 to R324): the masters heard; the best one's port identity; the destination of its
messages (0 for IEEE 802.3); a two-step Sync that waits for its Follow_Up (sequence, t2, correction); t1 and t2 of the
last exchange; the Delay_Req that waits for its answer (sequence, t3); the next Delay_Req sequence number; the interval stated for
Delay_Req in ns; and the last 64 path delays. Times and delays are in 2^-16 ns. -/
structure TInst where
  masters : List Master := []
  best  : Option Nat := none
  dst   : Nat := 0
  sync  : Option (Nat × Int × Int) := none
  t12   : Option (Int × Int) := none
  dreq  : Option (Nat × Int) := none
  dseq  : Nat := 0
  dint  : Nat := 1000000000
  mpds  : List Int := []
deriving DecidableEq, Repr

/-- The time base beside its registers (R316 to R331): internal time in units of 2^-16 ns; the values that a read
of a low word has latched, by BAR0 offset; the instances; filt in 2^-16 ns; the phase slew in 2^-8 ppb; the run of samples that counts toward the next servo
state; whether |filt| is above STEP_NS; the frequency held in LOCKED as (since ns, value), oldest first; the start of the
present HOLDOVER and whether its limit was reported; and the last PPS_IN edge. -/
structure TimeB where
  now : Nat := 0
  latch : List (Nat × Nat) := []
  insts : Tab TInst := []
  filt : Int := 0
  slew : Int := 0
  run  : Nat := 0
  wide : Bool := false
  freqs : List (Nat × Int) := []
  holdFrom : Nat := 0
  holdSaid : Bool := false
  ppsAt : Option Nat := none
deriving DecidableEq, Repr

/-! ### Lanes (R347 to R363) -/

/-- A lane beside its registers: faults since its last restart; consecutive counted windows below WARN, at WARN + HYST or
above, and below FAIL; consecutive good and bad superblocks; the place of SBCOUNT 0 in its arrival time, in UI; the last payload;
the transmit settings in force, as TXINV, PRE, MAIN, POST; whether the next trial steps down; whether a scan runs; whether
the link layer has reported its fault; the times in ns of its last transition, of its last trial and of its last periodic injection; and the arrival of its
last superblock, in UI. -/
structure Lane where
  faults : Nat := 0
  low    : Nat := 0
  high   : Nat := 0
  fail   : Nat := 0
  good   : Nat := 0
  bad    : Nat := 0
  align  : Nat := 0
  payload : Bytes := []
  tx     : List Nat := [0, 0, 0, 0]
  down   : Bool := false
  scan   : Bool := false
  said   : Bool := false
  since  : Nat := 0
  trialAt : Nat := 0
  injAt  : Option Nat := none
  sbAt   : Nat := 0
deriving DecidableEq, Repr

/-! ### Check value units (R426 to R435) -/

/-- A unit beside its registers: its accumulator, the items seen of each sequence key in the window, the settings that wait (mode,
polynomial, EXPECT, compare), the last millisecond it closed, and the windows that have ended and wait for their report (result, mismatch), oldest
first. -/
structure CvuUnit where
  acc  : Nat := 0
  ords : Tab Nat := []
  pend : Option (Nat × Nat × Nat × Nat) := none
  ms   : Nat := 0
  shut : List (Nat × Bool) := []
deriving DecidableEq, Repr

/-! ### Power, reset and firmware (R452 to R492) -/

/-- The one-way fuses: lifecycle state, AVS target, OCN, owner releases left, minimum SVN. -/
structure Fuses where
  lc       : Nat := 0
  avs      : Nat := 0
  ocn      : Nat := 0
  releases : Nat := 0
  svnMin   : Nat := 0
deriving DecidableEq, Repr

/-- What a container's header says of an image (R473). -/
structure Img where
  version : Nat := 0
  svn     : Nat := 0
  ocn     : Nat := 0
  ppv     : Nat := 0
  setfmt  : Nat := 0
deriving DecidableEq, Repr

/-- The slot record (R476): its sequence number; active and previous slot; whether the active image is on trial, its trial boots;
the settings area of each image; LASTFAIL; and whether the previous image has not booted yet since a fallback. -/
structure SlotRec where
  seq    : Nat := 0
  active : Nat := 0
  prev   : Nat := 1
  trial  : Bool := false
  trials : Nat := 0
  areaA  : Nat := 0
  areaB  : Nat := 1
  lastFail : Nat := 0
  fell   : Bool := false
deriving DecidableEq, Repr

/-- The staging record (R480): the update state 1 to 5 (0 for none), LENGTH and VERSION of BEGIN, and KIND as the container's
header says. -/
structure Staging where
  st     : Nat := 0
  length : Nat := 0
  version : Nat := 0
  kind   : Nat := 0
deriving DecidableEq, Repr

/-- What survives every reset and loss of power: fuses; the images of slots A and B; the two copies of the slot record, the
one in force first; the staging record; UPDATE_LOCK and the allow list of the owner area; the records in the live half of
each settings area, as (item, value) in the order written (R487); and half changes. -/
structure NonVol where
  fuse   : Fuses := {}
  imgA   : Img := {}
  imgB   : Img := {}
  slots  : SlotRec := {}
  slots2 : SlotRec := {}
  staged : Staging := {}
  updLock : Bool := false
  allow  : Tab Nat := []
  log0   : List (Nat × Nat) := []
  log1   : List (Nat × Nat) := []
  passes : Nat := 0
deriving DecidableEq, Repr

/-- A service-port reply kept for a repeated message: sender, SEQ, and TYPE, STATUS, DETAIL, RESULT where it has been sent. -/
structure SvcLast where
  sender : Nat
  seq    : Nat
  rep    : Option (Nat × Nat × Nat × Nat)
deriving DecidableEq, Repr

/-- The management core beside its registers: what survives power; watchdog expiries of the last 60 s; whether it restarts;
blocks of the staged container written, and those being programmed (index, sender, SEQ, data); a background erase of the
staging slot, as the ranges erased so far; a BEGIN that waits for the partner's flag (sender, SEQ, since when); a confirmation being written, with the host
command and the messages it answers; the replies kept; the second of the last SET with the records written in it into the settings area and the owner area; HFLAGS[2] (R482); and the allow
list in force, which the last reset read. -/
structure Mgt where
  nv     : NonVol := {}
  wdog   : List Nat := []
  down   : Bool := false
  blocks : List Nat := []
  prog   : List (Nat × Nat × Nat × Bytes) := []
  erase  : Option (List (Nat × Nat)) := none
  beginWait : Option (Nat × Nat × Nat) := none
  confirming : Bool := false
  confKeys : List Nat := []
  confMsgs : List (Nat × Nat) := []
  last   : List SvcLast := []
  setSec : Nat × Nat × Nat := (0, 0, 0)
  upd    : Bool := false
  allow  : Tab Nat := []
deriving DecidableEq, Repr

/-- What one boot finds (R391, R462, R475): the PAIR_SLOT strap; density code and ranks of the dies, and the channels whose
population is not supported or differs; the points trained on each channel; where the management core places DESCBASE, FBBASE,
FBSIZE, TILEBASE and TILESIZE; which of active slot, previous slot and recovery image fail R474 (bits 0 to 2); the processor whose
loaded code fails its check; whether settings conversion succeeds; which records of the live settings area fail their CRC, by their places in its journal; whether power failed in
the middle of a confirmation write; and the durations of boot and DRAM wipe. -/
structure BootInfo where
  slot    : Nat := 0
  density : Nat := 0
  ranks   : Nat := 0
  pop     : Nat := 0
  trained : List Nat := []
  layout  : List Nat := []
  bad     : Nat := 0
  code    : Option Nat := none
  convert : Bool := true
  badRecs : List Nat := []
  torn    : Bool := false
  ms      : Nat := 0
  dramMs  : Nat := 0
deriving DecidableEq, Repr

/-- The AO sequencer beside its registers: the reset in progress (0 none, 1 cold, 2 warm) and how far it is (0 asserted, 1 main
rails awaited, 2 boot runs); what the boot finds; main power failures in a row; whether PWR_MAIN_EN is asserted and the
main rails are on; a thermal trip held; REFCLK_25 lost; quads without their reference clock; the level of PERST_N; open clock gates by target number;
and consecutive supply samples outside and inside the warning and critical bands. -/
structure Pcr where
  kind  : Nat := 1
  stage : Nat := 0
  boot  : Option BootInfo := none
  fails : Nat := 0
  en    : Bool := false
  rails : Bool := false
  tripped : Bool := false
  refLost : Bool := false
  quadsOff : Nat := 0
  perstN : Bool := false
  gates : Tab Bool := []
  wOut  : Nat := 0
  wIn   : Nat := 0
  cOut  : Nat := 0
  cIn   : Nat := 0
deriving DecidableEq, Repr

end Sys2Proof.Machine
end

