-- ==== Sys2Proof/Syntax.lean ====
section
/-! DEFINITION. The commands of spec/opcode_table.json, one constructor per row, with the row's operands: what the
outside world (the host, the network, the partner, the board, the block's own units reporting) hands the block. -/

namespace Sys2Proof

open Machine

/-- The commands: first those with operands, then those without, each in the order of the table. -/
inductive Instr where
  /-- R263: No-operation command; it is checked and replied ST_OK on any queue, EQ included. -/
  | opNop (h : Hdr) (p : Bytes)
  /-- R263: Returns the part number, revision, firmware version and pair protocol version. -/
  | opDevInfo (h : Hdr) (p : Bytes)
  /-- R230: Creates a channel queue or the event queue from the 32-byte parameter block. -/
  | opQueueCreate (h : Hdr) (p : Bytes)
  /-- R230: Stops fetching at the present tail, replies ST_ACCEPTED and completes once every covered command has its final reply. -/
  | opQueueDelete (h : Hdr) (p : Bytes)
  /-- R246: Resumes a halted queue, optionally answering the halted commands ST_ABORTED with FLUSH. -/
  | opQueueResume (h : Hdr) (p : Bytes)
  /-- R248: Holds the issuing queue until every covered command of the masked queues has its final reply, or until the timeout. -/
  | opBarrier (h : Hdr) (p : Bytes)
  /-- R82: Takes an engine out of service or brings it back through self-test, and sets AUTO_RETURN. -/
  | opEngService (h : Hdr) (p : Bytes)
  /-- R266: Allocates a channel context and loads it with defaults. -/
  | opChCreate (h : Hdr) (p : Bytes)
  /-- R36: Returns the reservations of a channel and frees its context. -/
  | opChDestroy (h : Hdr) (p : Bytes)
  /-- R267: Sets raster, rate, input format and phase, and reruns admission when the channel is admitted. -/
  | opChSetFormat (h : Hdr) (p : Bytes)
  /-- R48: Sets the fixed latency L and reruns admission when the channel is admitted. -/
  | opChSetLatency (h : Hdr) (p : Bytes)
  /-- R72: Sets the masked coding parameters, captions, MDCV and CLL. -/
  | opChSetCoding (h : Hdr) (p : Bytes)
  /-- R96: Sets REFS and LONG_PERIOD, and reruns admission when the channel is admitted. -/
  | opChSetRefs (h : Hdr) (p : Bytes)
  /-- R131: Sets the caps, the QP limits and the rate-control tuning fields. -/
  | opChSetRate (h : Hdr) (p : Bytes)
  /-- R120: Sets the refresh mode and period. -/
  | opChSetRefresh (h : Hdr) (p : Bytes)
  /-- R43: Accepts a new engine slot mask under the engine check, and copies it to the active mask at once or at the next frame. -/
  | opChSetSlotmask (h : Hdr) (p : Bytes)
  /-- R38: Runs the ten admission checks in order and reserves every resource, or refuses the command and reserves nothing. -/
  | opChAdmit (h : Hdr) (p : Bytes)
  /-- R36: Returns every reservation of a channel and moves it to CH_CREATED. -/
  | opChRelease (h : Hdr) (p : Bytes)
  /-- R36: Starts a channel at the first grid frame at or after the effective point. -/
  | opChStart (h : Hdr) (p : Bytes)
  /-- R516: Fixes the effective row whose picture is the last one and moves the channel to CH_DRAINING. -/
  | opChStop (h : Hdr) (p : Bytes)
  /-- R36: Clears a faulted channel to CH_STOPPED, discarding its queued tasks and ring contents. -/
  | opChReset (h : Hdr) (p : Bytes)
  /-- R125: Records a sweep request on a running channel. -/
  | opChRefresh (h : Hdr) (p : Bytes)
  /-- R97: Marks LONG the first picture coded at or after the effective point. -/
  | opChMarkLong (h : Hdr) (p : Bytes)
  /-- R58: Returns the frame count, T_row and L_min of a channel. -/
  | opChStatus (h : Hdr) (p : Bytes)
  /-- R273: Creates an input flow and sends its multicast joins. -/
  | opInCreate (h : Hdr) (p : Bytes)
  /-- R273: Destroys an input flow and sends its leave reports. -/
  | opInDestroy (h : Hdr) (p : Bytes)
  /-- R280: Sets a meter's rates and bursts and refills all four of its buckets. -/
  | opInSetMeter (h : Hdr) (p : Bytes)
  /-- R515: Sets a layer's flags, matrix, bank, rectangles and fill after the ordered layer checks. -/
  | opLayerSet (h : Hdr) (p : Bytes)
  /-- R136: Binds a layer to a surface or an input flow. -/
  | opLayerBind (h : Hdr) (p : Bytes)
  /-- R150: Names a new base for a layer's bound surface. -/
  | opLayerFlip (h : Hdr) (p : Bytes)
  /-- R155: Marks a static layer written, which invalidates the overlay cache. -/
  | opLayerDirty (h : Hdr) (p : Bytes)
  /-- R142: Replaces a scaler coefficient bank, which applies at each channel's frame boundary. -/
  | opCmpSetCoef (h : Hdr) (p : Bytes)
  /-- R179: Checks a blit completely and, when it passes, replies ST_ACCEPTED and hands a blit task to the Spindle. -/
  | opBlit (h : Hdr) (p : Bytes)
  /-- R337: Configures a serial audio port's enable, role, frame, slot width, rate, rolls and group. -/
  | opAudSetPort (h : Hdr) (p : Bytes)
  /-- R343: Routes a port or ST 2110-30 flow to a program slot. -/
  | opAudRoute (h : Hdr) (p : Bytes)
  /-- R343: Removes the route of a program slot. -/
  | opAudUnroute (h : Hdr) (p : Bytes)
  /-- R294: Creates a program's output flows and shapers on the named networks. -/
  | opOutCreate (h : Hdr) (p : Bytes)
  /-- R294: Destroys a program's output flows. -/
  | opOutDestroy (h : Hdr) (p : Bytes)
  /-- R308: Sets a shaper's rate, burst, overhead and reset mode against R_min. -/
  | opOutSetShaper (h : Hdr) (p : Bytes)
  /-- R311: Sets or enables a transmit window of a MAC. -/
  | opOutSetWindow (h : Hdr) (p : Bytes)
  /-- R316: Sets the PTP domain, profile, transparent-clock flags and announce timeout. -/
  | opTimeSetPtp (h : Hdr) (p : Bytes)
  /-- R320: Sets the board ingress, egress and asymmetry compensation of a MAC. -/
  | opTimeSetPort (h : Hdr) (p : Bytes)
  /-- R328: Enables PPS_OUT and the frame-sync outputs and names the channel each output follows. -/
  | opTimeSetOutputs (h : Hdr) (p : Bytes)
  /-- R325: Returns the internal time, the source, the servo state and the offset from the grandmaster. -/
  | opTimeStatus (h : Hdr) (p : Bytes)
  /-- R367: Enables pairing; the device claims HEADSTOCK or joins, and the completion follows when the role leaves SOLO or the join fails. -/
  | opPairEnable (h : Hdr) (p : Bytes)
  /-- R367: Returns the device to SOLO after the flow switch. -/
  | opPairDisable (h : Hdr) (p : Bytes)
  /-- R388: At its point, HEADSTOCK becomes TAILSTOCK and releases the interlock line for the partner to claim. -/
  | opPairHandover (h : Hdr) (p : Bytes)
  /-- R367: Returns the pair role, link and line status, and the partner's pair protocol version. -/
  | opPairStatus (h : Hdr) (p : Bytes)
  /-- R196: Allocates a contiguous run of HOST pages in the shared region. -/
  | opMemAlloc (h : Hdr) (p : Bytes)
  /-- R196: Frees a HOST run through WIPING and completes when the wipe ends. -/
  | opMemFree (h : Hdr) (p : Bytes)
  /-- R404: Switches every DRAM channel to a trained set point, or is deferred while a training step runs. -/
  | opDramSetPoint (h : Hdr) (p : Bytes)
  /-- R403: Runs the training steps for a set point on the selected DRAM channels. -/
  | opDramTrain (h : Hdr) (p : Bytes)
  /-- R402: Returns the active set point, the training and refresh status, and the trained channels. -/
  | opDramStatus (h : Hdr) (p : Bytes)
  /-- R431: Sets a CVU's mode, polynomial, EXPECT and compare, taking effect at the close of its current window. -/
  | opCvuConfig (h : Hdr) (p : Bytes)
  /-- R468: Returns the hottest die temperature, VDD_CORE, device power and the alarm bits. -/
  | opDiagHealth (h : Hdr) (p : Bytes)
  /-- R466: Returns the lifecycle state, UPDATE_LOCK and ON_AIR_LOCK. -/
  | opLcStatus (h : Hdr) (p : Bytes)
  /-- R480: Returns the update state, the trial boot count, the active slot and the active image version. -/
  | opUpdateStatus (h : Hdr) (p : Bytes)
  /-- R484: Confirms the trial image, raises the minimum SVN and moves the device to DEV_READY. -/
  | opUpdateConfirm (h : Hdr) (p : Bytes)
  /-- R467: Opens or closes the on-air lock. -/
  | opOnAirLock (h : Hdr) (p : Bytes)
  /-- R160: Places an emergency selection in the emergency slot of each masked channel. -/
  | opEmOn (h : Hdr) (p : Bytes)
  /-- R160: Places the clearing of the emergency selection in the emergency slot of each masked channel. -/
  | opEmOff (h : Hdr) (p : Bytes)
  /-- R159: Sets an emergency variant's colours and alphas and sets its VALID bit. -/
  | opEmSetVariant (h : Hdr) (p : Bytes)
  /-- R15: A command carrying an unknown or reserved opcode is refused with ST_UNSUPPORTED under check 1 of R244. -/
  | reservedOpcodeCommand (opcode : Nat) (h : Hdr) (p : Bytes)
  /-- R232: A BAR4 write of a submission tail, which is accepted or discarded and makes the covered commands eligible for fetch. -/
  | submissionTailDoorbell (qid : Nat) (v : Nat)
  /-- R234: A BAR4 write of a completion or event head, which releases slots to the device. -/
  | completionHeadDoorbell (qid : Nat) (v : Nat)
  /-- R235: The HIF fetches a command's first slot and, when PLEN exceeds 32, waits for a parameter DMA channel. -/
  | commandFetch (q : Fin 66) (slot : Bytes)
  /-- R247: A slot fetch fails on PCIe; the queue halts with a TAG 0 entry. -/
  | fetchFailure (q : Fin 66)
  /-- R235: A parameter copy into the system region ends, and interpretation of the command begins, or the command is refused on a failed copy. `bad`: none where the read of host memory failed, else the store lines found uncorrectable, as (store address, kind). -/
  | paramDmaDone (d : Fin 8) (bad : Option (List (Nat × Nat)))
  /-- R234: Room appears in a full completion ring, and the parked queue resumes interpretation. -/
  | cqRoom (q : Fin 66)
  /-- R243: COAL_US expires after the first unsignalled entry, and the queue's MSI-X vector is sent. -/
  | coalesceTimeout (q : Fin 67)
  /-- R248: A barrier's timeout expires, and it replies ST_TIMEOUT. -/
  | barrierTimeout (q : Fin 66)
  /-- R248: Every covered command has its final reply, and the barrier replies ST_OK. -/
  | barrierSatisfied (q : Fin 66)
  /-- R230: The last command covered by a deletion gets its final reply, and OP_QUEUE_DELETE completes. -/
  | queueDeleteDone (q : Fin 67)
  /-- R236: Every earlier command of the queue has its final reply, and a held ORDER_WAIT command is interpreted. -/
  | orderWaitRelease (q : Fin 66)
  /-- R251: A command core spends 10 ms on one command or faults, and the management core restarts it. -/
  | commandCoreWatchdog (c : Fin 4) (q : Option (Fin 66))
  /-- R251: A command core restart ends, and its queues continue. -/
  | commandCoreRestartDone (c : Fin 4)
  /-- R256: TAILSTOCK's acknowledgement arrives, and HEADSTOCK posts the reply. -/
  | mirrorAck (seq : Nat) (status : Nat)
  /-- R256: 150 µs pass without acknowledgement, and the reply is posted with UNMIRRORED. -/
  | mirrorAckTimeout (seq : Nat)
  /-- R257: A write of AQCTL.ENABLE starts the admin queue, or stops fetching after the command in interpretation. -/
  | aqctlEnable (v : Bool)
  /-- R246: A write of AQCTL.RESUME resumes a halted admin queue, with FLUSH when written together. -/
  | aqctlResume (flush : Bool)
  /-- R257: A write of EQCTL.ENABLE starts or stops the emergency queue. -/
  | eqctlEnable (v : Bool)
  /-- R212: At a row's release tick, the Spindle runs the seven release steps for the channel's row slot. `t` is the time of the tick in ns. -/
  | rowRelease (n : Fin 64) (t : Nat)
  /-- R214: A class dispatches its highest-ranked READY task to an eligible target with a free slot. -/
  | taskDispatch (c : Fin 4)
  /-- R208: A unit completes a task, and the Spindle decrements its successors or waits for flow release. -/
  | taskComplete (d : Fin 16384) (r : TaskRes)
  /-- R224: A task is incomplete at its deadline; it is logged and counted. -/
  | taskDeadlineMiss (d : Fin 16384)
  /-- R78: The encode deadline passes; a running slice is stopped, an undispatched one is withdrawn, and the slice is substituted. -/
  | encodeDeadline (d : Fin 16384)
  /-- R77: A slice task fails, and the device decides at once to re-encode or to substitute. -/
  | sliceFailure (d : Fin 16384) (why : Fin 3) (addr : Nat) (kind : Nat)
  /-- R76: A slice unfinished 3,000 FCLK after its bound faults the engine with CAUSE 0x03. -/
  | sliceWatchdog (e : Fin 32)
  /-- R76: An engine detects an uncorrectable cache, parity or write error and enters ENG_FAULTED, then self-test. -/
  | engineFault (e : Fin 32) (cause : Nat)
  /-- R81: An engine self-test ends; the engine returns to ENG_IDLE or goes to ENG_OUT. -/
  | engineSelftestEnd (e : Fin 32) (stage : Nat)
  /-- R121: P pictures after the newest sweep began, a periodic sweep begins. -/
  | sweepPeriodicStart (n : Fin 64)
  /-- R125: The older of two running sweeps ends, and a held request begins a new sweep. -/
  | heldSweepBegin (n : Fin 64)
  /-- R129: P pictures of emergency cap pass, and BBITS returns to MAXRATE with the return phase. -/
  | emergencyPeriodEnd (n : Fin 64)
  /-- R516: The last picture of a draining channel is packed and released, and the channel enters CH_STOPPED. -/
  | lastPictureEnd (n : Fin 64)
  /-- R151: A pending bind or flip that has become ready applies at the next frame boundary. -/
  | layerChangeApply (n : Fin 64) (k : Fin 4)
  /-- R154: A flatten completes, and the new overlay cache takes effect at the next frame boundary. -/
  | flattenDone (n : Fin 64) (bad : List (Nat × Nat))
  /-- R154: After tiles are freed, an abandoned flatten is retried at the next frame boundary. -/
  | flattenRetry (n : Fin 64)
  /-- R173: A blitter burst ends; the unit starts its dead time, or posts the completion after the last burst. -/
  | blitBurstEnd (u : Fin 8) (err : Fin 3) (addr : Nat) (part : Nat)
  /-- R173: A blitter's dead time expires, and the unit becomes idle or starts its next burst. -/
  | blitDeadTimeEnd (u : Fin 8)
  /-- R181: A parity error ends a blit with detail 0x04 and starts the unit's self-test. -/
  | blitUnitFailure (u : Fin 8) (part : Nat)
  /-- R181: A blitter self-test ends, and the unit returns to service or stays out until reset. -/
  | blitSelftestEnd (u : Fin 8) (pass : Bool)
  /-- R195: The zero-fill of a returned page ends, and the page becomes FREE. -/
  | pageWipeDone (page : Fin 131072)
  /-- R200: The patrol scrub reads the next line after INTERVAL FCLK and writes back a corrected line. `data` and `check` are the bits of the line found wrong, of its data and of its codes and line check. -/
  | csScrubLine (data : List (Fin 512)) (check : List (Fin 96))
  /-- R202: A host BAR2 write request is performed or discarded line by line. -/
  | bar2Write (off : Nat) (data : Bytes)
  /-- R421: A host BAR2 read is served from the store or the DRAM window, or answered Unsupported Request. -/
  | bar2Read (off : Nat) (len : Nat) (errs : List (Nat × Nat))
  /-- R14: A BAR0 access that is not naturally aligned 32 or 64 bits is not performed and gets an error response. -/
  | bar0SizeError (off : Nat) (write : Bool)
  /-- R10: A BAR0 or internal write to a register field that has no row of its own, by its access type. `wide`: a 64-bit access. -/
  | registerWrite (master : Fin 15) (off : Nat) (wide : Bool) (value : Nat)
  /-- R10: A read of an RC field returns the value and clears it. -/
  | rcRead (master : Fin 15) (off : Nat) (wide : Bool)
  /-- R13: A read of a 64-bit register's low word latches the high word for the next read. -/
  | lowWordRead (master : Fin 15) (off : Nat)
  /-- R330: A read of the low word of NOWSEC or CAPSEC latches the time fields that go with it. -/
  | nowsecLowRead (cap : Bool)
  /-- R222: A descriptor of the general pool becomes free, and a stalled source continues. -/
  | poolStallEnd (q : Fin 66)
  /-- R223: A task descriptor is uncorrectable on read; the channel faults or the task is rebuilt. -/
  | descriptorError (d : Fin 16384)
  /-- R226: A write of TRACECTL.MODE changes the recording mode at once. -/
  | tracectlMode (v : Fin 4)
  /-- R108: A write of REF.DESCSEL selects a descriptor and reads its 64 bytes from DRAM. -/
  | refDescsel (idx : Fin 1024)
  /-- R272: A MAC receives a frame and sorts it: discarded, to the time base, to firmware, or metered and merged. `t` is the receive time at the MDI in 2^-16 ns; `w`, `ch`, `rate` are the format of an audio packet (log entry 16). -/
  | frameReceive (m : Fin 16) (t : Nat) (fr : Bytes) (w : Nat) (ch : Nat) (rate : Nat)
  /-- R282: A missing sequence is declared lost after MERGE_WIN, or when it leaves the window. -/
  | lossDeclare (f : Fin 384) (q : Nat)
  /-- R283: A path delivers nothing for two frame periods or 10 ms, and goes down for that flow. -/
  | flowPathDown (f : Fin 384) (net : Fin 2)
  /-- R286: At the row boundary of the flow's grid, a line group is latched and its missing pixels are concealed. -/
  | groupLatch (f : Fin 384)
  /-- R274: A MAC comes up, and joins are rebalanced onto it. Bit i of `inv`: lane i of the port shows its alignment markers only as inverted symbols. -/
  | macLinkUp (m : Fin 16) (inv : Fin 16)
  /-- R270: A MAC goes down, and its joins and output flows move. -/
  | macLinkDown (m : Fin 16) (fec : Bool)
  /-- R274: 50 ms after a join moves, the leave is sent on the old MAC. -/
  | joinLeave (f : Fin 384) (net : Fin 2)
  /-- R291: Each second, the per-MAC rate events for FEC, FCS and dropped control frames are evaluated. -/
  | fecRateSecond (p : Fin 4) (corrSym : List Nat) (corrCw : List Nat) (uncorr : List Nat)
  /-- R309: A frame is released from its shaper queue at its computed time, subject to windows. -/
  | frameLaunch (sh : Fin 256) (t : Nat) (bad : List (Nat × Nat))
  /-- R295: At its next unit base, a flow of a down MAC moves to another MAC. -/
  | flowMove (g : Fin 64) (net : Fin 2)
  /-- R308: At the unit base of the effective row, a shaper change applies and debt is forgiven. -/
  | shaperChangeApply (sh : Fin 256)
  /-- R323: An instance loses qualification when its master's Announce times out. -/
  | announceTimeout (net : Fin 2)
  /-- R321: An instance sends a Delay_Req at its random spacing. -/
  | delayReqSend (net : Fin 2) (t : Nat)
  /-- R328: FRAME_SYNC_OUT rises at each frame reference time of its channel. -/
  | frameSyncOutEdge (o : Fin 4)
  /-- R329: A PPS_IN rising edge latches internal time. -/
  | ppsInEdge (t : Nat) (frac : Fin 65536)
  /-- R334: A master port starts the frame of each media-clock count. `sl` and `sr` are what SD shows at the BCLK periods of its two slots. -/
  | sapFrameDrive (p : Fin 16) (sl sr : List Bool)
  /-- R336: A slave port receives a frame, validates it, assigns a count and drops or repeats on slip. -/
  | sapFrameReceive (p : Fin 16) (t : Nat) (bclks : Nat) (per : Nat) (sl sr : List Bool)
  /-- R337: A slave port sees no valid frame for 4 periods, enters MUTED and writes the mute ramp. -/
  | sapClockLoss (p : Fin 16)
  /-- R337: A port's PREROLL or POSTROLL frame count is reached, and the port changes state. -/
  | sapRollEnd (p : Fin 16)
  /-- R335: A write of AUD.MCLKCTL.OUT starts or stops AUD_MCLK_OUT. -/
  | audMclkctlOut (v : Bool)
  /-- R349: A lane's PLL locks, and the lane moves to LN_CDR. -/
  | lanePllLock (l : Fin 32)
  /-- R349: No PLL lock within 500 µs moves the lane to LN_FAULT. -/
  | lanePllTimeout (l : Fin 32)
  /-- R349: Signal detect and CDR lock move a lane to LN_ADAPT. `inv`: a PCIe receiver finds its pair inverted. -/
  | laneCdrLock (l : Fin 32) (inv : Bool)
  /-- R353: The CTLE search ends, and the lane goes to LN_UP, LN_DEGRADED or back to LN_CDR. `foms` are the FOMs by CTLE step; `dfe` and `vga` the receiver settings reached. -/
  | laneAdaptEnd (l : Fin 32) (ws : List (Nat × Nat)) (dfe : Fin 256) (vga : Fin 256)
  /-- R350: A FOM window ends, and the counted thresholds may move the lane's state. -/
  | fomWindow (l : Fin 32) (w : Nat × Nat) (dfe : Fin 256)
  /-- R349: Loss of signal or CDR unlock returns a lane to LN_CDR. `unlock`: the CDR unlocks, else the signal is lost. -/
  | laneSignalLoss (l : Fin 32) (unlock : Bool)
  /-- R349: 10 ms after a lane fault, the lane retries at LN_PLL for the first three faults. -/
  | laneFaultRetry (l : Fin 32)
  /-- R354: Each INTERVAL_MS, a lane tries a CTLE step and keeps or reverts it. `foms` are the windows of the trial, the deciding one last. -/
  | laneBackgroundTrial (l : Fin 32) (ws : List (Nat × Nat))
  /-- R349: A write of LCTL.RESTART restarts the lane at LN_PLL. -/
  | lctlRestart (l : Fin 32)
  /-- R359: A Tyhorn superblock is received, checked, unstuffed and counted toward lock and alignment. `ui` is the arrival of its first bit, in UI of the receiver; `sb` the 274 bytes on the wire. -/
  | superblockReceive (l : Fin 32) (ui : Nat) (sb : Bytes)
  /-- R360: A write of EYECTL.START begins an eye scan. -/
  | eyectlStart (l : Fin 32)
  /-- R360: An eye scan ends, DONE is set and EYERES holds the count. -/
  | eyeScanEnd (l : Fin 32) (count : Nat)
  /-- R361: A write of INJCTL.FIRE inverts BITS transmitted bits once. -/
  | injctlFire (l : Fin 32)
  /-- R361: In periodic mode, the inversion repeats every INJPERIOD UI. -/
  | injectionPeriod (l : Fin 32)
  /-- R368: The 10 µs claim guard ends, and the claim is won or lost by the interlock. -/
  | claimGuardEnd (lock : Bool)
  /-- R370: A heartbeat record arrives, with the partner's role, flags and versions. -/
  | heartbeatReceive (body : Bytes) (lock : Bool)
  /-- R370: A heartbeat path shows nothing for HB_TIMEOUT_US. -/
  | heartbeatPathSilent (line : Bool)
  /-- R373: A Tyhorn link frame is accepted or discarded by CRC and SEQ, and its acknowledgements are taken. -/
  | linkFrameReceive (fr : Bytes) (reset : Option (Fin 3 × Fin 65536))
  /-- R373: 4 µs without acknowledgement starts a go-back-N retransmission. -/
  | linkRetransmit (c : Fin 3)
  /-- R373: A frame is unacknowledged 150 µs after it was first sent, and its channel is reset. -/
  | linkGiveup (c : Fin 3)
  /-- R375: TAILSTOCK applies a mirrored command and acknowledges it with its own status. -/
  | mirrorReceive (seq : Nat) (op : Nat) (h : Hdr) (p : Bytes) (status : Nat) (detail : Nat) (r0 : Nat) (r1 : Nat)
  /-- R378: A partner's CHECK record arrives and is compared with the device's own unit. -/
  | checkRecordReceive (body : Bytes)
  /-- R380: A repair request arrives, and the device answers REPAIR_ANS or REPAIR_ABSENT from its ring. -/
  | repairReq (f : Fin 384) (ext : Nat)
  /-- R381: A repair answer arrives and is written as received, or discarded as late. -/
  | repairAns (f : Fin 384) (ext : Nat) (hdr : Bytes) (pl : Bytes) (w : Nat) (ch : Nat) (rate : Nat)
  /-- R380: A repair-absent answer arrives, and the sequence stays lost. -/
  | repairAbsent (f : Fin 384) (ext : Nat)
  /-- R382: TAILSTOCK receives eight sample periods of HEADSTOCK's port audio. -/
  | audioRecordReceive (port : Fin 16) (first : Nat) (samples : List Int)
  /-- R384: A RESYNC device receives HEADSTOCK's rate-control record for a row slot. -/
  | rcrecReceive (ch : Fin 64) (frame : Nat) (row : Nat) (cap : Nat) (qp : Nat) (floor : List Bool) (units : List Nat) (conv : Bool) (rc : Option RcSt)
  /-- R384: 20 µs pass without the record, and the device codes the row with its own step. -/
  | rcrecWaitExpiry (n : Fin 64)
  /-- R383: HEADSTOCK receives a resync request and starts a convergence sweep or sends the image. -/
  | resyncReq (full : Bool) (mask : Nat)
  /-- R387: The joining device receives image segments, then destroys its contexts and applies the image and held mirrors. -/
  | imageReceive (img : Image)
  /-- R398: Each MR4_INT, every rank's MR4 is read and the refresh rate is set. -/
  | mr4Poll (readings : List (Nat × Nat))
  /-- R394: A controller performs a line read or write with its code update and check. -/
  | dramAccess (line : Nat) (write : Option Bytes) (act : Bool) (res : Fin 4)
  /-- R394: A code cache entry is written back, no later than 1 µs after its last update. -/
  | codeCacheWriteback (c : Fin 24) (slot : Nat)
  /-- R396: The per-channel scrub reads the next line and writes back a corrected one. -/
  | dramScrubLine (c : Fin 24) (res : Fin 4)
  /-- R402: A training step ends on every selected channel; the next step runs, or training completes. -/
  | trainingStepEnd (pass : Nat)
  /-- R415: A locked sequence still open 64 FCLK after its first grant is broken. -/
  | lockSequenceBreak (master : Fin 15) (addr : Nat) (write : Bool)
  /-- R416: A block gives no response within 1,024 PCLK, and the access gets BRIDGE_TIMEOUT. -/
  | bridgeTimeout (master : Fin 15) (addr : Nat) (write : Bool)
  /-- R412: A write of MTX.REMAP.ZERO switches the zero window to the working SRAM. -/
  | remapZeroWrite (v : Bool)
  /-- R418: A W1C write of ERRSTAT.VALID allows the next error to be recorded. `err` is an error in the cycle of the write: master, address, kind, write. -/
  | errstatValidClear (err : Option (Fin 15 × Nat × Fin 6 × Bool))
  /-- R421: A write of DRAMWIN.BASE moves the BAR2 DRAM window for later requests. -/
  | dramwinBaseWrite (v : Nat)
  /-- R424: A write of LINKCTL.RETRAIN retrains the PCIe link. -/
  | linkctlRetrain (speed : Nat) (width : Nat)
  /-- R430: A CVU window closes; the result is written and compared, and pending settings apply. `us` are the units that close in one cycle, each with the sum of the items the model does not carry (log entry 28). -/
  | cvuWindowClose (us : List (Nat × Nat))
  /-- R430: A W1C write clears a unit's MISMATCH or a GRPSUM bit. `grp` is the value written to GRPSUM, or none for a write of the selected unit's MISMATCH; `us` the windows that close in the cycle of the write, as for CVU_WINDOW_CLOSE. -/
  | cvuMismatchClear (grp : Option Nat) (us : List (Nat × Nat))
  /-- R444: A W1C write clears event status bits, and a set in the same cycle wins. `hw` are the sources that occur in the cycle of the write, as (source, channel, DETAIL, AUX). -/
  | evtStatClear (w : Fin 22) (bits : Nat) (hw : List (Nat × Nat × Nat × Nat))
  /-- R445: A write of OCCCLR clears the selected occurrence counter. `occ`: the selected source occurs in the cycle of the write, with this channel, DETAIL and AUX. -/
  | occclr (occ : Option (Nat × Nat × Nat))
  /-- R459: VDD_AO becomes valid after OFF, and a cold reset starts. `nv` is what was programmed into fuses and stores from outside while unpowered. -/
  | powerOn (nv : Option NonVol)
  /-- R462: The cold reset sequence: fuses, boot ROM, supplies, PLLs, wipes, image load, DRAM and release of the cores. -/
  | coldReset (b : BootInfo)
  /-- R462: The warm reset sequence, keeping DRAM and the RWS fields. -/
  | warmReset (b : BootInfo)
  /-- R459: A keyed write of RSTCTL.WARM requests a warm reset. -/
  | rstctlWarm (key : Nat)
  /-- R459: A keyed write of RSTCTL.COLD requests a cold reset. -/
  | rstctlCold (key : Nat)
  /-- R456: A falling edge on the armed wake GPIO wakes the device from AO_ONLY. -/
  | wakePin (pin : Fin 32)
  /-- R457: A unit's clock gate closes after 10 µs without work. -/
  | clockGateClose (u : Fin 256)
  /-- R468: Temperature and supply sensors are sampled and the alarms are set or cleared. `temps` are sensors 0 to 9 in 0.1 °C, each 1 ms; `mv` supplies 0 to 7, each 10 µs; `mw` the device power. -/
  | monitorSample (temps : Option (List Int)) (mv : List Nat) (mw : Nat)
  /-- R469: Every die sensor falls below 95 °C, and a cold reset with TRIP follows. -/
  | tripRecovery (temps : List Int)
  /-- R468: A W1C write clears latched alarm bits. `hw` are the present alarms that were set in the cycle of the write. -/
  | alarmlatClear (bits : Nat) (hw : Nat)
  /-- R461: The management core runs again after a restart of the core alone. -/
  | mgtCoreRestartDone (pass : Bool)
  /-- R508: A SerDes reference clock stops, and its lanes enter LN_OFF until it returns. -/
  | serdesRefclkLoss (pair : Fin 4)
  /-- R478: Service-port message returning the update status and staged version. -/
  | info (snd : Nat) (seq : Nat)
  /-- R482: Service-port message opening the staging of a container, after the refusal checks and the pair wait. `kind` is the KIND of the container to come. -/
  | begin (snd : Nat) (seq : Nat) (length : Nat) (version : Nat) (kind : Fin 3)
  /-- R479: Service-port message programming one 1,024-byte block of the staging slot. -/
  | block (snd : Nat) (seq : Nat) (index : Nat) (crc : Nat) (data : Bytes)
  /-- R480: Service-port message starting verification of the staged container. -/
  | verify (snd : Nat) (seq : Nat)
  /-- R474: Verification of the staged container ends, and the state becomes VERIFIED or FAILED. Bits of `ok`: SIG_N verifies, SIG_O verifies, every digest matches, a request names this device. -/
  | verifyEnd (ok : Fin 16)
  /-- R483: Service-port message committing a verified image, lifecycle request or lock request. `req` is what the request section asks: the target lifecycle state, or 1 to set UPDATE_LOCK; `signed`: signed as R466 asks. -/
  | activate (snd : Nat) (seq : Nat) (req : Nat) (signed : Bool)
  /-- R484: Service-port message confirming the trial image, as OP_UPDATE_CONFIRM. -/
  | confirm (snd : Nat) (seq : Nat)
  /-- R478: Service-port message discarding the staging slot, or rejecting the trial image in DEV_TRIAL. -/
  | abort (snd : Nat) (seq : Nat)
  /-- R478: Service-port message requesting a warm or cold reset. -/
  | reset (snd : Nat) (seq : Nat) (kind : Nat)
  /-- R456: Service-port message waking the device from AO_ONLY. -/
  | wake (snd : Nat) (seq : Nat)
  /-- R488: Service-port message writing one settings item for the next reset. -/
  | set (snd : Nat) (seq : Nat) (item : Nat) (mask : Nat) (value : Nat)
  /-- R479: A background erase of a staging sector ends. -/
  | stagingEraseDone (off : Nat) (len : Nat)
  /-- R493: A write of TST.LOCK opens the test lock under its conditions, or closes it. -/
  | tstLockWrite (key : Nat) (opn : Bool)
  /-- R496: A write of HBSUPP starts or ends heartbeat suppression on the selected paths. -/
  | hbsuppWrite (link : Bool) (line : Bool) (ms : Nat)
  /-- R496: Each PERIOD FCLK, the selected port refuses requests for ON FCLK. `late`: the guaranteed requests of the port that the stall makes late (R189). -/
  | backpressurePeriod (late : Nat)
  /-- R508: A stopped SerDes reference clock returns, and its quads' lanes restart at LN_PLL. -/
  | serdesRefclkReturn (pair : Fin 4)
  /-- R492: The RGMII service link goes up or down, SVCSTAT.LINK changes and EV_MGT_SVC_LINK is raised. -/
  | serviceLinkChange (up : Bool)
  /-- R495: The debug access port issues a matrix request, which is granted or given a DEFAULT error response by the test lock and lifecycle. `data` is none for a read of `len` bytes. -/
  | debugAccessRequest (addr : Nat) (len : Nat) (data : Option Bytes)
  /-- R496: US µs after its normal time, a reply or completion held by CPLDELAY is posted and its commit handed on. -/
  | replyDelayExpiry (q : Fin 66)
  /-- R479: Programming of a staged 1,024-byte block ends, its ST_OK reply is sent, and RECEIVED is entered once every block is written. -/
  | flashBlockProgrammed (index : Nat)
  /-- R478: A service-port datagram with a reserved TYPE is answered ST_UNSUPPORTED, detail 0x0001. -/
  | reservedServiceMessage (snd : Nat) (seq : Nat) (typ : Nat)
  /-- R252: Room appears in the EQ completion ring, and a held EQ fetch proceeds. -/
  | eqCqRoom
  /-- R210: Each whole microsecond of internal time advances the tick, which never decreases. -/
  | spindleTick
  /-- R201: The whole-store wipe ends, READY is set and EV_CST_WIPE_DONE is raised. -/
  | csWipeDone
  /-- R221: A protected window opens before a row deadline of an incomplete DRAM task. -/
  | protectedWindowOpen
  /-- R221: A protected window closes at its tail or at PROT_MAX. -/
  | protectedWindowClose
  /-- R226: A write of 1 to TRACECTL.CLEAR empties the log and zeroes TRACESTAT. -/
  | tracectlClear
  /-- R325: HOLDTIME reaches HOLD_MAX_S, and EV_TIM_HOLDOVER is raised again. -/
  | holdoverLimit
  /-- R328: PPS_OUT rises at each whole second while the servo is locked or in holdover. -/
  | ppsOutEdge
  /-- R371: The partner's interlock line is released; a TAILSTOCK or imaged RESYNC device claims. -/
  | partnerLockReleased
  /-- R369: A HEADSTOCK reads the partner's line low for 1 µs; slot 1 gives up the role. -/
  | claimConflict
  /-- R370: Every HB_PERIOD_US, the heartbeat record is sent and PAIR_HB_OUT toggles. -/
  | heartbeatSend
  /-- R369: The AO watchdog finds the Tyhorn heartbeat generator idle, and HEADSTOCK releases its line. -/
  | hbGeneratorWatchdog
  /-- R373: Every 2 µs with frames unacknowledged, a link-control frame is sent. -/
  | linkControlSend
  /-- R379: A unit's check deadline passes; TAILSTOCK launches it or mutes into RESYNC. -/
  | checkDeadline
  /-- R367: JOIN_TIMEOUT_MS expires in SOLO, and OP_PAIR_ENABLE completes with ST_TIMEOUT. -/
  | joinTimeout
  /-- R388: The partner has not claimed 1 ms after a handover, and the device claims back. -/
  | handoverClaimTimeout
  /-- R368: 1 ms after a lost claim, the device may claim again. -/
  | claimBackoffEnd
  /-- R397: An all-bank refresh falls due, and it is issued or postponed inside a protected window. -/
  | refreshDue
  /-- R401: Every 32 ms, the row-neighbour guard tables are cleared. -/
  | guardTableClear
  /-- R404: A set-point switch ends, and held requests proceed. -/
  | setPointSwitchEnd
  /-- R448: Room appears in the event ring, and backlog records and an overflow record are written. -/
  | eventBacklogDrain
  /-- R449: FCLK runs again, and the held AO records are written first. -/
  | aoRecordFlush
  /-- R459: SYS_RESET_N held low for 1 µs or more causes a cold reset. -/
  | sysResetN
  /-- R453: The board raises PWR_MAIN_GOOD, and the PLLs start. -/
  | pwrMainGoodRise
  /-- R453: PWR_MAIN_GOOD is not high 50 ms after PWR_MAIN_EN, and the device releases PWR_MAIN_EN. -/
  | pwrMainGoodTimeout
  /-- R453: 1 s after a main power failure, PWR_MAIN_EN is asserted again. -/
  | mainPowerRetry
  /-- R453: PWR_MAIN_GOOD falls while the main rails are on, which is a cold reset. -/
  | pwrMainGoodFall
  /-- R458: Boot ends, and the device enters DEV_READY or DEV_TRIAL. -/
  | bootEnd
  /-- R455: A write of PWRCTL.AOREQ enters AO_ONLY when no channel runs. -/
  | pwrctlAoreq
  /-- R459: PERST_N assertion takes the link down and deletes the queues without stopping channels. -/
  | perstNAssert
  /-- R456: A rising edge of PERST_N wakes the device from AO_ONLY. -/
  | perstNRise
  /-- R461: The management-core watchdog expires; the core restarts alone, or a warm reset follows. -/
  | mgtWatchdogExpiry
  /-- R507: REFCLK_25 is absent for 2 µs, and the device holds itself as if unpowered. -/
  | refclkLoss
  /-- R507: One millisecond after REFCLK_25 returns, a cold reset is performed. -/
  | refclkReturn
  /-- R496: A write of REFCTL.APPLY adds REFSKEW to unreported refresh due times. -/
  | refctlApply
  /-- R496: A write of TIMECTL.FIRE steps internal time by TIMESTEP.NS even while channels run. -/
  | timectlFire
  /-- R496: A write of CHKINJ.FIRE arms corruption of the next COUNT items of the target. -/
  | chkinjFire
  /-- R496: The MS duration of heartbeat suppression expires. -/
  | hbsuppExpiry
  /-- R455: VDD_AO falls below 0.72 V or is removed, and the device goes to OFF from any state. -/
  | vddAoLoss
  /-- R370: An edge arrives on PAIR_HB_IN, keeping the line heartbeat path alive or reporting its return after silence. -/
  | pairHbInEdge
  /-- R438: The Central Store wipe has not ended 1 ms after it began, and the device enters DEV_SAFE with cause 2. -/
  | csWipeTimeout
  /-- R258: The PCIe link logs a correctable error, AERCNT counts it and EV_HIF_AER is raised. -/
  | pcieCorrectableError
  /-- R482: 2 × HB_PERIOD_US after BEGIN is accepted, the device reads the partner's update flag and proceeds, or withdraws if it holds slot 1. -/
  | beginPairWaitEnd
  /-- R368: 50 µs after a slot-0 device asserted a contested claim without the partner releasing, it releases its line and the claim is lost. -/
  | claimWaitTimeout
  /-- R484: Both copies of the confirmation slot record are written, the completion is posted and the device enters DEV_READY. -/
  | confirmationWriteDone
deriving DecidableEq, Repr

end Sys2Proof
end

