-- ==== Sys2Proof/Decode.lean ====
section
/-! DEFINITION. The command a table word spells. No row of the opcode table gives a command any bits: the commands of
this block are events, register accesses and host commands whose layout lies in memory, not in an instruction word. -/

namespace Sys2Proof

/-- No word spells a command: every row's list of bit fields is empty. -/
def decodeTableWord (_nbits _w : Nat) : Option Instr := none

end Sys2Proof
end

