-- ==== Sys2Proof/Config.lean ====
section
/-! DEFINITION. What one implementation fixes, and the values the spec leaves open. A constant without a body is a
free value: nothing in Lean can evaluate it. -/

namespace Sys2Proof

/-- A free value for each place where the spec leaves a value open; the state's counter `fresh` is its argument, so
each use is a new one (log entry 2). -/
opaque Config.freeValue : Nat → Nat

/-- Servo gains KP and KI of R324, which the spec does not give (log entry 2). -/
opaque Config.servoKp : Int → Int
opaque Config.servoKi : Int → Int

/-- Calibrated ingress and egress latency of a MAC's PCS in ps (R320), fixed in production (log entry 2). -/
opaque Config.pcsIngress : Nat → Int
opaque Config.pcsEgress : Nat → Int

/-- The taps of the coefficient banks of a firmware image, by the image's OCN, bank, direction, phase and tap (R142); the image defines
them (log entry 2). -/
opaque Config.bootTap : Nat → Nat → Nat → Nat → Nat → Int

/-- The place of a task's parameter record among the lines of the system region, by kind and descriptor (R207; log entry 99). -/
opaque Config.paramRec : Nat → Nat → BitVec 16

/-- The contents of the boot ROM by offset, which the spec does not give (R411; log entry 2). -/
opaque Config.bootRom : Nat → BitVec 8

/-- Clock and address constants. -/
def Config.fclkHz : Nat := 1500000000
def Config.csBase : Nat := 0x40000000
def Config.dramBase : Nat := 0x100000000
def Config.regBase : Nat := 0x20000000

end Sys2Proof
end

