-- ==== Sys2Proof/Machine/Regs.lean ====
section
/-! DEFINITION. The register table: one row for every named field of the spec's register tables (the rule that
holds the table stands above each block's rows). A row says where the field lies, how wide it is, its access type
(R10) and its reset value. Fuse, settings and strap fields read zero until a boot has loaded them (R9). -/

namespace Sys2Proof.Machine


/-! Block CHC: R58, R132. -/

/-- `CHSTATE.STATE` (R58). -/
def Reg.CHC_CHSTATE_STATE : Row := ⟨0, 0x600000, 0x400, 64, 0x0, 0x0, 1, 0, 3, .ro, 0, 0⟩
/-- `CHSTATE.FAULT` (R58). -/
def Reg.CHC_CHSTATE_FAULT : Row := ⟨1, 0x600000, 0x400, 64, 0x0, 0x0, 1, 8, 8, .ro, 0, 0⟩
/-- `LATENCY.L_US` (R58). -/
def Reg.CHC_LATENCY_L_US : Row := ⟨2, 0x600000, 0x400, 64, 0x4, 0x0, 1, 0, 17, .ro, 4000, 0⟩
/-- `LMIN.LMIN_NS` (R58). -/
def Reg.CHC_LMIN_LMIN_NS : Row := ⟨3, 0x600000, 0x400, 64, 0x8, 0x0, 1, 0, 32, .ro, 0, 0⟩
/-- `TROW.TROW_NS` (R58). -/
def Reg.CHC_TROW_TROW_NS : Row := ⟨4, 0x600000, 0x400, 64, 0xc, 0x0, 1, 0, 32, .ro, 0, 0⟩
/-- `SLOTMASK.ENGINES` (R58). -/
def Reg.CHC_SLOTMASK_ENGINES : Row := ⟨5, 0x600000, 0x400, 64, 0x10, 0x0, 1, 0, 32, .ro, 0, 0⟩
/-- `SLOTMASK_ACT.ENGINES` (R58). -/
def Reg.CHC_SLOTMASK_ACT_ENGINES : Row := ⟨6, 0x600000, 0x400, 64, 0x14, 0x0, 1, 0, 32, .ro, 0, 0⟩
/-- `FRAMECNT.COUNT` (R58). -/
def Reg.CHC_FRAMECNT_COUNT : Row := ⟨7, 0x600000, 0x400, 64, 0x18, 0x0, 1, 0, 64, .ro, 0, 0⟩
/-- `CPBSIZE.BYTES` (R58). -/
def Reg.CHC_CPBSIZE_BYTES : Row := ⟨8, 0x600000, 0x400, 64, 0x20, 0x0, 1, 0, 32, .ro, 0, 0⟩
/-- `PIXCHG.KPIX` (R58). -/
def Reg.CHC_PIXCHG_KPIX : Row := ⟨9, 0x600000, 0x400, 64, 0x24, 0x0, 1, 0, 32, .ro, 0, 0⟩
/-- `PHASE.OFFSET_NS` (R58). -/
def Reg.CHC_PHASE_OFFSET_NS : Row := ⟨10, 0x600000, 0x400, 64, 0x28, 0x0, 1, 0, 32, .ro, 0, 0⟩
/-- `RCCAP.MAXRATE` (R132). -/
def Reg.CHC_RCCAP_MAXRATE : Row := ⟨11, 0x600000, 0x400, 64, 0x30, 0x0, 1, 0, 32, .ro, 50000, 0⟩
/-- `RCEMCAP.EMCAP` (R132). -/
def Reg.CHC_RCEMCAP_EMCAP : Row := ⟨12, 0x600000, 0x400, 64, 0x34, 0x0, 1, 0, 32, .ro, 0, 0⟩
/-- `RCQP.TARGET_QP` (R132). -/
def Reg.CHC_RCQP_TARGET_QP : Row := ⟨13, 0x600000, 0x400, 64, 0x38, 0x0, 1, 0, 6, .ro, 32, 0⟩
/-- `RCQP.QP_MIN` (R132). -/
def Reg.CHC_RCQP_QP_MIN : Row := ⟨14, 0x600000, 0x400, 64, 0x38, 0x0, 1, 8, 6, .ro, 10, 0⟩
/-- `RCQP.QP_MAX` (R132). -/
def Reg.CHC_RCQP_QP_MAX : Row := ⟨15, 0x600000, 0x400, 64, 0x38, 0x0, 1, 16, 6, .ro, 45, 0⟩
/-- `RCQP.CTU_DQP_MAX` (R132). -/
def Reg.CHC_RCQP_CTU_DQP_MAX : Row := ⟨16, 0x600000, 0x400, 64, 0x38, 0x0, 1, 24, 4, .ro, 6, 0⟩
/-- `RCTUNE.ROW_SLACK` (R132). -/
def Reg.CHC_RCTUNE_ROW_SLACK : Row := ⟨17, 0x600000, 0x400, 64, 0x3c, 0x0, 1, 0, 6, .ro, 8, 0⟩
/-- `RCTUNE.REFRESH_QP_OFS` (R132). -/
def Reg.CHC_RCTUNE_REFRESH_QP_OFS : Row := ⟨18, 0x600000, 0x400, 64, 0x3c, 0x0, 1, 8, 4, .ro, 0, 0⟩
/-- `REFRESH.MODE` (R132). -/
def Reg.CHC_REFRESH_MODE : Row := ⟨19, 0x600000, 0x400, 64, 0x40, 0x0, 1, 0, 2, .ro, 0, 0⟩
/-- `REFRESH.PERIOD` (R132). -/
def Reg.CHC_REFRESH_PERIOD : Row := ⟨20, 0x600000, 0x400, 64, 0x40, 0x0, 1, 16, 13, .ro, 60, 0⟩
/-- `RCMIN.KBPS` (R132). -/
def Reg.CHC_RCMIN_KBPS : Row := ⟨21, 0x600000, 0x400, 64, 0x44, 0x0, 1, 0, 32, .ro, 0, 0⟩
/-- `RCFULL.BITS` (R132). -/
def Reg.CHC_RCFULL_BITS : Row := ⟨22, 0x600000, 0x400, 64, 0x48, 0x0, 1, 0, 32, .ro, 0, 0⟩
/-- `RCCUR.CAP` (R132). -/
def Reg.CHC_RCCUR_CAP : Row := ⟨23, 0x600000, 0x400, 64, 0x4c, 0x0, 1, 0, 30, .ro, 0, 0⟩
/-- `RCCUR.PHASE` (R132). -/
def Reg.CHC_RCCUR_PHASE : Row := ⟨24, 0x600000, 0x400, 64, 0x4c, 0x0, 1, 30, 2, .ro, 0, 0⟩
/-- `RCLAST.QP` (R132). -/
def Reg.CHC_RCLAST_QP : Row := ⟨25, 0x600000, 0x400, 64, 0x50, 0x0, 1, 0, 6, .ro, 0, 0⟩
/-- `RCLAST.CAP` (R132). -/
def Reg.CHC_RCLAST_CAP : Row := ⟨26, 0x600000, 0x400, 64, 0x54, 0x0, 1, 0, 32, .ro, 0, 0⟩
/-- `FLOORCNT.PICS` (R132). -/
def Reg.CHC_FLOORCNT_PICS : Row := ⟨27, 0x600000, 0x400, 64, 0x58, 0x0, 1, 0, 32, .ro, 0, 0⟩
/-- `FLOORCNT.CTUS` (R132). -/
def Reg.CHC_FLOORCNT_CTUS : Row := ⟨28, 0x600000, 0x400, 64, 0x5c, 0x0, 1, 0, 32, .ro, 0, 0⟩
/-- `SWEEP.RUNNING` (R132). -/
def Reg.CHC_SWEEP_RUNNING : Row := ⟨29, 0x600000, 0x400, 64, 0x60, 0x0, 1, 0, 2, .ro, 0, 0⟩
/-- `SWEEP.HELD` (R132). -/
def Reg.CHC_SWEEP_HELD : Row := ⟨30, 0x600000, 0x400, 64, 0x60, 0x0, 1, 2, 1, .ro, 0, 0⟩
/-- `SWEEP.CARRIED` (R132). -/
def Reg.CHC_SWEEP_CARRIED : Row := ⟨31, 0x600000, 0x400, 64, 0x60, 0x0, 1, 8, 8, .ro, 0, 0⟩
/-- `SWEEP.COMPLETED` (R132). -/
def Reg.CHC_SWEEP_COMPLETED : Row := ⟨32, 0x600000, 0x400, 64, 0x60, 0x0, 1, 16, 16, .ro, 0, 0⟩
/-- `SWEEPSTART.FRAME` (R132). -/
def Reg.CHC_SWEEPSTART_FRAME : Row := ⟨33, 0x600000, 0x400, 64, 0x68, 0x0, 1, 0, 64, .ro, 0, 0⟩
/-- `RCCAP.MAXRATE (active copy)` (R132). -/
def Reg.CHC_RCCAP_MAXRATE_ACT : Row := ⟨34, 0x600000, 0x400, 64, 0x230, 0x0, 1, 0, 32, .ro, 50000, 0⟩
/-- `RCEMCAP.EMCAP (active copy)` (R132). -/
def Reg.CHC_RCEMCAP_EMCAP_ACT : Row := ⟨35, 0x600000, 0x400, 64, 0x234, 0x0, 1, 0, 32, .ro, 0, 0⟩
/-- `RCQP.TARGET_QP (active copy)` (R132). -/
def Reg.CHC_RCQP_TARGET_QP_ACT : Row := ⟨36, 0x600000, 0x400, 64, 0x238, 0x0, 1, 0, 6, .ro, 32, 0⟩
/-- `RCQP.QP_MIN (active copy)` (R132). -/
def Reg.CHC_RCQP_QP_MIN_ACT : Row := ⟨37, 0x600000, 0x400, 64, 0x238, 0x0, 1, 8, 6, .ro, 10, 0⟩
/-- `RCQP.QP_MAX (active copy)` (R132). -/
def Reg.CHC_RCQP_QP_MAX_ACT : Row := ⟨38, 0x600000, 0x400, 64, 0x238, 0x0, 1, 16, 6, .ro, 45, 0⟩
/-- `RCQP.CTU_DQP_MAX (active copy)` (R132). -/
def Reg.CHC_RCQP_CTU_DQP_MAX_ACT : Row := ⟨39, 0x600000, 0x400, 64, 0x238, 0x0, 1, 24, 4, .ro, 6, 0⟩
/-- `RCTUNE.ROW_SLACK (active copy)` (R132). -/
def Reg.CHC_RCTUNE_ROW_SLACK_ACT : Row := ⟨40, 0x600000, 0x400, 64, 0x23c, 0x0, 1, 0, 6, .ro, 8, 0⟩
/-- `RCTUNE.REFRESH_QP_OFS (active copy)` (R132). -/
def Reg.CHC_RCTUNE_REFRESH_QP_OFS_ACT : Row := ⟨41, 0x600000, 0x400, 64, 0x23c, 0x0, 1, 8, 4, .ro, 0, 0⟩
/-- `REFRESH.MODE (active copy)` (R132). -/
def Reg.CHC_REFRESH_MODE_ACT : Row := ⟨42, 0x600000, 0x400, 64, 0x240, 0x0, 1, 0, 2, .ro, 0, 0⟩
/-- `REFRESH.PERIOD (active copy)` (R132). -/
def Reg.CHC_REFRESH_PERIOD_ACT : Row := ⟨43, 0x600000, 0x400, 64, 0x240, 0x0, 1, 16, 13, .ro, 60, 0⟩

/-- The rows of block CHC. -/
def Reg.rowsCHC : List Row :=
  [Reg.CHC_CHSTATE_STATE, Reg.CHC_CHSTATE_FAULT, Reg.CHC_LATENCY_L_US, Reg.CHC_LMIN_LMIN_NS, Reg.CHC_TROW_TROW_NS, Reg.CHC_SLOTMASK_ENGINES, Reg.CHC_SLOTMASK_ACT_ENGINES, Reg.CHC_FRAMECNT_COUNT, Reg.CHC_CPBSIZE_BYTES, Reg.CHC_PIXCHG_KPIX, Reg.CHC_PHASE_OFFSET_NS, Reg.CHC_RCCAP_MAXRATE, Reg.CHC_RCEMCAP_EMCAP, Reg.CHC_RCQP_TARGET_QP, Reg.CHC_RCQP_QP_MIN, Reg.CHC_RCQP_QP_MAX, Reg.CHC_RCQP_CTU_DQP_MAX, Reg.CHC_RCTUNE_ROW_SLACK, Reg.CHC_RCTUNE_REFRESH_QP_OFS, Reg.CHC_REFRESH_MODE, Reg.CHC_REFRESH_PERIOD, Reg.CHC_RCMIN_KBPS, Reg.CHC_RCFULL_BITS, Reg.CHC_RCCUR_CAP, Reg.CHC_RCCUR_PHASE] ++
  [Reg.CHC_RCLAST_QP, Reg.CHC_RCLAST_CAP, Reg.CHC_FLOORCNT_PICS, Reg.CHC_FLOORCNT_CTUS, Reg.CHC_SWEEP_RUNNING, Reg.CHC_SWEEP_HELD, Reg.CHC_SWEEP_CARRIED, Reg.CHC_SWEEP_COMPLETED, Reg.CHC_SWEEPSTART_FRAME, Reg.CHC_RCCAP_MAXRATE_ACT, Reg.CHC_RCEMCAP_EMCAP_ACT, Reg.CHC_RCQP_TARGET_QP_ACT, Reg.CHC_RCQP_QP_MIN_ACT, Reg.CHC_RCQP_QP_MAX_ACT, Reg.CHC_RCQP_CTU_DQP_MAX_ACT, Reg.CHC_RCTUNE_ROW_SLACK_ACT, Reg.CHC_RCTUNE_REFRESH_QP_OFS_ACT, Reg.CHC_REFRESH_MODE_ACT, Reg.CHC_REFRESH_PERIOD_ACT]

/-! Block ENC: R83, R107. -/

/-- `ENGSTAT.STATE` (R83). -/
def Reg.ENC_ENGSTAT_STATE : Row := ⟨44, 0x500000, 0x1000, 32, 0x0, 0x0, 1, 0, 3, .ro, 4, 0⟩
/-- `ENGSTAT.CAUSE` (R83). -/
def Reg.ENC_ENGSTAT_CAUSE : Row := ⟨45, 0x500000, 0x1000, 32, 0x0, 0x0, 1, 8, 8, .ro, 0, 0⟩
/-- `ENGSTAT.AUTO_RETURN` (R83). -/
def Reg.ENC_ENGSTAT_AUTO_RETURN : Row := ⟨46, 0x500000, 0x1000, 32, 0x0, 0x0, 1, 16, 1, .ro, 1, 0⟩
/-- `CURTASK.CHANNEL` (R83). -/
def Reg.ENC_CURTASK_CHANNEL : Row := ⟨47, 0x500000, 0x1000, 32, 0x4, 0x0, 1, 0, 8, .ro, 255, 0⟩
/-- `CURTASK.ROW` (R83). -/
def Reg.ENC_CURTASK_ROW : Row := ⟨48, 0x500000, 0x1000, 32, 0x4, 0x0, 1, 8, 8, .ro, 0, 0⟩
/-- `CURTASK.COLUMN` (R83). -/
def Reg.ENC_CURTASK_COLUMN : Row := ⟨49, 0x500000, 0x1000, 32, 0x4, 0x0, 1, 16, 2, .ro, 0, 0⟩
/-- `CURTASK.STANDIN` (R83). -/
def Reg.ENC_CURTASK_STANDIN : Row := ⟨50, 0x500000, 0x1000, 32, 0x4, 0x0, 1, 18, 1, .ro, 0, 0⟩
/-- `CURFRAME.FRAME` (R83). -/
def Reg.ENC_CURFRAME_FRAME : Row := ⟨51, 0x500000, 0x1000, 32, 0x8, 0x0, 1, 0, 64, .ro, 0, 0⟩
/-- `SLICECNT.COUNT` (R83). -/
def Reg.ENC_SLICECNT_COUNT : Row := ⟨52, 0x500000, 0x1000, 32, 0x10, 0x0, 1, 0, 32, .ro, 0, 0⟩
/-- `CTUCNT.COUNT` (R83). -/
def Reg.ENC_CTUCNT_COUNT : Row := ⟨53, 0x500000, 0x1000, 32, 0x14, 0x0, 1, 0, 32, .ro, 0, 0⟩
/-- `BUSYCYC.CYCLES` (R83). -/
def Reg.ENC_BUSYCYC_CYCLES : Row := ⟨54, 0x500000, 0x1000, 32, 0x18, 0x0, 1, 0, 64, .ro, 0, 0⟩
/-- `LASTSLICE.CYCLES` (R83). -/
def Reg.ENC_LASTSLICE_CYCLES : Row := ⟨55, 0x500000, 0x1000, 32, 0x20, 0x0, 1, 0, 32, .ro, 0, 0⟩
/-- `MAXCTU.CYCLES` (R83). -/
def Reg.ENC_MAXCTU_CYCLES : Row := ⟨56, 0x500000, 0x1000, 32, 0x24, 0x0, 1, 0, 16, .rc, 0, 0⟩
/-- `FAULTCNT.TOTAL` (R83). -/
def Reg.ENC_FAULTCNT_TOTAL : Row := ⟨57, 0x500000, 0x1000, 32, 0x28, 0x0, 1, 0, 16, .rws, 0, 0⟩
/-- `FAULTCNT.RECENT` (R83). -/
def Reg.ENC_FAULTCNT_RECENT : Row := ⟨58, 0x500000, 0x1000, 32, 0x28, 0x0, 1, 16, 8, .ro, 0, 0⟩
/-- `RECOVER.REENC` (R83). -/
def Reg.ENC_RECOVER_REENC : Row := ⟨59, 0x500000, 0x1000, 32, 0x2c, 0x0, 1, 0, 16, .ro, 0, 0⟩
/-- `RECOVER.SUBST` (R83). -/
def Reg.ENC_RECOVER_SUBST : Row := ⟨60, 0x500000, 0x1000, 32, 0x2c, 0x0, 1, 16, 16, .ro, 0, 0⟩
/-- `STANDIN.COUNT` (R83). -/
def Reg.ENC_STANDIN_COUNT : Row := ⟨61, 0x500000, 0x1000, 32, 0x30, 0x0, 1, 0, 32, .ro, 0, 0⟩
/-- `TESTRES.DONE` (R83). -/
def Reg.ENC_TESTRES_DONE : Row := ⟨62, 0x500000, 0x1000, 32, 0x34, 0x0, 1, 0, 1, .ro, 0, 0⟩
/-- `TESTRES.PASS` (R83). -/
def Reg.ENC_TESTRES_PASS : Row := ⟨63, 0x500000, 0x1000, 32, 0x34, 0x0, 1, 1, 1, .ro, 0, 0⟩
/-- `TESTRES.STAGE` (R83). -/
def Reg.ENC_TESTRES_STAGE : Row := ⟨64, 0x500000, 0x1000, 32, 0x34, 0x0, 1, 8, 8, .ro, 0, 0⟩
/-- `FAULTTASK.CHANNEL` (R83). -/
def Reg.ENC_FAULTTASK_CHANNEL : Row := ⟨65, 0x500000, 0x1000, 32, 0x38, 0x0, 1, 0, 8, .ro, 0, 0⟩
/-- `FAULTTASK.ROW` (R83). -/
def Reg.ENC_FAULTTASK_ROW : Row := ⟨66, 0x500000, 0x1000, 32, 0x38, 0x0, 1, 8, 8, .ro, 0, 0⟩
/-- `FAULTTASK.COLUMN` (R83). -/
def Reg.ENC_FAULTTASK_COLUMN : Row := ⟨67, 0x500000, 0x1000, 32, 0x38, 0x0, 1, 16, 2, .ro, 0, 0⟩
/-- `WINFILL.LINES` (R107). -/
def Reg.ENC_WINFILL_LINES : Row := ⟨68, 0x500000, 0x1000, 32, 0x40, 0x0, 1, 0, 32, .ro, 0, 0⟩
/-- `BANDWAIT.CYCLES` (R107). -/
def Reg.ENC_BANDWAIT_CYCLES : Row := ⟨69, 0x500000, 0x1000, 32, 0x44, 0x0, 1, 0, 32, .ro, 0, 0⟩
/-- `WINECC.CORR` (R107). -/
def Reg.ENC_WINECC_CORR : Row := ⟨70, 0x500000, 0x1000, 32, 0x48, 0x0, 1, 0, 16, .ro, 0, 0⟩
/-- `CLIPCNT.COUNT` (R107). -/
def Reg.ENC_CLIPCNT_COUNT : Row := ⟨71, 0x500000, 0x1000, 32, 0x4c, 0x0, 1, 0, 32, .ro, 0, 0⟩
/-- `MISSCTU.COUNT` (R107). -/
def Reg.ENC_MISSCTU_COUNT : Row := ⟨72, 0x500000, 0x1000, 32, 0x50, 0x0, 1, 0, 32, .ro, 0, 0⟩
/-- `LASTSEARCH.CANDS0` (R107). -/
def Reg.ENC_LASTSEARCH_CANDS0 : Row := ⟨73, 0x500000, 0x1000, 32, 0x54, 0x0, 1, 0, 3, .ro, 0, 0⟩
/-- `LASTSEARCH.CANDS1` (R107). -/
def Reg.ENC_LASTSEARCH_CANDS1 : Row := ⟨74, 0x500000, 0x1000, 32, 0x54, 0x0, 1, 4, 3, .ro, 0, 0⟩

/-- The rows of block ENC. -/
def Reg.rowsENC : List Row :=
  [Reg.ENC_ENGSTAT_STATE, Reg.ENC_ENGSTAT_CAUSE, Reg.ENC_ENGSTAT_AUTO_RETURN, Reg.ENC_CURTASK_CHANNEL, Reg.ENC_CURTASK_ROW, Reg.ENC_CURTASK_COLUMN, Reg.ENC_CURTASK_STANDIN, Reg.ENC_CURFRAME_FRAME, Reg.ENC_SLICECNT_COUNT, Reg.ENC_CTUCNT_COUNT, Reg.ENC_BUSYCYC_CYCLES, Reg.ENC_LASTSLICE_CYCLES, Reg.ENC_MAXCTU_CYCLES, Reg.ENC_FAULTCNT_TOTAL, Reg.ENC_FAULTCNT_RECENT, Reg.ENC_RECOVER_REENC, Reg.ENC_RECOVER_SUBST, Reg.ENC_STANDIN_COUNT, Reg.ENC_TESTRES_DONE, Reg.ENC_TESTRES_PASS, Reg.ENC_TESTRES_STAGE, Reg.ENC_FAULTTASK_CHANNEL, Reg.ENC_FAULTTASK_ROW, Reg.ENC_FAULTTASK_COLUMN, Reg.ENC_WINFILL_LINES] ++
  [Reg.ENC_BANDWAIT_CYCLES, Reg.ENC_WINECC_CORR, Reg.ENC_CLIPCNT_COUNT, Reg.ENC_MISSCTU_COUNT, Reg.ENC_LASTSEARCH_CANDS0, Reg.ENC_LASTSEARCH_CANDS1]

/-! Block REF: R108. -/

/-- `POOL.FREE` (R108). -/
def Reg.REF_POOL_FREE : Row := ⟨75, 0x700000, 0x0, 1, 0x0, 0x0, 1, 0, 11, .ro, 1024, 0⟩
/-- `POOL.MISSING` (R108). -/
def Reg.REF_POOL_MISSING : Row := ⟨76, 0x700000, 0x0, 1, 0x0, 0x0, 1, 16, 11, .ro, 0, 0⟩
/-- `DESCBASE.ADDR` (R108). -/
def Reg.REF_DESCBASE_ADDR : Row := ⟨77, 0x700000, 0x0, 1, 0x8, 0x0, 1, 0, 40, .rwl, 0, 0⟩
/-- `FBBASE.ADDR` (R108). -/
def Reg.REF_FBBASE_ADDR : Row := ⟨78, 0x700000, 0x0, 1, 0x10, 0x0, 1, 0, 40, .rwl, 0, 0⟩
/-- `FBSIZE.BYTES` (R108). -/
def Reg.REF_FBSIZE_BYTES : Row := ⟨79, 0x700000, 0x0, 1, 0x18, 0x0, 1, 0, 40, .rwl, 0, 0⟩
/-- `FBFREE.BYTES` (R108). -/
def Reg.REF_FBFREE_BYTES : Row := ⟨80, 0x700000, 0x0, 1, 0x20, 0x0, 1, 0, 40, .ro, 0, 0⟩
/-- `FBLARGEST.BYTES` (R108). -/
def Reg.REF_FBLARGEST_BYTES : Row := ⟨81, 0x700000, 0x0, 1, 0x28, 0x0, 1, 0, 40, .ro, 0, 0⟩
/-- `MISSCNT.WRITE` (R108). -/
def Reg.REF_MISSCNT_WRITE : Row := ⟨82, 0x700000, 0x0, 1, 0x30, 0x0, 1, 0, 16, .rws, 0, 0⟩
/-- `MISSCNT.READ` (R108). -/
def Reg.REF_MISSCNT_READ : Row := ⟨83, 0x700000, 0x0, 1, 0x30, 0x0, 1, 16, 16, .rws, 0, 0⟩
/-- `RECOVER.RETRYOK` (R108). -/
def Reg.REF_RECOVER_RETRYOK : Row := ⟨84, 0x700000, 0x0, 1, 0x34, 0x0, 1, 0, 16, .ro, 0, 0⟩
/-- `RECOVER.BANDFETCH` (R108). -/
def Reg.REF_RECOVER_BANDFETCH : Row := ⟨85, 0x700000, 0x0, 1, 0x34, 0x0, 1, 16, 16, .ro, 0, 0⟩
/-- `LASTMISS.DESC` (R108). -/
def Reg.REF_LASTMISS_DESC : Row := ⟨86, 0x700000, 0x0, 1, 0x38, 0x0, 1, 0, 10, .ro, 0, 0⟩
/-- `LASTMISS.CHANNEL` (R108). -/
def Reg.REF_LASTMISS_CHANNEL : Row := ⟨87, 0x700000, 0x0, 1, 0x38, 0x0, 1, 16, 6, .ro, 0, 0⟩
/-- `LASTMISS.CAUSE` (R108). -/
def Reg.REF_LASTMISS_CAUSE : Row := ⟨88, 0x700000, 0x0, 1, 0x38, 0x0, 1, 24, 1, .ro, 0, 0⟩
/-- `LASTMISS.FRAME` (R108). -/
def Reg.REF_LASTMISS_FRAME : Row := ⟨89, 0x700000, 0x0, 1, 0x40, 0x0, 1, 0, 64, .ro, 0, 0⟩
/-- `COMPRAW.UNITS` (R108). -/
def Reg.REF_COMPRAW_UNITS : Row := ⟨90, 0x700000, 0x0, 1, 0x48, 0x0, 1, 0, 32, .ro, 0, 0⟩
/-- `COMPUNITS.UNITS` (R108). -/
def Reg.REF_COMPUNITS_UNITS : Row := ⟨91, 0x700000, 0x0, 1, 0x4c, 0x0, 1, 0, 32, .ro, 0, 0⟩
/-- `DESCSEL.INDEX` (R108). -/
def Reg.REF_DESCSEL_INDEX : Row := ⟨92, 0x700000, 0x0, 1, 0x50, 0x0, 1, 0, 10, .rw, 0, 0⟩
/-- `DESCVIEW.MARK` (R108). -/
def Reg.REF_DESCVIEW_MARK : Row := ⟨93, 0x700000, 0x0, 1, 0x54, 0x0, 1, 0, 3, .ro, 0, 0⟩
/-- `DESCWORD[0..15].DATA` (R108). -/
def Reg.REF_DESCWORD_DATA : Row := ⟨94, 0x700000, 0x0, 1, 0x80, 0x4, 16, 0, 32, .ro, 0, 0⟩

/-- The rows of block REF. -/
def Reg.rowsREF : List Row :=
  [Reg.REF_POOL_FREE, Reg.REF_POOL_MISSING, Reg.REF_DESCBASE_ADDR, Reg.REF_FBBASE_ADDR, Reg.REF_FBSIZE_BYTES, Reg.REF_FBFREE_BYTES, Reg.REF_FBLARGEST_BYTES, Reg.REF_MISSCNT_WRITE, Reg.REF_MISSCNT_READ, Reg.REF_RECOVER_RETRYOK, Reg.REF_RECOVER_BANDFETCH, Reg.REF_LASTMISS_DESC, Reg.REF_LASTMISS_CHANNEL, Reg.REF_LASTMISS_CAUSE, Reg.REF_LASTMISS_FRAME, Reg.REF_COMPRAW_UNITS, Reg.REF_COMPUNITS_UNITS, Reg.REF_DESCSEL_INDEX, Reg.REF_DESCVIEW_MARK, Reg.REF_DESCWORD_DATA]

/-! Block CMP: R162. -/

/-- `CMPSTAT.ANY_EM` (R162). -/
def Reg.CMP_CMPSTAT_ANY_EM : Row := ⟨95, 0x400000, 0x0, 1, 0x0, 0x0, 1, 0, 1, .ro, 0, 0⟩
/-- `CMPSTAT.FLATQ` (R162). -/
def Reg.CMP_CMPSTAT_FLATQ : Row := ⟨96, 0x400000, 0x0, 1, 0x0, 0x0, 1, 8, 7, .ro, 0, 0⟩
/-- `TILEBASE.ADDR` (R162). -/
def Reg.CMP_TILEBASE_ADDR : Row := ⟨97, 0x400000, 0x0, 1, 0x8, 0x0, 1, 0, 40, .rwl, 0, 0⟩
/-- `TILESIZE.BYTES` (R162). -/
def Reg.CMP_TILESIZE_BYTES : Row := ⟨98, 0x400000, 0x0, 1, 0x10, 0x0, 1, 0, 40, .rwl, 0, 0⟩
/-- `TILEFREE.TILES` (R162). -/
def Reg.CMP_TILEFREE_TILES : Row := ⟨99, 0x400000, 0x0, 1, 0x18, 0x0, 1, 0, 32, .ro, 0, 0⟩
/-- `COMPCHG.BYTES` (R162). -/
def Reg.CMP_COMPCHG_BYTES : Row := ⟨100, 0x400000, 0x0, 1, 0x20, 0x0, 1, 0, 64, .ro, 0, 0⟩
/-- `COMPBUDGET.BYTES` (R162). -/
def Reg.CMP_COMPBUDGET_BYTES : Row := ⟨101, 0x400000, 0x0, 1, 0x28, 0x0, 1, 0, 64, .ro, 12000000000, 0⟩
/-- `EMBASE.ADDR` (R162). -/
def Reg.CMP_EMBASE_ADDR : Row := ⟨102, 0x400000, 0x0, 1, 0x30, 0x0, 1, 0, 40, .ro, 0, 0⟩
/-- `EMVALID.VALID` (R162). -/
def Reg.CMP_EMVALID_VALID : Row := ⟨103, 0x400000, 0x0, 1, 0x38, 0x0, 1, 0, 4, .ro, 0, 0⟩
/-- `EMCTL.EMMODE` (R162). -/
def Reg.CMP_EMCTL_EMMODE : Row := ⟨104, 0x400000, 0x0, 1, 0x3c, 0x0, 1, 0, 1, .ro, 0, 0⟩
/-- `EMALPHA.BGALPHA` (R162). -/
def Reg.CMP_EMALPHA_BGALPHA : Row := ⟨105, 0x400000, 0x0, 1, 0x40, 0x0, 1, 0, 10, .ro, 1023, 0⟩
/-- `EMALPHA.FGALPHA` (R162). -/
def Reg.CMP_EMALPHA_FGALPHA : Row := ⟨106, 0x400000, 0x0, 1, 0x40, 0x0, 1, 16, 10, .ro, 1023, 0⟩
/-- `EMFG[c].RGB` (R162). -/
def Reg.CMP_EMFG_RGB : Row := ⟨107, 0x400000, 0x0, 1, 0x44, 0x8, 4, 0, 24, .ro, 16777215, 0⟩
/-- `EMBG[c].RGB` (R162). -/
def Reg.CMP_EMBG_RGB : Row := ⟨108, 0x400000, 0x0, 1, 0x48, 0x8, 4, 0, 24, .ro, 12582912, 0⟩
/-- `EMWRDROP.COUNT` (R162). -/
def Reg.CMP_EMWRDROP_COUNT : Row := ⟨109, 0x400000, 0x0, 1, 0x64, 0x0, 1, 0, 32, .ro, 0, 0⟩
/-- `COEFSEL.BANK` (R162). -/
def Reg.CMP_COEFSEL_BANK : Row := ⟨110, 0x400000, 0x0, 1, 0x68, 0x0, 1, 0, 2, .rw, 0, 0⟩
/-- `COEFSEL.DIR` (R162). -/
def Reg.CMP_COEFSEL_DIR : Row := ⟨111, 0x400000, 0x0, 1, 0x68, 0x0, 1, 2, 1, .rw, 0, 0⟩
/-- `COEFSEL.PHASE` (R162). -/
def Reg.CMP_COEFSEL_PHASE : Row := ⟨112, 0x400000, 0x0, 1, 0x68, 0x0, 1, 3, 6, .rw, 0, 0⟩
/-- `COEFVIEW0.TAPS` (R162). -/
def Reg.CMP_COEFVIEW0_TAPS : Row := ⟨113, 0x400000, 0x0, 1, 0x6c, 0x0, 1, 0, 30, .ro, 0, 0⟩
/-- `COEFVIEW1.TAPS` (R162). -/
def Reg.CMP_COEFVIEW1_TAPS : Row := ⟨114, 0x400000, 0x0, 1, 0x70, 0x0, 1, 0, 30, .ro, 0, 0⟩
/-- `COEFVIEW2.TAPS` (R162). -/
def Reg.CMP_COEFVIEW2_TAPS : Row := ⟨115, 0x400000, 0x0, 1, 0x74, 0x0, 1, 0, 20, .ro, 0, 0⟩
/-- `SURFERR.COUNT` (R162). -/
def Reg.CMP_SURFERR_COUNT : Row := ⟨116, 0x400000, 0x0, 1, 0x78, 0x0, 1, 0, 32, .ro, 0, 0⟩
/-- `TILEERR.COUNT` (R162). -/
def Reg.CMP_TILEERR_COUNT : Row := ⟨117, 0x400000, 0x0, 1, 0x7c, 0x0, 1, 0, 32, .ro, 0, 0⟩
/-- `FLATCNT.DONE` (R162). -/
def Reg.CMP_FLATCNT_DONE : Row := ⟨118, 0x400000, 0x0, 1, 0x80, 0x0, 1, 0, 16, .ro, 0, 0⟩
/-- `FLATCNT.FAIL` (R162). -/
def Reg.CMP_FLATCNT_FAIL : Row := ⟨119, 0x400000, 0x0, 1, 0x80, 0x0, 1, 16, 16, .ro, 0, 0⟩
/-- `ROWLATE.COUNT` (R162). -/
def Reg.CMP_ROWLATE_COUNT : Row := ⟨120, 0x400000, 0x0, 1, 0x84, 0x0, 1, 0, 32, .ro, 0, 0⟩
/-- `LAYERSTAT[i].ENABLED` (R162). -/
def Reg.CMP_LAYERSTAT_ENABLED : Row := ⟨121, 0x400000, 0x0, 1, 0x1000, 0x4, 256, 0, 1, .ro, 0, 0⟩
/-- `LAYERSTAT[i].STATIC` (R162). -/
def Reg.CMP_LAYERSTAT_STATIC : Row := ⟨122, 0x400000, 0x0, 1, 0x1000, 0x4, 256, 1, 1, .ro, 0, 0⟩
/-- `LAYERSTAT[i].INRUN` (R162). -/
def Reg.CMP_LAYERSTAT_INRUN : Row := ⟨123, 0x400000, 0x0, 1, 0x1000, 0x4, 256, 2, 1, .ro, 0, 0⟩
/-- `LAYERSTAT[i].GANG` (R162). -/
def Reg.CMP_LAYERSTAT_GANG : Row := ⟨124, 0x400000, 0x0, 1, 0x1000, 0x4, 256, 3, 1, .ro, 0, 0⟩
/-- `LAYERSTAT[i].LENT` (R162). -/
def Reg.CMP_LAYERSTAT_LENT : Row := ⟨125, 0x400000, 0x0, 1, 0x1000, 0x4, 256, 4, 1, .ro, 0, 0⟩
/-- `LAYERSTAT[i].HASFRAME` (R162). -/
def Reg.CMP_LAYERSTAT_HASFRAME : Row := ⟨126, 0x400000, 0x0, 1, 0x1000, 0x4, 256, 5, 1, .ro, 0, 0⟩
/-- `LAYERSTAT[i].LATECNT` (R162). -/
def Reg.CMP_LAYERSTAT_LATECNT : Row := ⟨127, 0x400000, 0x0, 1, 0x1000, 0x4, 256, 16, 16, .ro, 0, 0⟩
/-- `CHCMP[n].CACHE` (R162). -/
def Reg.CMP_CHCMP_CACHE : Row := ⟨128, 0x400000, 0x0, 1, 0x2000, 0x8, 64, 0, 2, .ro, 0, 0⟩
/-- `CHCMP[n].EMSEL` (R162). -/
def Reg.CMP_CHCMP_EMSEL : Row := ⟨129, 0x400000, 0x0, 1, 0x2000, 0x8, 64, 2, 1, .ro, 0, 0⟩
/-- `CHCMP[n].EMPEND` (R162). -/
def Reg.CMP_CHCMP_EMPEND : Row := ⟨130, 0x400000, 0x0, 1, 0x2000, 0x8, 64, 3, 1, .ro, 0, 0⟩
/-- `CHCMP[n].TILES` (R162). -/
def Reg.CMP_CHCMP_TILES : Row := ⟨131, 0x400000, 0x0, 1, 0x2004, 0x8, 64, 0, 16, .ro, 0, 0⟩
/-- `CHCMP[n].FLATTENS` (R162). -/
def Reg.CMP_CHCMP_FLATTENS : Row := ⟨132, 0x400000, 0x0, 1, 0x2004, 0x8, 64, 16, 16, .ro, 0, 0⟩

/-- The rows of block CMP. -/
def Reg.rowsCMP : List Row :=
  [Reg.CMP_CMPSTAT_ANY_EM, Reg.CMP_CMPSTAT_FLATQ, Reg.CMP_TILEBASE_ADDR, Reg.CMP_TILESIZE_BYTES, Reg.CMP_TILEFREE_TILES, Reg.CMP_COMPCHG_BYTES, Reg.CMP_COMPBUDGET_BYTES, Reg.CMP_EMBASE_ADDR, Reg.CMP_EMVALID_VALID, Reg.CMP_EMCTL_EMMODE, Reg.CMP_EMALPHA_BGALPHA, Reg.CMP_EMALPHA_FGALPHA, Reg.CMP_EMFG_RGB, Reg.CMP_EMBG_RGB, Reg.CMP_EMWRDROP_COUNT, Reg.CMP_COEFSEL_BANK, Reg.CMP_COEFSEL_DIR, Reg.CMP_COEFSEL_PHASE, Reg.CMP_COEFVIEW0_TAPS, Reg.CMP_COEFVIEW1_TAPS, Reg.CMP_COEFVIEW2_TAPS, Reg.CMP_SURFERR_COUNT, Reg.CMP_TILEERR_COUNT, Reg.CMP_FLATCNT_DONE, Reg.CMP_FLATCNT_FAIL] ++
  [Reg.CMP_ROWLATE_COUNT, Reg.CMP_LAYERSTAT_ENABLED, Reg.CMP_LAYERSTAT_STATIC, Reg.CMP_LAYERSTAT_INRUN, Reg.CMP_LAYERSTAT_GANG, Reg.CMP_LAYERSTAT_LENT, Reg.CMP_LAYERSTAT_HASFRAME, Reg.CMP_LAYERSTAT_LATECNT, Reg.CMP_CHCMP_CACHE, Reg.CMP_CHCMP_EMSEL, Reg.CMP_CHCMP_EMPEND, Reg.CMP_CHCMP_TILES, Reg.CMP_CHCMP_FLATTENS]

/-! Block BLT: R182. -/

/-- `UNITSTAT.STATE` (R182). -/
def Reg.BLT_UNITSTAT_STATE : Row := ⟨133, 0x480000, 0x1000, 8, 0x0, 0x0, 1, 0, 2, .ro, 3, 0⟩
/-- `UNITSTAT.BOTTOMFIRST` (R182). -/
def Reg.BLT_UNITSTAT_BOTTOMFIRST : Row := ⟨134, 0x480000, 0x1000, 8, 0x0, 0x0, 1, 8, 1, .ro, 0, 0⟩
/-- `UNITSTAT.RIGHTFIRST` (R182). -/
def Reg.BLT_UNITSTAT_RIGHTFIRST : Row := ⟨135, 0x480000, 0x1000, 8, 0x0, 0x0, 1, 9, 1, .ro, 0, 0⟩
/-- `DEADMIN.CYCLES` (R182). -/
def Reg.BLT_DEADMIN_CYCLES : Row := ⟨136, 0x480000, 0x1000, 8, 0x4, 0x0, 1, 0, 32, .rwl, 46000, 0⟩
/-- `CURCMD.QUEUE` (R182). -/
def Reg.BLT_CURCMD_QUEUE : Row := ⟨137, 0x480000, 0x1000, 8, 0x8, 0x0, 1, 0, 7, .ro, 0, 0⟩
/-- `CURCMD.TAG` (R182). -/
def Reg.BLT_CURCMD_TAG : Row := ⟨138, 0x480000, 0x1000, 8, 0x8, 0x0, 1, 16, 16, .ro, 0, 0⟩
/-- `DONECNT.COUNT` (R182). -/
def Reg.BLT_DONECNT_COUNT : Row := ⟨139, 0x480000, 0x1000, 8, 0xc, 0x0, 1, 0, 32, .ro, 0, 0⟩
/-- `BYTES.COUNT` (R182). -/
def Reg.BLT_BYTES_COUNT : Row := ⟨140, 0x480000, 0x1000, 8, 0x10, 0x0, 1, 0, 64, .ro, 0, 0⟩
/-- `BURSTS.COUNT` (R182). -/
def Reg.BLT_BURSTS_COUNT : Row := ⟨141, 0x480000, 0x1000, 8, 0x18, 0x0, 1, 0, 32, .ro, 0, 0⟩
/-- `DEADCYC.CYCLES` (R182). -/
def Reg.BLT_DEADCYC_CYCLES : Row := ⟨142, 0x480000, 0x1000, 8, 0x20, 0x0, 1, 0, 64, .ro, 0, 0⟩
/-- `ERRCNT.ABORTS` (R182). -/
def Reg.BLT_ERRCNT_ABORTS : Row := ⟨143, 0x480000, 0x1000, 8, 0x28, 0x0, 1, 0, 16, .ro, 0, 0⟩
/-- `ERRCNT.FAULTS` (R182). -/
def Reg.BLT_ERRCNT_FAULTS : Row := ⟨144, 0x480000, 0x1000, 8, 0x28, 0x0, 1, 16, 16, .rws, 0, 0⟩
/-- `LASTERR.DETAIL` (R182). -/
def Reg.BLT_LASTERR_DETAIL : Row := ⟨145, 0x480000, 0x1000, 8, 0x2c, 0x0, 1, 0, 8, .ro, 0, 0⟩
/-- `LASTERR.QUEUE` (R182). -/
def Reg.BLT_LASTERR_QUEUE : Row := ⟨146, 0x480000, 0x1000, 8, 0x2c, 0x0, 1, 8, 7, .ro, 0, 0⟩
/-- `LASTERR.TAG` (R182). -/
def Reg.BLT_LASTERR_TAG : Row := ⟨147, 0x480000, 0x1000, 8, 0x2c, 0x0, 1, 16, 16, .ro, 0, 0⟩
/-- `LASTERR.ADDR` (R182). -/
def Reg.BLT_LASTERR_ADDR : Row := ⟨148, 0x480000, 0x1000, 8, 0x30, 0x0, 1, 0, 40, .ro, 0, 0⟩

/-- The rows of block BLT. -/
def Reg.rowsBLT : List Row :=
  [Reg.BLT_UNITSTAT_STATE, Reg.BLT_UNITSTAT_BOTTOMFIRST, Reg.BLT_UNITSTAT_RIGHTFIRST, Reg.BLT_DEADMIN_CYCLES, Reg.BLT_CURCMD_QUEUE, Reg.BLT_CURCMD_TAG, Reg.BLT_DONECNT_COUNT, Reg.BLT_BYTES_COUNT, Reg.BLT_BURSTS_COUNT, Reg.BLT_DEADCYC_CYCLES, Reg.BLT_ERRCNT_ABORTS, Reg.BLT_ERRCNT_FAULTS, Reg.BLT_LASTERR_DETAIL, Reg.BLT_LASTERR_QUEUE, Reg.BLT_LASTERR_TAG, Reg.BLT_LASTERR_ADDR]

/-! Block CST: R204. -/

/-- `CSTSTAT.READY` (R204). -/
def Reg.CST_CSTSTAT_READY : Row := ⟨149, 0x80000, 0x0, 1, 0x0, 0x0, 1, 0, 1, .ro, 0, 0⟩
/-- `CSTSTAT.WIPING` (R204). -/
def Reg.CST_CSTSTAT_WIPING : Row := ⟨150, 0x80000, 0x0, 1, 0x0, 0x0, 1, 1, 1, .ro, 0, 0⟩
/-- `SHAREDFREE.PAGES` (R204). -/
def Reg.CST_SHAREDFREE_PAGES : Row := ⟨151, 0x80000, 0x0, 1, 0x4, 0x0, 1, 0, 17, .ro, 0, 0⟩
/-- `SHAREDRUN.PAGES` (R204). -/
def Reg.CST_SHAREDRUN_PAGES : Row := ⟨152, 0x80000, 0x0, 1, 0x8, 0x0, 1, 0, 17, .ro, 0, 0⟩
/-- `CPBFREE.PAGES` (R204). -/
def Reg.CST_CPBFREE_PAGES : Row := ⟨153, 0x80000, 0x0, 1, 0xc, 0x0, 1, 0, 16, .ro, 0, 0⟩
/-- `CORR.COUNT` (R204). -/
def Reg.CST_CORR_COUNT : Row := ⟨154, 0x80000, 0x0, 1, 0x10, 0x0, 1, 0, 32, .ro, 0, 0⟩
/-- `UNCORR.COUNT` (R204). -/
def Reg.CST_UNCORR_COUNT : Row := ⟨155, 0x80000, 0x0, 1, 0x14, 0x0, 1, 0, 32, .rws, 0, 0⟩
/-- `REREAD.COUNT` (R204). -/
def Reg.CST_REREAD_COUNT : Row := ⟨156, 0x80000, 0x0, 1, 0x18, 0x0, 1, 0, 32, .ro, 0, 0⟩
/-- `BAR2DENY.COUNT` (R204). -/
def Reg.CST_BAR2DENY_COUNT : Row := ⟨157, 0x80000, 0x0, 1, 0x1c, 0x0, 1, 0, 32, .ro, 0, 0⟩
/-- `LASTERR.ADDR` (R204). -/
def Reg.CST_LASTERR_ADDR : Row := ⟨158, 0x80000, 0x0, 1, 0x20, 0x0, 1, 0, 40, .ro, 0, 0⟩
/-- `LASTERR.PORT` (R204). -/
def Reg.CST_LASTERR_PORT : Row := ⟨159, 0x80000, 0x0, 1, 0x28, 0x0, 1, 0, 6, .ro, 0, 0⟩
/-- `LASTERR.KIND` (R204). -/
def Reg.CST_LASTERR_KIND : Row := ⟨160, 0x80000, 0x0, 1, 0x28, 0x0, 1, 8, 2, .ro, 0, 0⟩
/-- `LASTERR.SCRUB` (R204). -/
def Reg.CST_LASTERR_SCRUB : Row := ⟨161, 0x80000, 0x0, 1, 0x28, 0x0, 1, 10, 1, .ro, 0, 0⟩
/-- `SCRUBCTL.INTERVAL` (R204). -/
def Reg.CST_SCRUBCTL_INTERVAL : Row := ⟨162, 0x80000, 0x0, 1, 0x2c, 0x0, 1, 0, 16, .rwl, 2048, 0⟩
/-- `SCRUBPASS.COUNT` (R204). -/
def Reg.CST_SCRUBPASS_COUNT : Row := ⟨163, 0x80000, 0x0, 1, 0x30, 0x0, 1, 0, 32, .ro, 0, 0⟩
/-- `CORRTHR.PERSEC` (R204). -/
def Reg.CST_CORRTHR_PERSEC : Row := ⟨164, 0x80000, 0x0, 1, 0x34, 0x0, 1, 0, 32, .rwl, 1000, 0⟩
/-- `PAGESEL.PAGE` (R204). -/
def Reg.CST_PAGESEL_PAGE : Row := ⟨165, 0x80000, 0x0, 1, 0x38, 0x0, 1, 0, 17, .rw, 0, 0⟩
/-- `PAGEVIEW.OWNER` (R204). -/
def Reg.CST_PAGEVIEW_OWNER : Row := ⟨166, 0x80000, 0x0, 1, 0x3c, 0x0, 1, 0, 3, .ro, 0, 0⟩
/-- `PAGEVIEW.CHANNEL` (R204). -/
def Reg.CST_PAGEVIEW_CHANNEL : Row := ⟨167, 0x80000, 0x0, 1, 0x3c, 0x0, 1, 8, 8, .ro, 255, 0⟩
/-- `PORT[p].CLASS` (R204). -/
def Reg.CST_PORT_CLASS : Row := ⟨168, 0x80000, 0x0, 1, 0x400, 0x10, 48, 0, 1, .ro, 0, 0⟩
/-- `PORT[p].WEIGHT` (R204). -/
def Reg.CST_PORT_WEIGHT : Row := ⟨169, 0x80000, 0x0, 1, 0x400, 0x10, 48, 8, 8, .ro, 0, 0⟩
/-- `PORT[p].LATE` (R204). -/
def Reg.CST_PORT_LATE : Row := ⟨170, 0x80000, 0x0, 1, 0x404, 0x10, 48, 0, 32, .ro, 0, 0⟩
/-- `PORT[p].BYTES` (R204). -/
def Reg.CST_PORT_BYTES : Row := ⟨171, 0x80000, 0x0, 1, 0x408, 0x10, 48, 0, 64, .ro, 0, 0⟩

/-- The rows of block CST. -/
def Reg.rowsCST : List Row :=
  [Reg.CST_CSTSTAT_READY, Reg.CST_CSTSTAT_WIPING, Reg.CST_SHAREDFREE_PAGES, Reg.CST_SHAREDRUN_PAGES, Reg.CST_CPBFREE_PAGES, Reg.CST_CORR_COUNT, Reg.CST_UNCORR_COUNT, Reg.CST_REREAD_COUNT, Reg.CST_BAR2DENY_COUNT, Reg.CST_LASTERR_ADDR, Reg.CST_LASTERR_PORT, Reg.CST_LASTERR_KIND, Reg.CST_LASTERR_SCRUB, Reg.CST_SCRUBCTL_INTERVAL, Reg.CST_SCRUBPASS_COUNT, Reg.CST_CORRTHR_PERSEC, Reg.CST_PAGESEL_PAGE, Reg.CST_PAGEVIEW_OWNER, Reg.CST_PAGEVIEW_CHANNEL, Reg.CST_PORT_CLASS, Reg.CST_PORT_WEIGHT, Reg.CST_PORT_LATE, Reg.CST_PORT_BYTES]

/-! Block SPD: R227. -/

/-- `SPDSTAT.RUNNING` (R227). -/
def Reg.SPD_SPDSTAT_RUNNING : Row := ⟨172, 0x780000, 0x0, 1, 0x0, 0x0, 1, 0, 1, .ro, 0, 0⟩
/-- `SPDSTAT.WINDOW` (R227). -/
def Reg.SPD_SPDSTAT_WINDOW : Row := ⟨173, 0x780000, 0x0, 1, 0x0, 0x0, 1, 1, 1, .ro, 0, 0⟩
/-- `SPDSTAT.STALL` (R227). -/
def Reg.SPD_SPDSTAT_STALL : Row := ⟨174, 0x780000, 0x0, 1, 0x0, 0x0, 1, 2, 1, .ro, 0, 0⟩
/-- `POOL.FREE` (R227). -/
def Reg.SPD_POOL_FREE : Row := ⟨175, 0x780000, 0x0, 1, 0x4, 0x0, 1, 0, 14, .ro, 14336, 0⟩
/-- `POOLLOW.THRESH` (R227). -/
def Reg.SPD_POOLLOW_THRESH : Row := ⟨176, 0x780000, 0x0, 1, 0x8, 0x0, 1, 0, 14, .rwl, 1024, 0⟩
/-- `POOLMAX.USED` (R227). -/
def Reg.SPD_POOLMAX_USED : Row := ⟨177, 0x780000, 0x0, 1, 0xc, 0x0, 1, 0, 14, .rc, 0, 0⟩
/-- `TICK.US` (R227). -/
def Reg.SPD_TICK_US : Row := ⟨178, 0x780000, 0x0, 1, 0x10, 0x0, 1, 0, 64, .ro, 0, 0⟩
/-- `GSEQ.NEXT` (R227). -/
def Reg.SPD_GSEQ_NEXT : Row := ⟨179, 0x780000, 0x0, 1, 0x18, 0x0, 1, 0, 64, .ro, 0, 0⟩
/-- `DISPCNT[c].COUNT` (R227). -/
def Reg.SPD_DISPCNT_COUNT : Row := ⟨180, 0x780000, 0x0, 1, 0x20, 0x4, 4, 0, 32, .ro, 0, 0⟩
/-- `DLMISS.COUNT` (R227). -/
def Reg.SPD_DLMISS_COUNT : Row := ⟨181, 0x780000, 0x0, 1, 0x30, 0x0, 1, 0, 32, .ro, 0, 0⟩
/-- `STANDIN.COUNT` (R227). -/
def Reg.SPD_STANDIN_COUNT : Row := ⟨182, 0x780000, 0x0, 1, 0x34, 0x0, 1, 0, 32, .ro, 0, 0⟩
/-- `DELAYLATE.COUNT` (R227). -/
def Reg.SPD_DELAYLATE_COUNT : Row := ⟨183, 0x780000, 0x0, 1, 0x38, 0x0, 1, 0, 32, .ro, 0, 0⟩
/-- `STALLCYC.CYCLES` (R227). -/
def Reg.SPD_STALLCYC_CYCLES : Row := ⟨184, 0x780000, 0x0, 1, 0x3c, 0x0, 1, 0, 32, .ro, 0, 0⟩
/-- `PROTCTL.LEAD` (R227). -/
def Reg.SPD_PROTCTL_LEAD : Row := ⟨185, 0x780000, 0x0, 1, 0x40, 0x0, 1, 0, 5, .rwl, 16, 0⟩
/-- `PROTCTL.TAIL` (R227). -/
def Reg.SPD_PROTCTL_TAIL : Row := ⟨186, 0x780000, 0x0, 1, 0x40, 0x0, 1, 8, 5, .rwl, 4, 0⟩
/-- `PROTCTL.MAX` (R227). -/
def Reg.SPD_PROTCTL_MAX : Row := ⟨187, 0x780000, 0x0, 1, 0x40, 0x0, 1, 16, 6, .rwl, 30, 0⟩
/-- `PROTCTL.GAP` (R227). -/
def Reg.SPD_PROTCTL_GAP : Row := ⟨188, 0x780000, 0x0, 1, 0x40, 0x0, 1, 24, 8, .rwl, 20, 0⟩
/-- `PROTOPEN.TICK` (R227). -/
def Reg.SPD_PROTOPEN_TICK : Row := ⟨189, 0x780000, 0x0, 1, 0x48, 0x0, 1, 0, 64, .ro, 0, 0⟩
/-- `PROTCNT.WINDOWS` (R227). -/
def Reg.SPD_PROTCNT_WINDOWS : Row := ⟨190, 0x780000, 0x0, 1, 0x50, 0x0, 1, 0, 16, .ro, 0, 0⟩
/-- `PROTCNT.CAPPED` (R227). -/
def Reg.SPD_PROTCNT_CAPPED : Row := ⟨191, 0x780000, 0x0, 1, 0x50, 0x0, 1, 16, 16, .ro, 0, 0⟩
/-- `REFNEXT.NS` (R227). -/
def Reg.SPD_REFNEXT_NS : Row := ⟨192, 0x780000, 0x0, 1, 0x54, 0x0, 1, 0, 32, .ro, 0, 0⟩
/-- `FLOWSEL.FLOW` (R227). -/
def Reg.SPD_FLOWSEL_FLOW : Row := ⟨193, 0x780000, 0x0, 1, 0x60, 0x0, 1, 0, 12, .rw, 0, 0⟩
/-- `FLOWVIEW.ATOMIC` (R227). -/
def Reg.SPD_FLOWVIEW_ATOMIC : Row := ⟨194, 0x780000, 0x0, 1, 0x64, 0x0, 1, 0, 1, .ro, 0, 0⟩
/-- `FLOWVIEW.VALID` (R227). -/
def Reg.SPD_FLOWVIEW_VALID : Row := ⟨195, 0x780000, 0x0, 1, 0x64, 0x0, 1, 1, 1, .ro, 0, 0⟩
/-- `FLOWVIEW.WINDOW` (R227). -/
def Reg.SPD_FLOWVIEW_WINDOW : Row := ⟨196, 0x780000, 0x0, 1, 0x64, 0x0, 1, 8, 8, .ro, 0, 0⟩
/-- `FLOWVIEW.INFLIGHT` (R227). -/
def Reg.SPD_FLOWVIEW_INFLIGHT : Row := ⟨197, 0x780000, 0x0, 1, 0x64, 0x0, 1, 16, 16, .ro, 0, 0⟩
/-- `FLOWSEQ.OLDEST` (R227). -/
def Reg.SPD_FLOWSEQ_OLDEST : Row := ⟨198, 0x780000, 0x0, 1, 0x68, 0x0, 1, 0, 32, .ro, 0, 0⟩
/-- `READYDEPTH[q].TASKS` (R227). -/
def Reg.SPD_READYDEPTH_TASKS : Row := ⟨199, 0x780000, 0x0, 1, 0x80, 0x4, 32, 0, 14, .ro, 0, 0⟩
/-- `DELAYDEPTH[j].TASKS` (R227). -/
def Reg.SPD_DELAYDEPTH_TASKS : Row := ⟨200, 0x780000, 0x0, 1, 0x100, 0x4, 16, 0, 14, .ro, 0, 0⟩
/-- `TRACECTL.MODE` (R227). -/
def Reg.SPD_TRACECTL_MODE : Row := ⟨201, 0x780000, 0x0, 1, 0x140, 0x0, 1, 0, 2, .rw, 0, 0⟩
/-- `TRACECTL.CLEAR` (R227). -/
def Reg.SPD_TRACECTL_CLEAR : Row := ⟨202, 0x780000, 0x0, 1, 0x140, 0x0, 1, 2, 1, .w1s, 0, 0⟩
/-- `TRACECTL.KINDMASK` (R227). -/
def Reg.SPD_TRACECTL_KINDMASK : Row := ⟨203, 0x780000, 0x0, 1, 0x140, 0x0, 1, 16, 16, .rw, 65535, 0⟩
/-- `TRACECHMASK.CHANNELS` (R227). -/
def Reg.SPD_TRACECHMASK_CHANNELS : Row := ⟨204, 0x780000, 0x0, 1, 0x148, 0x0, 1, 0, 64, .rw, 18446744073709551615, 0⟩
/-- `TRACETRIG.KIND` (R227). -/
def Reg.SPD_TRACETRIG_KIND : Row := ⟨205, 0x780000, 0x0, 1, 0x150, 0x0, 1, 0, 8, .rw, 8, 0⟩
/-- `TRACETRIG.CHANNEL` (R227). -/
def Reg.SPD_TRACETRIG_CHANNEL : Row := ⟨206, 0x780000, 0x0, 1, 0x150, 0x0, 1, 8, 8, .rw, 255, 0⟩
/-- `TRACETRIG.POST` (R227). -/
def Reg.SPD_TRACETRIG_POST : Row := ⟨207, 0x780000, 0x0, 1, 0x150, 0x0, 1, 16, 13, .rw, 4096, 0⟩
/-- `TRACESTAT.COUNT` (R227). -/
def Reg.SPD_TRACESTAT_COUNT : Row := ⟨208, 0x780000, 0x0, 1, 0x154, 0x0, 1, 0, 14, .ro, 0, 0⟩
/-- `TRACESTAT.WRAPPED` (R227). -/
def Reg.SPD_TRACESTAT_WRAPPED : Row := ⟨209, 0x780000, 0x0, 1, 0x154, 0x0, 1, 14, 1, .ro, 0, 0⟩
/-- `TRACESTAT.STOPPED` (R227). -/
def Reg.SPD_TRACESTAT_STOPPED : Row := ⟨210, 0x780000, 0x0, 1, 0x154, 0x0, 1, 15, 1, .ro, 0, 0⟩
/-- `TRACEHEAD.INDEX` (R227). -/
def Reg.SPD_TRACEHEAD_INDEX : Row := ⟨211, 0x780000, 0x0, 1, 0x158, 0x0, 1, 0, 13, .ro, 0, 0⟩
/-- `TRACEDROP.COUNT` (R227). -/
def Reg.SPD_TRACEDROP_COUNT : Row := ⟨212, 0x780000, 0x0, 1, 0x15c, 0x0, 1, 0, 32, .ro, 0, 0⟩
/-- `TRACESEL.INDEX` (R227). -/
def Reg.SPD_TRACESEL_INDEX : Row := ⟨213, 0x780000, 0x0, 1, 0x160, 0x0, 1, 0, 13, .rw, 0, 0⟩
/-- `TRACEWORD[0..7].DATA` (R227). -/
def Reg.SPD_TRACEWORD_DATA : Row := ⟨214, 0x780000, 0x0, 1, 0x180, 0x4, 8, 0, 32, .ro, 0, 0⟩
/-- `DESCERR.COUNT` (R227). -/
def Reg.SPD_DESCERR_COUNT : Row := ⟨215, 0x780000, 0x0, 1, 0x1a0, 0x0, 1, 0, 32, .rws, 0, 0⟩
/-- `DESCSEL.INDEX` (R227). -/
def Reg.SPD_DESCSEL_INDEX : Row := ⟨216, 0x780000, 0x0, 1, 0x1b0, 0x0, 1, 0, 14, .rw, 0, 0⟩
/-- `DESCWORD[0..15].DATA` (R227). -/
def Reg.SPD_DESCWORD_DATA : Row := ⟨217, 0x780000, 0x0, 1, 0x1c0, 0x4, 16, 0, 32, .ro, 0, 0⟩

/-- The rows of block SPD. -/
def Reg.rowsSPD : List Row :=
  [Reg.SPD_SPDSTAT_RUNNING, Reg.SPD_SPDSTAT_WINDOW, Reg.SPD_SPDSTAT_STALL, Reg.SPD_POOL_FREE, Reg.SPD_POOLLOW_THRESH, Reg.SPD_POOLMAX_USED, Reg.SPD_TICK_US, Reg.SPD_GSEQ_NEXT, Reg.SPD_DISPCNT_COUNT, Reg.SPD_DLMISS_COUNT, Reg.SPD_STANDIN_COUNT, Reg.SPD_DELAYLATE_COUNT, Reg.SPD_STALLCYC_CYCLES, Reg.SPD_PROTCTL_LEAD, Reg.SPD_PROTCTL_TAIL, Reg.SPD_PROTCTL_MAX, Reg.SPD_PROTCTL_GAP, Reg.SPD_PROTOPEN_TICK, Reg.SPD_PROTCNT_WINDOWS, Reg.SPD_PROTCNT_CAPPED, Reg.SPD_REFNEXT_NS, Reg.SPD_FLOWSEL_FLOW, Reg.SPD_FLOWVIEW_ATOMIC, Reg.SPD_FLOWVIEW_VALID, Reg.SPD_FLOWVIEW_WINDOW] ++
  [Reg.SPD_FLOWVIEW_INFLIGHT, Reg.SPD_FLOWSEQ_OLDEST, Reg.SPD_READYDEPTH_TASKS, Reg.SPD_DELAYDEPTH_TASKS, Reg.SPD_TRACECTL_MODE, Reg.SPD_TRACECTL_CLEAR, Reg.SPD_TRACECTL_KINDMASK, Reg.SPD_TRACECHMASK_CHANNELS, Reg.SPD_TRACETRIG_KIND, Reg.SPD_TRACETRIG_CHANNEL, Reg.SPD_TRACETRIG_POST, Reg.SPD_TRACESTAT_COUNT, Reg.SPD_TRACESTAT_WRAPPED, Reg.SPD_TRACESTAT_STOPPED, Reg.SPD_TRACEHEAD_INDEX, Reg.SPD_TRACEDROP_COUNT, Reg.SPD_TRACESEL_INDEX, Reg.SPD_TRACEWORD_DATA, Reg.SPD_DESCERR_COUNT, Reg.SPD_DESCSEL_INDEX, Reg.SPD_DESCWORD_DATA]

/-! Block HIF: R257, R424. -/

/-- `AQSQBASE.ADDR` (R257). -/
def Reg.HIF_AQSQBASE_ADDR : Row := ⟨218, 0x0, 0x0, 1, 0x8, 0x0, 1, 0, 64, .rwl, 0, 0⟩
/-- `AQCQBASE.ADDR` (R257). -/
def Reg.HIF_AQCQBASE_ADDR : Row := ⟨219, 0x0, 0x0, 1, 0x10, 0x0, 1, 0, 64, .rwl, 0, 0⟩
/-- `AQSIZE.SQLOG2` (R257). -/
def Reg.HIF_AQSIZE_SQLOG2 : Row := ⟨220, 0x0, 0x0, 1, 0x18, 0x0, 1, 0, 5, .rwl, 4, 0⟩
/-- `AQSIZE.CQLOG2` (R257). -/
def Reg.HIF_AQSIZE_CQLOG2 : Row := ⟨221, 0x0, 0x0, 1, 0x18, 0x0, 1, 8, 5, .rwl, 4, 0⟩
/-- `AQSIZE.VECTOR` (R257). -/
def Reg.HIF_AQSIZE_VECTOR : Row := ⟨222, 0x0, 0x0, 1, 0x18, 0x0, 1, 16, 6, .rwl, 0, 0⟩
/-- `AQSIZE.ORDER` (R257). -/
def Reg.HIF_AQSIZE_ORDER : Row := ⟨223, 0x0, 0x0, 1, 0x18, 0x0, 1, 22, 1, .rwl, 0, 0⟩
/-- `AQCTL.ENABLE` (R257). -/
def Reg.HIF_AQCTL_ENABLE : Row := ⟨224, 0x0, 0x0, 1, 0x1c, 0x0, 1, 0, 1, .rw, 0, 0⟩
/-- `AQCTL.RESUME` (R257). -/
def Reg.HIF_AQCTL_RESUME : Row := ⟨225, 0x0, 0x0, 1, 0x1c, 0x0, 1, 1, 1, .w1s, 0, 0⟩
/-- `AQCTL.FLUSH` (R257). -/
def Reg.HIF_AQCTL_FLUSH : Row := ⟨226, 0x0, 0x0, 1, 0x1c, 0x0, 1, 2, 1, .w1s, 0, 0⟩
/-- `EQSQBASE.ADDR` (R257). -/
def Reg.HIF_EQSQBASE_ADDR : Row := ⟨227, 0x0, 0x0, 1, 0x20, 0x0, 1, 0, 64, .rwl, 0, 0⟩
/-- `EQCQBASE.ADDR` (R257). -/
def Reg.HIF_EQCQBASE_ADDR : Row := ⟨228, 0x0, 0x0, 1, 0x28, 0x0, 1, 0, 64, .rwl, 0, 0⟩
/-- `EQSIZE.SQLOG2` (R257). -/
def Reg.HIF_EQSIZE_SQLOG2 : Row := ⟨229, 0x0, 0x0, 1, 0x30, 0x0, 1, 0, 4, .rwl, 4, 0⟩
/-- `EQSIZE.CQLOG2` (R257). -/
def Reg.HIF_EQSIZE_CQLOG2 : Row := ⟨230, 0x0, 0x0, 1, 0x30, 0x0, 1, 4, 4, .rwl, 4, 0⟩
/-- `EQSIZE.VECTOR` (R257). -/
def Reg.HIF_EQSIZE_VECTOR : Row := ⟨231, 0x0, 0x0, 1, 0x30, 0x0, 1, 8, 6, .rwl, 1, 0⟩
/-- `EQCTL.ENABLE` (R257). -/
def Reg.HIF_EQCTL_ENABLE : Row := ⟨232, 0x0, 0x0, 1, 0x34, 0x0, 1, 0, 1, .rw, 0, 0⟩
/-- `CMDCNT.COUNT` (R257). -/
def Reg.HIF_CMDCNT_COUNT : Row := ⟨233, 0x0, 0x0, 1, 0x40, 0x0, 1, 0, 64, .ro, 0, 0⟩
/-- `ERRCNT.DOORBELL` (R257). -/
def Reg.HIF_ERRCNT_DOORBELL : Row := ⟨234, 0x0, 0x0, 1, 0x48, 0x0, 1, 0, 16, .ro, 0, 0⟩
/-- `ERRCNT.FETCH` (R257). -/
def Reg.HIF_ERRCNT_FETCH : Row := ⟨235, 0x0, 0x0, 1, 0x48, 0x0, 1, 16, 16, .ro, 0, 0⟩
/-- `PAIRCNT.UNACKED` (R257). -/
def Reg.HIF_PAIRCNT_UNACKED : Row := ⟨236, 0x0, 0x0, 1, 0x4c, 0x0, 1, 0, 16, .ro, 0, 0⟩
/-- `PAIRCNT.STANDBY` (R257). -/
def Reg.HIF_PAIRCNT_STANDBY : Row := ⟨237, 0x0, 0x0, 1, 0x4c, 0x0, 1, 16, 16, .ro, 0, 0⟩
/-- `CORECNT.RESTARTS` (R257). -/
def Reg.HIF_CORECNT_RESTARTS : Row := ⟨238, 0x0, 0x0, 1, 0x50, 0x0, 1, 0, 8, .rws, 0, 0⟩
/-- `QSTAT[q].HEAD` (R257). -/
def Reg.HIF_QSTAT_HEAD : Row := ⟨239, 0x0, 0x0, 1, 0x400, 0x8, 67, 0, 16, .ro, 0, 0⟩
/-- `QSTAT[q].TAIL` (R257). -/
def Reg.HIF_QSTAT_TAIL : Row := ⟨240, 0x0, 0x0, 1, 0x400, 0x8, 67, 16, 16, .ro, 0, 0⟩
/-- `QSTAT[q].CQTAIL` (R257). -/
def Reg.HIF_QSTAT_CQTAIL : Row := ⟨241, 0x0, 0x0, 1, 0x404, 0x8, 67, 0, 16, .ro, 0, 0⟩
/-- `QSTAT[q].PHASE` (R257). -/
def Reg.HIF_QSTAT_PHASE : Row := ⟨242, 0x0, 0x0, 1, 0x404, 0x8, 67, 16, 1, .ro, 1, 0⟩
/-- `QSTAT[q].ENABLED` (R257). -/
def Reg.HIF_QSTAT_ENABLED : Row := ⟨243, 0x0, 0x0, 1, 0x404, 0x8, 67, 17, 1, .ro, 0, 0⟩
/-- `QSTAT[q].HALTED` (R257). -/
def Reg.HIF_QSTAT_HALTED : Row := ⟨244, 0x0, 0x0, 1, 0x404, 0x8, 67, 18, 1, .ro, 0, 0⟩
/-- `QSTAT[q].CQFULL` (R257). -/
def Reg.HIF_QSTAT_CQFULL : Row := ⟨245, 0x0, 0x0, 1, 0x404, 0x8, 67, 19, 1, .ro, 0, 0⟩
/-- `LINKSTAT.SPEED` (R424). -/
def Reg.HIF_LINKSTAT_SPEED : Row := ⟨246, 0x0, 0x0, 1, 0x800, 0x0, 1, 0, 4, .ro, 0, 0⟩
/-- `LINKSTAT.WIDTH` (R424). -/
def Reg.HIF_LINKSTAT_WIDTH : Row := ⟨247, 0x0, 0x0, 1, 0x800, 0x0, 1, 4, 4, .ro, 0, 0⟩
/-- `LINKSTAT.DLUP` (R424). -/
def Reg.HIF_LINKSTAT_DLUP : Row := ⟨248, 0x0, 0x0, 1, 0x800, 0x0, 1, 8, 1, .ro, 0, 0⟩
/-- `LINKCTL.MAXSPEED` (R424). -/
def Reg.HIF_LINKCTL_MAXSPEED : Row := ⟨249, 0x0, 0x0, 1, 0x804, 0x0, 1, 0, 4, .rwl, 0, 0⟩
/-- `LINKCTL.RETRAIN` (R424). -/
def Reg.HIF_LINKCTL_RETRAIN : Row := ⟨250, 0x0, 0x0, 1, 0x804, 0x0, 1, 4, 1, .w1s, 0, 0⟩
/-- `AERCNT.CORR` (R424). -/
def Reg.HIF_AERCNT_CORR : Row := ⟨251, 0x0, 0x0, 1, 0x808, 0x0, 1, 0, 16, .ro, 0, 0⟩
/-- `AERCNT.UNCORR` (R424). -/
def Reg.HIF_AERCNT_UNCORR : Row := ⟨252, 0x0, 0x0, 1, 0x808, 0x0, 1, 16, 16, .ro, 0, 0⟩
/-- `DRAMWIN.ZERO` (R424). -/
def Reg.HIF_DRAMWIN_ZERO : Row := ⟨253, 0x0, 0x0, 1, 0x810, 0x0, 1, 0, 29, .ro, 0, 0⟩
/-- `DRAMWIN.BASE` (R424). -/
def Reg.HIF_DRAMWIN_BASE : Row := ⟨254, 0x0, 0x0, 1, 0x810, 0x0, 1, 29, 11, .rw, 0, 0⟩

/-- The rows of block HIF. -/
def Reg.rowsHIF : List Row :=
  [Reg.HIF_AQSQBASE_ADDR, Reg.HIF_AQCQBASE_ADDR, Reg.HIF_AQSIZE_SQLOG2, Reg.HIF_AQSIZE_CQLOG2, Reg.HIF_AQSIZE_VECTOR, Reg.HIF_AQSIZE_ORDER, Reg.HIF_AQCTL_ENABLE, Reg.HIF_AQCTL_RESUME, Reg.HIF_AQCTL_FLUSH, Reg.HIF_EQSQBASE_ADDR, Reg.HIF_EQCQBASE_ADDR, Reg.HIF_EQSIZE_SQLOG2, Reg.HIF_EQSIZE_CQLOG2, Reg.HIF_EQSIZE_VECTOR, Reg.HIF_EQCTL_ENABLE, Reg.HIF_CMDCNT_COUNT, Reg.HIF_ERRCNT_DOORBELL, Reg.HIF_ERRCNT_FETCH, Reg.HIF_PAIRCNT_UNACKED, Reg.HIF_PAIRCNT_STANDBY, Reg.HIF_CORECNT_RESTARTS, Reg.HIF_QSTAT_HEAD, Reg.HIF_QSTAT_TAIL, Reg.HIF_QSTAT_CQTAIL, Reg.HIF_QSTAT_PHASE] ++
  [Reg.HIF_QSTAT_ENABLED, Reg.HIF_QSTAT_HALTED, Reg.HIF_QSTAT_CQFULL, Reg.HIF_LINKSTAT_SPEED, Reg.HIF_LINKSTAT_WIDTH, Reg.HIF_LINKSTAT_DLUP, Reg.HIF_LINKCTL_MAXSPEED, Reg.HIF_LINKCTL_RETRAIN, Reg.HIF_AERCNT_CORR, Reg.HIF_AERCNT_UNCORR, Reg.HIF_DRAMWIN_ZERO, Reg.HIF_DRAMWIN_BASE]

/-! Block NET: R290. -/

/-- `PORTCFG.SPLIT` (R290). -/
def Reg.NET_PORTCFG_SPLIT : Row := ⟨255, 0x100000, 0x4000, 4, 0x0, 0x0, 1, 0, 2, .rwl, 0, 0⟩
/-- `LINKSTAT.UP` (R290). -/
def Reg.NET_LINKSTAT_UP : Row := ⟨256, 0x100000, 0x4000, 4, 0x4, 0x0, 1, 0, 4, .ro, 0, 0⟩
/-- `LINKSTAT.FECLOCK` (R290). -/
def Reg.NET_LINKSTAT_FECLOCK : Row := ⟨257, 0x100000, 0x4000, 4, 0x4, 0x0, 1, 4, 4, .ro, 0, 0⟩
/-- `FECTHR.PERSEC` (R290). -/
def Reg.NET_FECTHR_PERSEC : Row := ⟨258, 0x100000, 0x4000, 4, 0x8, 0x0, 1, 0, 32, .rwl, 10000, 0⟩
/-- `MACADDR[m].ADDR` (R290). -/
def Reg.NET_MACADDR_ADDR : Row := ⟨259, 0x100000, 0x4000, 4, 0x10, 0x8, 4, 0, 48, .rwl, 0, 0⟩
/-- `IP4[m].ADDR` (R290). -/
def Reg.NET_IP4_ADDR : Row := ⟨260, 0x100000, 0x4000, 4, 0x40, 0x20, 4, 0, 32, .rwl, 0, 0⟩
/-- `IPPFX[m].LEN4` (R290). -/
def Reg.NET_IPPFX_LEN4 : Row := ⟨261, 0x100000, 0x4000, 4, 0x44, 0x20, 4, 0, 6, .rwl, 0, 0⟩
/-- `IPPFX[m].LEN6` (R290). -/
def Reg.NET_IPPFX_LEN6 : Row := ⟨262, 0x100000, 0x4000, 4, 0x44, 0x20, 4, 8, 8, .rwl, 0, 0⟩
/-- `GW4[m].ADDR` (R290). -/
def Reg.NET_GW4_ADDR : Row := ⟨263, 0x100000, 0x4000, 4, 0x48, 0x20, 4, 0, 32, .rwl, 0, 0⟩
/-- `IP6[m].WORD[0..3]` (R290). -/
def Reg.NET_IP6_WORD0 : Row := ⟨264, 0x100000, 0x4000, 4, 0x50, 0x20, 4, 0, 32, .rwl, 0, 0⟩
/-- `IP6[m].WORD[0..3]` (R290). -/
def Reg.NET_IP6_WORD1 : Row := ⟨265, 0x100000, 0x4000, 4, 0x54, 0x20, 4, 0, 32, .rwl, 0, 0⟩
/-- `IP6[m].WORD[0..3]` (R290). -/
def Reg.NET_IP6_WORD2 : Row := ⟨266, 0x100000, 0x4000, 4, 0x58, 0x20, 4, 0, 32, .rwl, 0, 0⟩
/-- `IP6[m].WORD[0..3]` (R290). -/
def Reg.NET_IP6_WORD3 : Row := ⟨267, 0x100000, 0x4000, 4, 0x5c, 0x20, 4, 0, 32, .rwl, 0, 0⟩
/-- `RXFRAMES.COUNT` (R290). -/
def Reg.NET_RXFRAMES_COUNT : Row := ⟨268, 0x100000, 0x4000, 4, 0x100, 0x40, 4, 0, 64, .ro, 0, 0⟩
/-- `RXBYTES.COUNT` (R290). -/
def Reg.NET_RXBYTES_COUNT : Row := ⟨269, 0x100000, 0x4000, 4, 0x108, 0x40, 4, 0, 64, .ro, 0, 0⟩
/-- `FCSERR.COUNT` (R290). -/
def Reg.NET_FCSERR_COUNT : Row := ⟨270, 0x100000, 0x4000, 4, 0x110, 0x40, 4, 0, 32, .ro, 0, 0⟩
/-- `BADFRAME.COUNT` (R290). -/
def Reg.NET_BADFRAME_COUNT : Row := ⟨271, 0x100000, 0x4000, 4, 0x114, 0x40, 4, 0, 32, .ro, 0, 0⟩
/-- `NOMATCH.COUNT` (R290). -/
def Reg.NET_NOMATCH_COUNT : Row := ⟨272, 0x100000, 0x4000, 4, 0x118, 0x40, 4, 0, 32, .ro, 0, 0⟩
/-- `CTRLDROP.COUNT` (R290). -/
def Reg.NET_CTRLDROP_COUNT : Row := ⟨273, 0x100000, 0x4000, 4, 0x11c, 0x40, 4, 0, 32, .ro, 0, 0⟩
/-- `FECCORR.COUNT` (R290). -/
def Reg.NET_FECCORR_COUNT : Row := ⟨274, 0x100000, 0x4000, 4, 0x120, 0x40, 4, 0, 32, .ro, 0, 0⟩
/-- `FECUNCORR.COUNT` (R290). -/
def Reg.NET_FECUNCORR_COUNT : Row := ⟨275, 0x100000, 0x4000, 4, 0x124, 0x40, 4, 0, 32, .ro, 0, 0⟩
/-- `JOINS.COUNT` (R290). -/
def Reg.NET_JOINS_COUNT : Row := ⟨276, 0x100000, 0x4000, 4, 0x128, 0x40, 4, 0, 16, .ro, 0, 0⟩
/-- `TXFRAMES.COUNT` (R290). -/
def Reg.NET_TXFRAMES_COUNT : Row := ⟨277, 0x100000, 0x4000, 4, 0x130, 0x40, 4, 0, 64, .ro, 0, 0⟩

/-- The rows of block NET. -/
def Reg.rowsNET : List Row :=
  [Reg.NET_PORTCFG_SPLIT, Reg.NET_LINKSTAT_UP, Reg.NET_LINKSTAT_FECLOCK, Reg.NET_FECTHR_PERSEC, Reg.NET_MACADDR_ADDR, Reg.NET_IP4_ADDR, Reg.NET_IPPFX_LEN4, Reg.NET_IPPFX_LEN6, Reg.NET_GW4_ADDR, Reg.NET_IP6_WORD0, Reg.NET_IP6_WORD1, Reg.NET_IP6_WORD2, Reg.NET_IP6_WORD3, Reg.NET_RXFRAMES_COUNT, Reg.NET_RXBYTES_COUNT, Reg.NET_FCSERR_COUNT, Reg.NET_BADFRAME_COUNT, Reg.NET_NOMATCH_COUNT, Reg.NET_CTRLDROP_COUNT, Reg.NET_FECCORR_COUNT, Reg.NET_FECUNCORR_COUNT, Reg.NET_JOINS_COUNT, Reg.NET_TXFRAMES_COUNT]

/-! Block INP: R292. -/

/-- `INPSTAT.FLOWS` (R292). -/
def Reg.INP_INPSTAT_FLOWS : Row := ⟨278, 0x120000, 0x0, 1, 0x0, 0x0, 1, 0, 9, .ro, 0, 0⟩
/-- `MERGECTL.WIN_US` (R292). -/
def Reg.INP_MERGECTL_WIN_US : Row := ⟨279, 0x120000, 0x0, 1, 0x4, 0x0, 1, 0, 10, .rwl, 250, 0⟩
/-- `FLOWSEL.FLOW` (R292). -/
def Reg.INP_FLOWSEL_FLOW : Row := ⟨280, 0x120000, 0x0, 1, 0x10, 0x0, 1, 0, 9, .rw, 0, 0⟩
/-- `FLOWVIEW.KIND` (R292). -/
def Reg.INP_FLOWVIEW_KIND : Row := ⟨281, 0x120000, 0x0, 384, 0x14, 0x0, 1, 0, 2, .ro, 0, 1⟩
/-- `FLOWVIEW.NETS` (R292). -/
def Reg.INP_FLOWVIEW_NETS : Row := ⟨282, 0x120000, 0x0, 384, 0x14, 0x0, 1, 2, 2, .ro, 0, 1⟩
/-- `FLOWVIEW.VALID` (R292). -/
def Reg.INP_FLOWVIEW_VALID : Row := ⟨283, 0x120000, 0x0, 384, 0x14, 0x0, 1, 4, 1, .ro, 0, 1⟩
/-- `FLOWVIEW.UP_A` (R292). -/
def Reg.INP_FLOWVIEW_UP_A : Row := ⟨284, 0x120000, 0x0, 384, 0x14, 0x0, 1, 5, 1, .ro, 0, 1⟩
/-- `FLOWVIEW.UP_B` (R292). -/
def Reg.INP_FLOWVIEW_UP_B : Row := ⟨285, 0x120000, 0x0, 384, 0x14, 0x0, 1, 6, 1, .ro, 0, 1⟩
/-- `FLOWVIEW.READERS` (R292). -/
def Reg.INP_FLOWVIEW_READERS : Row := ⟨286, 0x120000, 0x0, 384, 0x14, 0x0, 1, 8, 8, .ro, 0, 1⟩
/-- `FLOWVIEW.JOINMAC_A` (R292). -/
def Reg.INP_FLOWVIEW_JOINMAC_A : Row := ⟨287, 0x120000, 0x0, 384, 0x14, 0x0, 1, 16, 4, .ro, 15, 1⟩
/-- `FLOWVIEW.JOINMAC_B` (R292). -/
def Reg.INP_FLOWVIEW_JOINMAC_B : Row := ⟨288, 0x120000, 0x0, 384, 0x14, 0x0, 1, 20, 4, .ro, 15, 1⟩
/-- `FLOWRING.PAGES` (R292). -/
def Reg.INP_FLOWRING_PAGES : Row := ⟨289, 0x120000, 0x0, 384, 0x18, 0x0, 1, 0, 16, .ro, 0, 1⟩
/-- `FLOWRING.LINES` (R292). -/
def Reg.INP_FLOWRING_LINES : Row := ⟨290, 0x120000, 0x0, 384, 0x18, 0x0, 1, 16, 16, .ro, 0, 1⟩
/-- `PKT_A.COUNT` (R292). -/
def Reg.INP_PKT_A_COUNT : Row := ⟨291, 0x120000, 0x0, 384, 0x20, 0x0, 1, 0, 64, .ro, 0, 1⟩
/-- `PKT_B.COUNT` (R292). -/
def Reg.INP_PKT_B_COUNT : Row := ⟨292, 0x120000, 0x0, 384, 0x28, 0x0, 1, 0, 64, .ro, 0, 1⟩
/-- `DUP.COUNT` (R292). -/
def Reg.INP_DUP_COUNT : Row := ⟨293, 0x120000, 0x0, 384, 0x30, 0x0, 1, 0, 32, .ro, 0, 1⟩
/-- `MISS_A.COUNT` (R292). -/
def Reg.INP_MISS_A_COUNT : Row := ⟨294, 0x120000, 0x0, 384, 0x34, 0x0, 1, 0, 32, .ro, 0, 1⟩
/-- `MISS_B.COUNT` (R292). -/
def Reg.INP_MISS_B_COUNT : Row := ⟨295, 0x120000, 0x0, 384, 0x38, 0x0, 1, 0, 32, .ro, 0, 1⟩
/-- `LOST.COUNT` (R292). -/
def Reg.INP_LOST_COUNT : Row := ⟨296, 0x120000, 0x0, 384, 0x3c, 0x0, 1, 0, 32, .ro, 0, 1⟩
/-- `REPAIRED.COUNT` (R292). -/
def Reg.INP_REPAIRED_COUNT : Row := ⟨297, 0x120000, 0x0, 384, 0x40, 0x0, 1, 0, 32, .ro, 0, 1⟩
/-- `LATE.COUNT` (R292). -/
def Reg.INP_LATE_COUNT : Row := ⟨298, 0x120000, 0x0, 384, 0x44, 0x0, 1, 0, 32, .ro, 0, 1⟩
/-- `LATEOK.COUNT` (R292). -/
def Reg.INP_LATEOK_COUNT : Row := ⟨299, 0x120000, 0x0, 384, 0x48, 0x0, 1, 0, 32, .ro, 0, 1⟩
/-- `EARLY.COUNT` (R292). -/
def Reg.INP_EARLY_COUNT : Row := ⟨300, 0x120000, 0x0, 384, 0x4c, 0x0, 1, 0, 32, .ro, 0, 1⟩
/-- `ERR.TSERR` (R292). -/
def Reg.INP_ERR_TSERR : Row := ⟨301, 0x120000, 0x0, 384, 0x50, 0x0, 1, 0, 16, .ro, 0, 1⟩
/-- `ERR.FMTERR` (R292). -/
def Reg.INP_ERR_FMTERR : Row := ⟨302, 0x120000, 0x0, 384, 0x50, 0x0, 1, 16, 16, .ro, 0, 1⟩
/-- `CONCEAL.LINES` (R292). -/
def Reg.INP_CONCEAL_LINES : Row := ⟨303, 0x120000, 0x0, 384, 0x54, 0x0, 1, 0, 32, .ro, 0, 1⟩
/-- `MINMARGIN.NS` (R292). -/
def Reg.INP_MINMARGIN_NS : Row := ⟨304, 0x120000, 0x0, 384, 0x58, 0x0, 1, 0, 32, .rc, 2147483647, 1⟩
/-- `OTHERANC.COUNT` (R292). -/
def Reg.INP_OTHERANC_COUNT : Row := ⟨305, 0x120000, 0x0, 384, 0x5c, 0x0, 1, 0, 32, .ro, 0, 1⟩
/-- `METERSEL.METER` (R292). -/
def Reg.INP_METERSEL_METER : Row := ⟨306, 0x120000, 0x0, 1, 0x80, 0x0, 1, 0, 9, .rw, 0, 0⟩
/-- `METERSEL.NET` (R292). -/
def Reg.INP_METERSEL_NET : Row := ⟨307, 0x120000, 0x0, 1, 0x80, 0x0, 1, 16, 1, .rw, 0, 0⟩
/-- `METERVIEW.SET` (R292). -/
def Reg.INP_METERVIEW_SET : Row := ⟨308, 0x120000, 0x0, 1024, 0x84, 0x0, 1, 0, 1, .ro, 0, 2⟩
/-- `GREEN.PKTS` (R292). -/
def Reg.INP_GREEN_PKTS : Row := ⟨309, 0x120000, 0x0, 1024, 0x88, 0x0, 1, 0, 64, .ro, 0, 2⟩
/-- `YELLOW.PKTS` (R292). -/
def Reg.INP_YELLOW_PKTS : Row := ⟨310, 0x120000, 0x0, 1024, 0x90, 0x0, 1, 0, 64, .ro, 0, 2⟩
/-- `RED.PKTS` (R292). -/
def Reg.INP_RED_PKTS : Row := ⟨311, 0x120000, 0x0, 1024, 0x98, 0x0, 1, 0, 64, .ro, 0, 2⟩
/-- `GREEN.BYTES` (R292). -/
def Reg.INP_GREEN_BYTES : Row := ⟨312, 0x120000, 0x0, 1024, 0xa0, 0x0, 1, 0, 64, .ro, 0, 2⟩
/-- `YELLOW.BYTES` (R292). -/
def Reg.INP_YELLOW_BYTES : Row := ⟨313, 0x120000, 0x0, 1024, 0xa8, 0x0, 1, 0, 64, .ro, 0, 2⟩
/-- `RED.BYTES` (R292). -/
def Reg.INP_RED_BYTES : Row := ⟨314, 0x120000, 0x0, 1024, 0xb0, 0x0, 1, 0, 64, .ro, 0, 2⟩
/-- `LASTEV.FLOW` (R292). -/
def Reg.INP_LASTEV_FLOW : Row := ⟨315, 0x120000, 0x0, 1, 0xc0, 0x0, 1, 0, 9, .ro, 0, 0⟩
/-- `LASTEV.K` (R292). -/
def Reg.INP_LASTEV_K : Row := ⟨316, 0x120000, 0x0, 1, 0xc0, 0x0, 1, 16, 4, .ro, 0, 0⟩

/-- The rows of block INP. -/
def Reg.rowsINP : List Row :=
  [Reg.INP_INPSTAT_FLOWS, Reg.INP_MERGECTL_WIN_US, Reg.INP_FLOWSEL_FLOW, Reg.INP_FLOWVIEW_KIND, Reg.INP_FLOWVIEW_NETS, Reg.INP_FLOWVIEW_VALID, Reg.INP_FLOWVIEW_UP_A, Reg.INP_FLOWVIEW_UP_B, Reg.INP_FLOWVIEW_READERS, Reg.INP_FLOWVIEW_JOINMAC_A, Reg.INP_FLOWVIEW_JOINMAC_B, Reg.INP_FLOWRING_PAGES, Reg.INP_FLOWRING_LINES, Reg.INP_PKT_A_COUNT, Reg.INP_PKT_B_COUNT, Reg.INP_DUP_COUNT, Reg.INP_MISS_A_COUNT, Reg.INP_MISS_B_COUNT, Reg.INP_LOST_COUNT, Reg.INP_REPAIRED_COUNT, Reg.INP_LATE_COUNT, Reg.INP_LATEOK_COUNT, Reg.INP_EARLY_COUNT, Reg.INP_ERR_TSERR, Reg.INP_ERR_FMTERR] ++
  [Reg.INP_CONCEAL_LINES, Reg.INP_MINMARGIN_NS, Reg.INP_OTHERANC_COUNT, Reg.INP_METERSEL_METER, Reg.INP_METERSEL_NET, Reg.INP_METERVIEW_SET, Reg.INP_GREEN_PKTS, Reg.INP_YELLOW_PKTS, Reg.INP_RED_PKTS, Reg.INP_GREEN_BYTES, Reg.INP_YELLOW_BYTES, Reg.INP_RED_BYTES, Reg.INP_LASTEV_FLOW, Reg.INP_LASTEV_K]

/-! Block PKT: R313. -/

/-- `PKTSTAT.PROGS` (R313). -/
def Reg.PKT_PKTSTAT_PROGS : Row := ⟨317, 0x140000, 0x0, 1, 0x0, 0x0, 1, 0, 7, .ro, 0, 0⟩
/-- `UNITCNT.COUNT` (R313). -/
def Reg.PKT_UNITCNT_COUNT : Row := ⟨318, 0x140000, 0x0, 1, 0x4, 0x0, 1, 0, 32, .ro, 0, 0⟩
/-- `REPLCNT.COUNT` (R313). -/
def Reg.PKT_REPLCNT_COUNT : Row := ⟨319, 0x140000, 0x0, 1, 0x8, 0x0, 1, 0, 32, .ro, 0, 0⟩
/-- `PROG[g].VALID` (R313). -/
def Reg.PKT_PROG_VALID : Row := ⟨320, 0x140000, 0x0, 1, 0x100, 0x10, 64, 0, 1, .ro, 0, 0⟩
/-- `PROG[g].MODE` (R313). -/
def Reg.PKT_PROG_MODE : Row := ⟨321, 0x140000, 0x0, 1, 0x100, 0x10, 64, 1, 1, .ro, 0, 0⟩
/-- `PROG[g].NETS` (R313). -/
def Reg.PKT_PROG_NETS : Row := ⟨322, 0x140000, 0x0, 1, 0x100, 0x10, 64, 2, 2, .ro, 0, 0⟩
/-- `PROG[g].AUDIO` (R313). -/
def Reg.PKT_PROG_AUDIO : Row := ⟨323, 0x140000, 0x0, 1, 0x100, 0x10, 64, 4, 1, .ro, 0, 0⟩
/-- `PROG[g].SEQ.NEXT` (R313). -/
def Reg.PKT_PROG_SEQ_NEXT : Row := ⟨324, 0x140000, 0x0, 1, 0x104, 0x10, 64, 0, 16, .ro, 0, 0⟩
/-- `PROG[g].SEQ.AUDNEXT` (R313). -/
def Reg.PKT_PROG_SEQ_AUDNEXT : Row := ⟨325, 0x140000, 0x0, 1, 0x104, 0x10, 64, 16, 16, .ro, 0, 0⟩
/-- `PROG[g].FRAMES.COUNT` (R313). -/
def Reg.PKT_PROG_FRAMES_COUNT : Row := ⟨326, 0x140000, 0x0, 1, 0x108, 0x10, 64, 0, 32, .ro, 0, 0⟩
/-- `PROG[g].ERR.REPLACED` (R313). -/
def Reg.PKT_PROG_ERR_REPLACED : Row := ⟨327, 0x140000, 0x0, 1, 0x10c, 0x10, 64, 0, 16, .ro, 0, 0⟩
/-- `PROG[g].ERR.NOADDR` (R313). -/
def Reg.PKT_PROG_ERR_NOADDR : Row := ⟨328, 0x140000, 0x0, 1, 0x10c, 0x10, 64, 16, 16, .ro, 0, 0⟩

/-- The rows of block PKT. -/
def Reg.rowsPKT : List Row :=
  [Reg.PKT_PKTSTAT_PROGS, Reg.PKT_UNITCNT_COUNT, Reg.PKT_REPLCNT_COUNT, Reg.PKT_PROG_VALID, Reg.PKT_PROG_MODE, Reg.PKT_PROG_NETS, Reg.PKT_PROG_AUDIO, Reg.PKT_PROG_SEQ_NEXT, Reg.PKT_PROG_SEQ_AUDNEXT, Reg.PKT_PROG_FRAMES_COUNT, Reg.PKT_PROG_ERR_REPLACED, Reg.PKT_PROG_ERR_NOADDR]

/-! Block SHP: R314. -/

/-- `SHPSTAT.INUSE` (R314). -/
def Reg.SHP_SHPSTAT_INUSE : Row := ⟨329, 0x160000, 0x0, 1, 0x0, 0x0, 1, 0, 9, .ro, 0, 0⟩
/-- `SHPSEL.SHAPER` (R314). -/
def Reg.SHP_SHPSEL_SHAPER : Row := ⟨330, 0x160000, 0x0, 1, 0x8, 0x0, 1, 0, 8, .rw, 0, 0⟩
/-- `SHPVIEW.BURST` (R314). -/
def Reg.SHP_SHPVIEW_BURST : Row := ⟨331, 0x160000, 0x0, 256, 0xc, 0x0, 1, 0, 25, .ro, 0, 3⟩
/-- `SHPVIEW.OVERHEAD` (R314). -/
def Reg.SHP_SHPVIEW_OVERHEAD : Row := ⟨332, 0x160000, 0x0, 256, 0x10, 0x0, 1, 0, 9, .ro, 0, 3⟩
/-- `SHPVIEW.CREDIT` (R314). -/
def Reg.SHP_SHPVIEW_CREDIT : Row := ⟨333, 0x160000, 0x0, 256, 0x18, 0x0, 1, 0, 64, .ro, 0, 3⟩
/-- `SHPVIEW.RMIN` (R314). -/
def Reg.SHP_SHPVIEW_RMIN : Row := ⟨334, 0x160000, 0x0, 256, 0x20, 0x0, 1, 0, 32, .ro, 0, 3⟩
/-- `WINSEL.MAC` (R314). -/
def Reg.SHP_WINSEL_MAC : Row := ⟨335, 0x160000, 0x0, 1, 0x28, 0x0, 1, 0, 4, .rw, 0, 0⟩
/-- `WINSEL.WIN` (R314). -/
def Reg.SHP_WINSEL_WIN : Row := ⟨336, 0x160000, 0x0, 1, 0x28, 0x0, 1, 4, 4, .rw, 0, 0⟩
/-- `WINVIEW.ENABLE` (R314). -/
def Reg.SHP_WINVIEW_ENABLE : Row := ⟨337, 0x160000, 0x0, 256, 0x2c, 0x0, 1, 0, 1, .ro, 0, 4⟩
/-- `WINVIEW.CYCLE_NS` (R314). -/
def Reg.SHP_WINVIEW_CYCLE_NS : Row := ⟨338, 0x160000, 0x0, 256, 0x30, 0x0, 1, 0, 32, .ro, 0, 4⟩
/-- `WINVIEW.START_NS` (R314). -/
def Reg.SHP_WINVIEW_START_NS : Row := ⟨339, 0x160000, 0x0, 256, 0x34, 0x0, 1, 0, 32, .ro, 0, 4⟩
/-- `WINVIEW.LEN_NS` (R314). -/
def Reg.SHP_WINVIEW_LEN_NS : Row := ⟨340, 0x160000, 0x0, 256, 0x38, 0x0, 1, 0, 32, .ro, 0, 4⟩
/-- `MACSTAT[m].LATETOL` (R314). -/
def Reg.SHP_MACSTAT_LATETOL : Row := ⟨341, 0x160000, 0x0, 1, 0x100, 0x40, 16, 0, 32, .rwl, 200, 0⟩
/-- `MACSTAT[m].WINEN` (R314). -/
def Reg.SHP_MACSTAT_WINEN : Row := ⟨342, 0x160000, 0x0, 1, 0x104, 0x40, 16, 0, 16, .ro, 0, 0⟩
/-- `MACSTAT[m].FLOWS` (R314). -/
def Reg.SHP_MACSTAT_FLOWS : Row := ⟨343, 0x160000, 0x0, 1, 0x104, 0x40, 16, 16, 8, .ro, 0, 0⟩
/-- `MACSTAT[m].CHARGE` (R314). -/
def Reg.SHP_MACSTAT_CHARGE : Row := ⟨344, 0x160000, 0x0, 1, 0x108, 0x40, 16, 0, 64, .ro, 0, 0⟩
/-- `MACSTAT[m].DMAC` (R314). -/
def Reg.SHP_MACSTAT_DMAC : Row := ⟨345, 0x160000, 0x0, 1, 0x110, 0x40, 16, 0, 32, .ro, 0, 0⟩
/-- `MACSTAT[m].LATE` (R314). -/
def Reg.SHP_MACSTAT_LATE : Row := ⟨346, 0x160000, 0x0, 1, 0x114, 0x40, 16, 0, 32, .ro, 0, 0⟩
/-- `MACSTAT[m].WINHOLD` (R314). -/
def Reg.SHP_MACSTAT_WINHOLD : Row := ⟨347, 0x160000, 0x0, 1, 0x118, 0x40, 16, 0, 32, .ro, 0, 0⟩
/-- `MACSTAT[m].WINOVER` (R314). -/
def Reg.SHP_MACSTAT_WINOVER : Row := ⟨348, 0x160000, 0x0, 1, 0x11c, 0x40, 16, 0, 32, .ro, 0, 0⟩
/-- `MACSTAT[m].SUPPRESS` (R314). -/
def Reg.SHP_MACSTAT_SUPPRESS : Row := ⟨349, 0x160000, 0x0, 1, 0x120, 0x40, 16, 0, 32, .ro, 0, 0⟩
/-- `SHAPER[s].RATE` (R314). -/
def Reg.SHP_SHAPER_RATE : Row := ⟨350, 0x160000, 0x0, 1, 0x1000, 0x8, 256, 0, 32, .ro, 0, 0⟩
/-- `SHAPER[s].MAC` (R314). -/
def Reg.SHP_SHAPER_MAC : Row := ⟨351, 0x160000, 0x0, 1, 0x1004, 0x8, 256, 0, 4, .ro, 0, 0⟩
/-- `SHAPER[s].AUTO` (R314). -/
def Reg.SHP_SHAPER_AUTO : Row := ⟨352, 0x160000, 0x0, 1, 0x1004, 0x8, 256, 4, 1, .ro, 0, 0⟩
/-- `SHAPER[s].RESET_MODE` (R314). -/
def Reg.SHP_SHAPER_RESET_MODE : Row := ⟨353, 0x160000, 0x0, 1, 0x1004, 0x8, 256, 5, 1, .ro, 0, 0⟩
/-- `SHAPER[s].INUSE` (R314). -/
def Reg.SHP_SHAPER_INUSE : Row := ⟨354, 0x160000, 0x0, 1, 0x1004, 0x8, 256, 6, 1, .ro, 0, 0⟩
/-- `SHAPER[s].LAUNCHING` (R314). -/
def Reg.SHP_SHAPER_LAUNCHING : Row := ⟨355, 0x160000, 0x0, 1, 0x1004, 0x8, 256, 7, 1, .ro, 0, 0⟩
/-- `SHAPER[s].LATE` (R314). -/
def Reg.SHP_SHAPER_LATE : Row := ⟨356, 0x160000, 0x0, 1, 0x1004, 0x8, 256, 16, 16, .ro, 0, 0⟩

/-- The rows of block SHP. -/
def Reg.rowsSHP : List Row :=
  [Reg.SHP_SHPSTAT_INUSE, Reg.SHP_SHPSEL_SHAPER, Reg.SHP_SHPVIEW_BURST, Reg.SHP_SHPVIEW_OVERHEAD, Reg.SHP_SHPVIEW_CREDIT, Reg.SHP_SHPVIEW_RMIN, Reg.SHP_WINSEL_MAC, Reg.SHP_WINSEL_WIN, Reg.SHP_WINVIEW_ENABLE, Reg.SHP_WINVIEW_CYCLE_NS, Reg.SHP_WINVIEW_START_NS, Reg.SHP_WINVIEW_LEN_NS, Reg.SHP_MACSTAT_LATETOL, Reg.SHP_MACSTAT_WINEN, Reg.SHP_MACSTAT_FLOWS, Reg.SHP_MACSTAT_CHARGE, Reg.SHP_MACSTAT_DMAC, Reg.SHP_MACSTAT_LATE, Reg.SHP_MACSTAT_WINHOLD, Reg.SHP_MACSTAT_WINOVER, Reg.SHP_MACSTAT_SUPPRESS, Reg.SHP_SHAPER_RATE, Reg.SHP_SHAPER_MAC, Reg.SHP_SHAPER_AUTO, Reg.SHP_SHAPER_RESET_MODE] ++
  [Reg.SHP_SHAPER_INUSE, Reg.SHP_SHAPER_LAUNCHING, Reg.SHP_SHAPER_LATE]

/-! Block TIM: R330. -/

/-- `TIMSTAT.SOURCE` (R330). -/
def Reg.TIM_TIMSTAT_SOURCE : Row := ⟨357, 0x180000, 0x0, 1, 0x0, 0x0, 1, 0, 2, .ro, 0, 0⟩
/-- `TIMSTAT.SERVO` (R330). -/
def Reg.TIM_TIMSTAT_SERVO : Row := ⟨358, 0x180000, 0x0, 1, 0x0, 0x0, 1, 2, 2, .ro, 0, 0⟩
/-- `TIMSTAT.TC_A` (R330). -/
def Reg.TIM_TIMSTAT_TC_A : Row := ⟨359, 0x180000, 0x0, 1, 0x0, 0x0, 1, 4, 1, .ro, 0, 0⟩
/-- `TIMSTAT.TC_B` (R330). -/
def Reg.TIM_TIMSTAT_TC_B : Row := ⟨360, 0x180000, 0x0, 1, 0x0, 0x0, 1, 5, 1, .ro, 0, 0⟩
/-- `TIMSTAT.PROFILE` (R330). -/
def Reg.TIM_TIMSTAT_PROFILE : Row := ⟨361, 0x180000, 0x0, 1, 0x0, 0x0, 1, 6, 1, .ro, 0, 0⟩
/-- `TIMSTAT.DOMAIN` (R330). -/
def Reg.TIM_TIMSTAT_DOMAIN : Row := ⟨362, 0x180000, 0x0, 1, 0x0, 0x0, 1, 8, 7, .ro, 0, 0⟩
/-- `TIMSTAT.ANNOUNCE_TO` (R330). -/
def Reg.TIM_TIMSTAT_ANNOUNCE_TO : Row := ⟨363, 0x180000, 0x0, 1, 0x0, 0x0, 1, 15, 4, .ro, 0, 0⟩
/-- `NOWSEC.SEC` (R330). -/
def Reg.TIM_NOWSEC_SEC : Row := ⟨364, 0x180000, 0x0, 1, 0x8, 0x0, 1, 0, 64, .ro, 0, 0⟩
/-- `NOWNS.NS` (R330). -/
def Reg.TIM_NOWNS_NS : Row := ⟨365, 0x180000, 0x0, 1, 0x10, 0x0, 1, 0, 32, .ro, 0, 0⟩
/-- `NOWFRAC.FRAC` (R330). -/
def Reg.TIM_NOWFRAC_FRAC : Row := ⟨366, 0x180000, 0x0, 1, 0x14, 0x0, 1, 0, 16, .ro, 0, 0⟩
/-- `OFFSET.NS` (R330). -/
def Reg.TIM_OFFSET_NS : Row := ⟨367, 0x180000, 0x0, 1, 0x18, 0x0, 1, 0, 32, .ro, 0, 0⟩
/-- `FREQADJ.ADJ` (R330). -/
def Reg.TIM_FREQADJ_ADJ : Row := ⟨368, 0x180000, 0x0, 1, 0x1c, 0x0, 1, 0, 32, .ro, 0, 0⟩
/-- `MPD.NS` (R330). -/
def Reg.TIM_MPD_NS : Row := ⟨369, 0x180000, 0x0, 1, 0x20, 0x0, 1, 0, 32, .ro, 0, 0⟩
/-- `GMID.ID` (R330). -/
def Reg.TIM_GMID_ID : Row := ⟨370, 0x180000, 0x0, 1, 0x28, 0x0, 1, 0, 64, .ro, 0, 0⟩
/-- `UTC.OFFSET` (R330). -/
def Reg.TIM_UTC_OFFSET : Row := ⟨371, 0x180000, 0x0, 1, 0x30, 0x0, 1, 0, 16, .ro, 0, 0⟩
/-- `UTC.LEAP61` (R330). -/
def Reg.TIM_UTC_LEAP61 : Row := ⟨372, 0x180000, 0x0, 1, 0x30, 0x0, 1, 16, 1, .ro, 0, 0⟩
/-- `UTC.LEAP59` (R330). -/
def Reg.TIM_UTC_LEAP59 : Row := ⟨373, 0x180000, 0x0, 1, 0x30, 0x0, 1, 17, 1, .ro, 0, 0⟩
/-- `UTC.VALID` (R330). -/
def Reg.TIM_UTC_VALID : Row := ⟨374, 0x180000, 0x0, 1, 0x30, 0x0, 1, 18, 1, .ro, 0, 0⟩
/-- `SERVOCTL.LOCK_NS` (R330). -/
def Reg.TIM_SERVOCTL_LOCK_NS : Row := ⟨375, 0x180000, 0x0, 1, 0x34, 0x0, 1, 0, 16, .rwl, 50, 0⟩
/-- `SERVOCTL.UNLOCK_NS` (R330). -/
def Reg.TIM_SERVOCTL_UNLOCK_NS : Row := ⟨376, 0x180000, 0x0, 1, 0x34, 0x0, 1, 16, 16, .rwl, 200, 0⟩
/-- `SLEW.PPM` (R330). -/
def Reg.TIM_SLEW_PPM : Row := ⟨377, 0x180000, 0x0, 1, 0x38, 0x0, 1, 0, 8, .rwl, 50, 0⟩
/-- `STEPCTL.STEP_NS` (R330). -/
def Reg.TIM_STEPCTL_STEP_NS : Row := ⟨378, 0x180000, 0x0, 1, 0x3c, 0x0, 1, 0, 32, .rwl, 10000, 0⟩
/-- `PDVCTL.PDV_NS` (R330). -/
def Reg.TIM_PDVCTL_PDV_NS : Row := ⟨379, 0x180000, 0x0, 1, 0x40, 0x0, 1, 0, 32, .rwl, 200, 0⟩
/-- `HOLDCTL.HOLD_MAX_S` (R330). -/
def Reg.TIM_HOLDCTL_HOLD_MAX_S : Row := ⟨380, 0x180000, 0x0, 1, 0x44, 0x0, 1, 0, 32, .rwl, 3600, 0⟩
/-- `HOLDTIME.S` (R330). -/
def Reg.TIM_HOLDTIME_S : Row := ⟨381, 0x180000, 0x0, 1, 0x48, 0x0, 1, 0, 32, .ro, 0, 0⟩
/-- `STEPCNT.STEPS` (R330). -/
def Reg.TIM_STEPCNT_STEPS : Row := ⟨382, 0x180000, 0x0, 1, 0x4c, 0x0, 1, 0, 16, .ro, 0, 0⟩
/-- `STEPCNT.BLOCKED` (R330). -/
def Reg.TIM_STEPCNT_BLOCKED : Row := ⟨383, 0x180000, 0x0, 1, 0x4c, 0x0, 1, 16, 16, .ro, 0, 0⟩
/-- `INST[x].SLAVEMAC` (R330). -/
def Reg.TIM_INST_SLAVEMAC : Row := ⟨384, 0x180000, 0x0, 1, 0x80, 0x20, 2, 0, 4, .ro, 15, 0⟩
/-- `INST[x].QUAL` (R330). -/
def Reg.TIM_INST_QUAL : Row := ⟨385, 0x180000, 0x0, 1, 0x80, 0x20, 2, 4, 1, .ro, 0, 0⟩
/-- `INST[x].SYNCRX` (R330). -/
def Reg.TIM_INST_SYNCRX : Row := ⟨386, 0x180000, 0x0, 1, 0x84, 0x20, 2, 0, 32, .ro, 0, 0⟩
/-- `INST[x].DREQTX` (R330). -/
def Reg.TIM_INST_DREQTX : Row := ⟨387, 0x180000, 0x0, 1, 0x88, 0x20, 2, 0, 32, .ro, 0, 0⟩
/-- `INST[x].DRESPRX` (R330). -/
def Reg.TIM_INST_DRESPRX : Row := ⟨388, 0x180000, 0x0, 1, 0x8c, 0x20, 2, 0, 32, .ro, 0, 0⟩
/-- `INST[x].DISCARD` (R330). -/
def Reg.TIM_INST_DISCARD : Row := ⟨389, 0x180000, 0x0, 1, 0x90, 0x20, 2, 0, 32, .ro, 0, 0⟩
/-- `INST[x].ANNTO` (R330). -/
def Reg.TIM_INST_ANNTO : Row := ⟨390, 0x180000, 0x0, 1, 0x94, 0x20, 2, 0, 32, .ro, 0, 0⟩
/-- `INST[x].OFFSET` (R330). -/
def Reg.TIM_INST_OFFSET : Row := ⟨391, 0x180000, 0x0, 1, 0x98, 0x20, 2, 0, 32, .ro, 0, 0⟩
/-- `MACCOMP[m].INGRESS_PS` (R330). -/
def Reg.TIM_MACCOMP_INGRESS_PS : Row := ⟨392, 0x180000, 0x0, 1, 0x100, 0x10, 16, 0, 32, .ro, 0, 0⟩
/-- `MACCOMP[m].EGRESS_PS` (R330). -/
def Reg.TIM_MACCOMP_EGRESS_PS : Row := ⟨393, 0x180000, 0x0, 1, 0x104, 0x10, 16, 0, 32, .ro, 0, 0⟩
/-- `MACCOMP[m].ASYM_PS` (R330). -/
def Reg.TIM_MACCOMP_ASYM_PS : Row := ⟨394, 0x180000, 0x0, 1, 0x108, 0x10, 16, 0, 32, .ro, 0, 0⟩
/-- `MACCOMP[m].TCFWD` (R330). -/
def Reg.TIM_MACCOMP_TCFWD : Row := ⟨395, 0x180000, 0x0, 1, 0x10c, 0x10, 16, 0, 32, .ro, 0, 0⟩
/-- `CAPSEC.SEC` (R330). -/
def Reg.TIM_CAPSEC_SEC : Row := ⟨396, 0x180000, 0x0, 1, 0x200, 0x0, 1, 0, 64, .ro, 0, 0⟩
/-- `CAPNS.NS` (R330). -/
def Reg.TIM_CAPNS_NS : Row := ⟨397, 0x180000, 0x0, 1, 0x208, 0x0, 1, 0, 32, .ro, 0, 0⟩
/-- `CAPFRAC.FRAC` (R330). -/
def Reg.TIM_CAPFRAC_FRAC : Row := ⟨398, 0x180000, 0x0, 1, 0x20c, 0x0, 1, 0, 16, .ro, 0, 0⟩
/-- `CAPCNT.COUNT` (R330). -/
def Reg.TIM_CAPCNT_COUNT : Row := ⟨399, 0x180000, 0x0, 1, 0x210, 0x0, 1, 0, 32, .ro, 0, 0⟩
/-- `OUTCTL.PPS` (R330). -/
def Reg.TIM_OUTCTL_PPS : Row := ⟨400, 0x180000, 0x0, 1, 0x220, 0x0, 1, 0, 1, .ro, 0, 0⟩
/-- `OUTCTL.FS` (R330). -/
def Reg.TIM_OUTCTL_FS : Row := ⟨401, 0x180000, 0x0, 1, 0x220, 0x0, 1, 1, 4, .ro, 0, 0⟩
/-- `OUTCH.FSCH` (R330). -/
def Reg.TIM_OUTCH_FSCH : Row := ⟨402, 0x180000, 0x0, 1, 0x224, 0x0, 1, 0, 32, .ro, 0, 0⟩

/-- The rows of block TIM. -/
def Reg.rowsTIM : List Row :=
  [Reg.TIM_TIMSTAT_SOURCE, Reg.TIM_TIMSTAT_SERVO, Reg.TIM_TIMSTAT_TC_A, Reg.TIM_TIMSTAT_TC_B, Reg.TIM_TIMSTAT_PROFILE, Reg.TIM_TIMSTAT_DOMAIN, Reg.TIM_TIMSTAT_ANNOUNCE_TO, Reg.TIM_NOWSEC_SEC, Reg.TIM_NOWNS_NS, Reg.TIM_NOWFRAC_FRAC, Reg.TIM_OFFSET_NS, Reg.TIM_FREQADJ_ADJ, Reg.TIM_MPD_NS, Reg.TIM_GMID_ID, Reg.TIM_UTC_OFFSET, Reg.TIM_UTC_LEAP61, Reg.TIM_UTC_LEAP59, Reg.TIM_UTC_VALID, Reg.TIM_SERVOCTL_LOCK_NS, Reg.TIM_SERVOCTL_UNLOCK_NS, Reg.TIM_SLEW_PPM, Reg.TIM_STEPCTL_STEP_NS, Reg.TIM_PDVCTL_PDV_NS, Reg.TIM_HOLDCTL_HOLD_MAX_S, Reg.TIM_HOLDTIME_S] ++
  [Reg.TIM_STEPCNT_STEPS, Reg.TIM_STEPCNT_BLOCKED, Reg.TIM_INST_SLAVEMAC, Reg.TIM_INST_QUAL, Reg.TIM_INST_SYNCRX, Reg.TIM_INST_DREQTX, Reg.TIM_INST_DRESPRX, Reg.TIM_INST_DISCARD, Reg.TIM_INST_ANNTO, Reg.TIM_INST_OFFSET, Reg.TIM_MACCOMP_INGRESS_PS, Reg.TIM_MACCOMP_EGRESS_PS, Reg.TIM_MACCOMP_ASYM_PS, Reg.TIM_MACCOMP_TCFWD, Reg.TIM_CAPSEC_SEC, Reg.TIM_CAPNS_NS, Reg.TIM_CAPFRAC_FRAC, Reg.TIM_CAPCNT_COUNT, Reg.TIM_OUTCTL_PPS, Reg.TIM_OUTCTL_FS, Reg.TIM_OUTCH_FSCH]

/-! Block AUD: R345. -/

/-- `AUDSTAT.ENABLED` (R345). -/
def Reg.AUD_AUDSTAT_ENABLED : Row := ⟨403, 0x1a0000, 0x0, 1, 0x0, 0x0, 1, 0, 16, .ro, 0, 0⟩
/-- `AUDSTAT.CLKOK` (R345). -/
def Reg.AUD_AUDSTAT_CLKOK : Row := ⟨404, 0x1a0000, 0x0, 1, 0x0, 0x0, 1, 16, 16, .ro, 0, 0⟩
/-- `MCLKCTL.OUT` (R345). -/
def Reg.AUD_MCLKCTL_OUT : Row := ⟨405, 0x1a0000, 0x0, 1, 0x4, 0x0, 1, 0, 1, .rw, 0, 0⟩
/-- `MCLKIN.PPM` (R345). -/
def Reg.AUD_MCLKIN_PPM : Row := ⟨406, 0x1a0000, 0x0, 1, 0x8, 0x0, 1, 0, 24, .ro, 0, 0⟩
/-- `MCLKIN.PRESENT` (R345). -/
def Reg.AUD_MCLKIN_PRESENT : Row := ⟨407, 0x1a0000, 0x0, 1, 0x8, 0x0, 1, 24, 1, .ro, 0, 0⟩
/-- `GRPREF[g].REF` (R345). -/
def Reg.AUD_GRPREF_REF : Row := ⟨408, 0x1a0000, 0x0, 1, 0x10, 0x4, 8, 0, 5, .ro, 31, 0⟩
/-- `CFG.ENABLE` (R345). -/
def Reg.AUD_PORT_CFG_ENABLE : Row := ⟨409, 0x1a0000, 0x0, 1, 0x100, 0x40, 16, 0, 1, .ro, 0, 0⟩
/-- `CFG.MASTER` (R345). -/
def Reg.AUD_PORT_CFG_MASTER : Row := ⟨410, 0x1a0000, 0x0, 1, 0x100, 0x40, 16, 1, 1, .ro, 0, 0⟩
/-- `CFG.TX` (R345). -/
def Reg.AUD_PORT_CFG_TX : Row := ⟨411, 0x1a0000, 0x0, 1, 0x100, 0x40, 16, 2, 1, .ro, 0, 0⟩
/-- `CFG.FRAME` (R345). -/
def Reg.AUD_PORT_CFG_FRAME : Row := ⟨412, 0x1a0000, 0x0, 1, 0x100, 0x40, 16, 3, 2, .ro, 0, 0⟩
/-- `CFG.SLOTBITS` (R345). -/
def Reg.AUD_PORT_CFG_SLOTBITS : Row := ⟨413, 0x1a0000, 0x0, 1, 0x100, 0x40, 16, 8, 6, .ro, 32, 0⟩
/-- `CFG.RATE` (R345). -/
def Reg.AUD_PORT_CFG_RATE : Row := ⟨414, 0x1a0000, 0x0, 1, 0x100, 0x40, 16, 14, 1, .ro, 0, 0⟩
/-- `CFG.GROUP` (R345). -/
def Reg.AUD_PORT_CFG_GROUP : Row := ⟨415, 0x1a0000, 0x0, 1, 0x100, 0x40, 16, 16, 8, .ro, 255, 0⟩
/-- `ROLL.PREROLL` (R345). -/
def Reg.AUD_PORT_ROLL_PREROLL : Row := ⟨416, 0x1a0000, 0x0, 1, 0x104, 0x40, 16, 0, 16, .ro, 0, 0⟩
/-- `ROLL.POSTROLL` (R345). -/
def Reg.AUD_PORT_ROLL_POSTROLL : Row := ⟨417, 0x1a0000, 0x0, 1, 0x104, 0x40, 16, 16, 16, .ro, 0, 0⟩
/-- `STATE.STATE` (R345). -/
def Reg.AUD_PORT_STATE : Row := ⟨418, 0x1a0000, 0x0, 1, 0x108, 0x40, 16, 0, 3, .ro, 0, 0⟩
/-- `FRAMES.COUNT` (R345). -/
def Reg.AUD_PORT_FRAMES_COUNT : Row := ⟨419, 0x1a0000, 0x0, 1, 0x10c, 0x40, 16, 0, 32, .ro, 0, 0⟩
/-- `SLIP.DROP` (R345). -/
def Reg.AUD_PORT_SLIP_DROP : Row := ⟨420, 0x1a0000, 0x0, 1, 0x110, 0x40, 16, 0, 16, .ro, 0, 0⟩
/-- `SLIP.REP` (R345). -/
def Reg.AUD_PORT_SLIP_REP : Row := ⟨421, 0x1a0000, 0x0, 1, 0x110, 0x40, 16, 16, 16, .ro, 0, 0⟩
/-- `FILL.ZEROINS` (R345). -/
def Reg.AUD_PORT_FILL_ZEROINS : Row := ⟨422, 0x1a0000, 0x0, 1, 0x114, 0x40, 16, 0, 16, .ro, 0, 0⟩
/-- `FILL.BADFRAME` (R345). -/
def Reg.AUD_PORT_FILL_BADFRAME : Row := ⟨423, 0x1a0000, 0x0, 1, 0x114, 0x40, 16, 16, 16, .ro, 0, 0⟩
/-- `CLKLOSS.COUNT` (R345). -/
def Reg.AUD_PORT_CLKLOSS_COUNT : Row := ⟨424, 0x1a0000, 0x0, 1, 0x118, 0x40, 16, 0, 16, .ro, 0, 0⟩
/-- `PHASE.NS` (R345). -/
def Reg.AUD_PORT_PHASE_NS : Row := ⟨425, 0x1a0000, 0x0, 1, 0x11c, 0x40, 16, 0, 32, .ro, 0, 0⟩
/-- `CFG.ENABLE (active copy)` (R345). -/
def Reg.AUD_PORT_CFG_ENABLE_ACT : Row := ⟨426, 0x1a0000, 0x0, 1, 0x120, 0x40, 16, 0, 1, .ro, 0, 0⟩
/-- `CFG.MASTER (active copy)` (R345). -/
def Reg.AUD_PORT_CFG_MASTER_ACT : Row := ⟨427, 0x1a0000, 0x0, 1, 0x120, 0x40, 16, 1, 1, .ro, 0, 0⟩
/-- `CFG.TX (active copy)` (R345). -/
def Reg.AUD_PORT_CFG_TX_ACT : Row := ⟨428, 0x1a0000, 0x0, 1, 0x120, 0x40, 16, 2, 1, .ro, 0, 0⟩
/-- `CFG.FRAME (active copy)` (R345). -/
def Reg.AUD_PORT_CFG_FRAME_ACT : Row := ⟨429, 0x1a0000, 0x0, 1, 0x120, 0x40, 16, 3, 2, .ro, 0, 0⟩
/-- `CFG.SLOTBITS (active copy)` (R345). -/
def Reg.AUD_PORT_CFG_SLOTBITS_ACT : Row := ⟨430, 0x1a0000, 0x0, 1, 0x120, 0x40, 16, 8, 6, .ro, 32, 0⟩
/-- `CFG.RATE (active copy)` (R345). -/
def Reg.AUD_PORT_CFG_RATE_ACT : Row := ⟨431, 0x1a0000, 0x0, 1, 0x120, 0x40, 16, 14, 1, .ro, 0, 0⟩
/-- `CFG.GROUP (active copy)` (R345). -/
def Reg.AUD_PORT_CFG_GROUP_ACT : Row := ⟨432, 0x1a0000, 0x0, 1, 0x120, 0x40, 16, 16, 8, .ro, 255, 0⟩
/-- `ROLL.PREROLL (active copy)` (R345). -/
def Reg.AUD_PORT_ROLL_PREROLL_ACT : Row := ⟨433, 0x1a0000, 0x0, 1, 0x124, 0x40, 16, 0, 16, .ro, 0, 0⟩
/-- `ROLL.POSTROLL (active copy)` (R345). -/
def Reg.AUD_PORT_ROLL_POSTROLL_ACT : Row := ⟨434, 0x1a0000, 0x0, 1, 0x124, 0x40, 16, 16, 16, .ro, 0, 0⟩

/-- The rows of block AUD. -/
def Reg.rowsAUD : List Row :=
  [Reg.AUD_AUDSTAT_ENABLED, Reg.AUD_AUDSTAT_CLKOK, Reg.AUD_MCLKCTL_OUT, Reg.AUD_MCLKIN_PPM, Reg.AUD_MCLKIN_PRESENT, Reg.AUD_GRPREF_REF, Reg.AUD_PORT_CFG_ENABLE, Reg.AUD_PORT_CFG_MASTER, Reg.AUD_PORT_CFG_TX, Reg.AUD_PORT_CFG_FRAME, Reg.AUD_PORT_CFG_SLOTBITS, Reg.AUD_PORT_CFG_RATE, Reg.AUD_PORT_CFG_GROUP, Reg.AUD_PORT_ROLL_PREROLL, Reg.AUD_PORT_ROLL_POSTROLL, Reg.AUD_PORT_STATE, Reg.AUD_PORT_FRAMES_COUNT, Reg.AUD_PORT_SLIP_DROP, Reg.AUD_PORT_SLIP_REP, Reg.AUD_PORT_FILL_ZEROINS, Reg.AUD_PORT_FILL_BADFRAME, Reg.AUD_PORT_CLKLOSS_COUNT, Reg.AUD_PORT_PHASE_NS, Reg.AUD_PORT_CFG_ENABLE_ACT, Reg.AUD_PORT_CFG_MASTER_ACT] ++
  [Reg.AUD_PORT_CFG_TX_ACT, Reg.AUD_PORT_CFG_FRAME_ACT, Reg.AUD_PORT_CFG_SLOTBITS_ACT, Reg.AUD_PORT_CFG_RATE_ACT, Reg.AUD_PORT_CFG_GROUP_ACT, Reg.AUD_PORT_ROLL_PREROLL_ACT, Reg.AUD_PORT_ROLL_POSTROLL_ACT]

/-! Block SDS: R362. -/

/-- `LSTAT.STATE` (R362). -/
def Reg.SDS_LSTAT_STATE : Row := ⟨435, 0x200000, 0x800, 32, 0x0, 0x0, 1, 0, 3, .ro, 0, 0⟩
/-- `LSTAT.RXINV` (R362). -/
def Reg.SDS_LSTAT_RXINV : Row := ⟨436, 0x200000, 0x800, 32, 0x0, 0x0, 1, 3, 1, .ro, 0, 0⟩
/-- `LSTAT.SIGDET` (R362). -/
def Reg.SDS_LSTAT_SIGDET : Row := ⟨437, 0x200000, 0x800, 32, 0x0, 0x0, 1, 4, 1, .ro, 0, 0⟩
/-- `LSTAT.CDRLOCK` (R362). -/
def Reg.SDS_LSTAT_CDRLOCK : Row := ⟨438, 0x200000, 0x800, 32, 0x0, 0x0, 1, 5, 1, .ro, 0, 0⟩
/-- `LSTAT.PLLLOCK` (R362). -/
def Reg.SDS_LSTAT_PLLLOCK : Row := ⟨439, 0x200000, 0x800, 32, 0x0, 0x0, 1, 6, 1, .ro, 0, 0⟩
/-- `LSTAT.FOM` (R362). -/
def Reg.SDS_LSTAT_FOM : Row := ⟨440, 0x200000, 0x800, 32, 0x0, 0x0, 1, 8, 8, .ro, 0, 0⟩
/-- `LCTL.RESTART` (R362). -/
def Reg.SDS_LCTL_RESTART : Row := ⟨441, 0x200000, 0x800, 32, 0x4, 0x0, 1, 0, 1, .w1s, 0, 0⟩
/-- `LCTL.TXINV` (R362). -/
def Reg.SDS_LCTL_TXINV : Row := ⟨442, 0x200000, 0x800, 32, 0x4, 0x0, 1, 1, 1, .rwl, 0, 0⟩
/-- `LCTL.RXINV_FORCE` (R362). -/
def Reg.SDS_LCTL_RXINV_FORCE : Row := ⟨443, 0x200000, 0x800, 32, 0x4, 0x0, 1, 2, 1, .rwl, 0, 0⟩
/-- `LCTL.RXINV_AUTO` (R362). -/
def Reg.SDS_LCTL_RXINV_AUTO : Row := ⟨444, 0x200000, 0x800, 32, 0x4, 0x0, 1, 3, 1, .rwl, 1, 0⟩
/-- `FOMTHR.WARN` (R362). -/
def Reg.SDS_FOMTHR_WARN : Row := ⟨445, 0x200000, 0x800, 32, 0x8, 0x0, 1, 0, 8, .rwl, 104, 0⟩
/-- `FOMTHR.FAIL` (R362). -/
def Reg.SDS_FOMTHR_FAIL : Row := ⟨446, 0x200000, 0x800, 32, 0x8, 0x0, 1, 8, 8, .rwl, 88, 0⟩
/-- `FOMTHR.HYST` (R362). -/
def Reg.SDS_FOMTHR_HYST : Row := ⟨447, 0x200000, 0x800, 32, 0x8, 0x0, 1, 16, 4, .rwl, 4, 0⟩
/-- `FOMMIN.FOM` (R362). -/
def Reg.SDS_FOMMIN_FOM : Row := ⟨448, 0x200000, 0x800, 32, 0xc, 0x0, 1, 0, 8, .rc, 255, 0⟩
/-- `TXEQ.PRE` (R362). -/
def Reg.SDS_TXEQ_PRE : Row := ⟨449, 0x200000, 0x800, 32, 0x10, 0x0, 1, 0, 6, .rwl, 0, 0⟩
/-- `TXEQ.MAIN` (R362). -/
def Reg.SDS_TXEQ_MAIN : Row := ⟨450, 0x200000, 0x800, 32, 0x10, 0x0, 1, 8, 6, .rwl, 0, 0⟩
/-- `TXEQ.POST` (R362). -/
def Reg.SDS_TXEQ_POST : Row := ⟨451, 0x200000, 0x800, 32, 0x10, 0x0, 1, 16, 6, .rwl, 0, 0⟩
/-- `RXEQ.CTLE` (R362). -/
def Reg.SDS_RXEQ_CTLE : Row := ⟨452, 0x200000, 0x800, 32, 0x14, 0x0, 1, 0, 4, .ro, 0, 0⟩
/-- `RXEQ.DFE1` (R362). -/
def Reg.SDS_RXEQ_DFE1 : Row := ⟨453, 0x200000, 0x800, 32, 0x14, 0x0, 1, 8, 8, .ro, 0, 0⟩
/-- `RXEQ.VGA` (R362). -/
def Reg.SDS_RXEQ_VGA : Row := ⟨454, 0x200000, 0x800, 32, 0x14, 0x0, 1, 16, 8, .ro, 0, 0⟩
/-- `ADAPTCTL.BG` (R362). -/
def Reg.SDS_ADAPTCTL_BG : Row := ⟨455, 0x200000, 0x800, 32, 0x18, 0x0, 1, 0, 1, .rwl, 1, 0⟩
/-- `ADAPTCTL.INTERVAL_MS` (R362). -/
def Reg.SDS_ADAPTCTL_INTERVAL_MS : Row := ⟨456, 0x200000, 0x800, 32, 0x18, 0x0, 1, 8, 8, .rwl, 100, 0⟩
/-- `COUNTS.RESTARTS` (R362). -/
def Reg.SDS_COUNTS_RESTARTS : Row := ⟨457, 0x200000, 0x800, 32, 0x1c, 0x0, 1, 0, 16, .ro, 0, 0⟩
/-- `COUNTS.ADAPTFAIL` (R362). -/
def Reg.SDS_COUNTS_ADAPTFAIL : Row := ⟨458, 0x200000, 0x800, 32, 0x1c, 0x0, 1, 16, 16, .ro, 0, 0⟩
/-- `LOSS.LOS` (R362). -/
def Reg.SDS_LOSS_LOS : Row := ⟨459, 0x200000, 0x800, 32, 0x20, 0x0, 1, 0, 16, .ro, 0, 0⟩
/-- `LOSS.CDRUNLOCK` (R362). -/
def Reg.SDS_LOSS_CDRUNLOCK : Row := ⟨460, 0x200000, 0x800, 32, 0x20, 0x0, 1, 16, 16, .ro, 0, 0⟩
/-- `TYH.LANEID` (R362). -/
def Reg.SDS_TYH_LANEID : Row := ⟨461, 0x200000, 0x800, 32, 0x24, 0x0, 1, 0, 4, .ro, 0, 0⟩
/-- `TYH.SBLOCK` (R362). -/
def Reg.SDS_TYH_SBLOCK : Row := ⟨462, 0x200000, 0x800, 32, 0x24, 0x0, 1, 4, 1, .ro, 0, 0⟩
/-- `TYH.DESKEW` (R362). -/
def Reg.SDS_TYH_DESKEW : Row := ⟨463, 0x200000, 0x800, 32, 0x24, 0x0, 1, 8, 3, .ro, 0, 0⟩
/-- `HCRCERR.COUNT` (R362). -/
def Reg.SDS_HCRCERR_COUNT : Row := ⟨464, 0x200000, 0x800, 32, 0x28, 0x0, 1, 0, 32, .ro, 0, 0⟩
/-- `STUFFCNT.BITS` (R362). -/
def Reg.SDS_STUFFCNT_BITS : Row := ⟨465, 0x200000, 0x800, 32, 0x2c, 0x0, 1, 0, 32, .ro, 0, 0⟩
/-- `EYECTL.START` (R362). -/
def Reg.SDS_EYECTL_START : Row := ⟨466, 0x200000, 0x800, 32, 0x30, 0x0, 1, 0, 1, .w1s, 0, 0⟩
/-- `EYECTL.DONE` (R362). -/
def Reg.SDS_EYECTL_DONE : Row := ⟨467, 0x200000, 0x800, 32, 0x30, 0x0, 1, 1, 1, .ro, 0, 0⟩
/-- `EYECTL.PHASE` (R362). -/
def Reg.SDS_EYECTL_PHASE : Row := ⟨468, 0x200000, 0x800, 32, 0x30, 0x0, 1, 8, 7, .rw, 0, 0⟩
/-- `EYECTL.VOFS` (R362). -/
def Reg.SDS_EYECTL_VOFS : Row := ⟨469, 0x200000, 0x800, 32, 0x30, 0x0, 1, 16, 7, .rw, 0, 0⟩
/-- `EYECTL.LOG2BITS` (R362). -/
def Reg.SDS_EYECTL_LOG2BITS : Row := ⟨470, 0x200000, 0x800, 32, 0x30, 0x0, 1, 24, 5, .rw, 24, 0⟩
/-- `EYERES.COUNT` (R362). -/
def Reg.SDS_EYERES_COUNT : Row := ⟨471, 0x200000, 0x800, 32, 0x34, 0x0, 1, 0, 32, .ro, 0, 0⟩
/-- `INJCTL.MODE` (R362). -/
def Reg.SDS_INJCTL_MODE : Row := ⟨472, 0x200000, 0x800, 32, 0x38, 0x0, 1, 0, 2, .rwl, 0, 0⟩
/-- `INJCTL.FIRE` (R362). -/
def Reg.SDS_INJCTL_FIRE : Row := ⟨473, 0x200000, 0x800, 32, 0x38, 0x0, 1, 2, 1, .w1s, 0, 0⟩
/-- `INJCTL.BITS` (R362). -/
def Reg.SDS_INJCTL_BITS : Row := ⟨474, 0x200000, 0x800, 32, 0x38, 0x0, 1, 8, 4, .rwl, 1, 0⟩
/-- `INJPERIOD.UI` (R362). -/
def Reg.SDS_INJPERIOD_UI : Row := ⟨475, 0x200000, 0x800, 32, 0x3c, 0x0, 1, 0, 32, .rwl, 1024, 0⟩
/-- `INJCNT.COUNT` (R362). -/
def Reg.SDS_INJCNT_COUNT : Row := ⟨476, 0x200000, 0x800, 32, 0x40, 0x0, 1, 0, 32, .ro, 0, 0⟩

/-- The rows of block SDS. -/
def Reg.rowsSDS : List Row :=
  [Reg.SDS_LSTAT_STATE, Reg.SDS_LSTAT_RXINV, Reg.SDS_LSTAT_SIGDET, Reg.SDS_LSTAT_CDRLOCK, Reg.SDS_LSTAT_PLLLOCK, Reg.SDS_LSTAT_FOM, Reg.SDS_LCTL_RESTART, Reg.SDS_LCTL_TXINV, Reg.SDS_LCTL_RXINV_FORCE, Reg.SDS_LCTL_RXINV_AUTO, Reg.SDS_FOMTHR_WARN, Reg.SDS_FOMTHR_FAIL, Reg.SDS_FOMTHR_HYST, Reg.SDS_FOMMIN_FOM, Reg.SDS_TXEQ_PRE, Reg.SDS_TXEQ_MAIN, Reg.SDS_TXEQ_POST, Reg.SDS_RXEQ_CTLE, Reg.SDS_RXEQ_DFE1, Reg.SDS_RXEQ_VGA, Reg.SDS_ADAPTCTL_BG, Reg.SDS_ADAPTCTL_INTERVAL_MS, Reg.SDS_COUNTS_RESTARTS, Reg.SDS_COUNTS_ADAPTFAIL, Reg.SDS_LOSS_LOS] ++
  [Reg.SDS_LOSS_CDRUNLOCK, Reg.SDS_TYH_LANEID, Reg.SDS_TYH_SBLOCK, Reg.SDS_TYH_DESKEW, Reg.SDS_HCRCERR_COUNT, Reg.SDS_STUFFCNT_BITS, Reg.SDS_EYECTL_START, Reg.SDS_EYECTL_DONE, Reg.SDS_EYECTL_PHASE, Reg.SDS_EYECTL_VOFS, Reg.SDS_EYECTL_LOG2BITS, Reg.SDS_EYERES_COUNT, Reg.SDS_INJCTL_MODE, Reg.SDS_INJCTL_FIRE, Reg.SDS_INJCTL_BITS, Reg.SDS_INJPERIOD_UI, Reg.SDS_INJCNT_COUNT]

/-! Block PAIR: R389. -/

/-- `PAIRSTAT.ROLE` (R389). -/
def Reg.PAIR_PAIRSTAT_ROLE : Row := ⟨477, 0x1c0000, 0x0, 1, 0x0, 0x0, 1, 0, 2, .ro, 0, 0⟩
/-- `PAIRSTAT.ENABLED` (R389). -/
def Reg.PAIR_PAIRSTAT_ENABLED : Row := ⟨478, 0x1c0000, 0x0, 1, 0x0, 0x0, 1, 2, 1, .ro, 0, 0⟩
/-- `PAIRSTAT.IMAGE` (R389). -/
def Reg.PAIR_PAIRSTAT_IMAGE : Row := ⟨479, 0x1c0000, 0x0, 1, 0x0, 0x0, 1, 3, 1, .ro, 0, 0⟩
/-- `PAIRSTAT.LINKUP` (R389). -/
def Reg.PAIR_PAIRSTAT_LINKUP : Row := ⟨480, 0x1c0000, 0x0, 1, 0x0, 0x0, 1, 4, 1, .ro, 0, 0⟩
/-- `PAIRSTAT.HBLINK` (R389). -/
def Reg.PAIR_PAIRSTAT_HBLINK : Row := ⟨481, 0x1c0000, 0x0, 1, 0x0, 0x0, 1, 5, 1, .ro, 0, 0⟩
/-- `PAIRSTAT.HBLINE` (R389). -/
def Reg.PAIR_PAIRSTAT_HBLINE : Row := ⟨482, 0x1c0000, 0x0, 1, 0x0, 0x0, 1, 6, 1, .ro, 0, 0⟩
/-- `PAIRSTAT.LOCKOUT` (R389). -/
def Reg.PAIR_PAIRSTAT_LOCKOUT : Row := ⟨483, 0x1c0000, 0x0, 1, 0x0, 0x0, 1, 7, 1, .ro, 0, 0⟩
/-- `PAIRSTAT.LOCKIN` (R389). -/
def Reg.PAIR_PAIRSTAT_LOCKIN : Row := ⟨484, 0x1c0000, 0x0, 1, 0x0, 0x0, 1, 8, 1, .ro, 0, 0⟩
/-- `PAIRSTAT.SLOT` (R389). -/
def Reg.PAIR_PAIRSTAT_SLOT : Row := ⟨485, 0x1c0000, 0x0, 1, 0x0, 0x0, 1, 9, 1, .ro, 0, 0⟩
/-- `PAIRSTAT.PRESENT` (R389). -/
def Reg.PAIR_PAIRSTAT_PRESENT : Row := ⟨486, 0x1c0000, 0x0, 1, 0x0, 0x0, 1, 10, 1, .ro, 0, 0⟩
/-- `PAIRSTAT.CAUSE` (R389). -/
def Reg.PAIR_PAIRSTAT_CAUSE : Row := ⟨487, 0x1c0000, 0x0, 1, 0x0, 0x0, 1, 16, 4, .ro, 0, 0⟩
/-- `HBCFG.PERIOD_US` (R389). -/
def Reg.PAIR_HBCFG_PERIOD_US : Row := ⟨488, 0x1c0000, 0x0, 1, 0x4, 0x0, 1, 0, 10, .ro, 250, 0⟩
/-- `HBTIMEOUT.US` (R389). -/
def Reg.PAIR_HBTIMEOUT_US : Row := ⟨489, 0x1c0000, 0x0, 1, 0x8, 0x0, 1, 0, 32, .ro, 2000, 0⟩
/-- `JOINTO.MS` (R389). -/
def Reg.PAIR_JOINTO_MS : Row := ⟨490, 0x1c0000, 0x0, 1, 0xc, 0x0, 1, 0, 32, .ro, 0, 0⟩
/-- `PARTNER.PPV` (R389). -/
def Reg.PAIR_PARTNER_PPV : Row := ⟨491, 0x1c0000, 0x0, 1, 0x10, 0x0, 1, 0, 32, .ro, 0, 0⟩
/-- `PARTNER.FWVER` (R389). -/
def Reg.PAIR_PARTNER_FWVER : Row := ⟨492, 0x1c0000, 0x0, 1, 0x14, 0x0, 1, 0, 32, .ro, 0, 0⟩
/-- `OCN.LOCAL` (R389). -/
def Reg.PAIR_OCN_LOCAL : Row := ⟨493, 0x1c0000, 0x0, 1, 0x18, 0x0, 1, 0, 16, .ro, 0, 0⟩
/-- `OCN.PARTNER` (R389). -/
def Reg.PAIR_OCN_PARTNER : Row := ⟨494, 0x1c0000, 0x0, 1, 0x18, 0x0, 1, 16, 16, .ro, 0, 0⟩
/-- `MUTETIME.NS` (R389). -/
def Reg.PAIR_MUTETIME_NS : Row := ⟨495, 0x1c0000, 0x0, 1, 0x20, 0x0, 1, 0, 64, .ro, 0, 0⟩
/-- `ROLECNT.MUTES` (R389). -/
def Reg.PAIR_ROLECNT_MUTES : Row := ⟨496, 0x1c0000, 0x0, 1, 0x28, 0x0, 1, 0, 16, .ro, 0, 0⟩
/-- `ROLECNT.CLAIMS` (R389). -/
def Reg.PAIR_ROLECNT_CLAIMS : Row := ⟨497, 0x1c0000, 0x0, 1, 0x28, 0x0, 1, 16, 16, .ro, 0, 0⟩
/-- `CHKMIS.COUNT` (R389). -/
def Reg.PAIR_CHKMIS_COUNT : Row := ⟨498, 0x1c0000, 0x0, 1, 0x2c, 0x0, 1, 0, 32, .ro, 0, 0⟩
/-- `CHKMISSING.COUNT` (R389). -/
def Reg.PAIR_CHKMISSING_COUNT : Row := ⟨499, 0x1c0000, 0x0, 1, 0x30, 0x0, 1, 0, 32, .ro, 0, 0⟩
/-- `CHKOK.COUNT` (R389). -/
def Reg.PAIR_CHKOK_COUNT : Row := ⟨500, 0x1c0000, 0x0, 1, 0x38, 0x0, 1, 0, 64, .ro, 0, 0⟩
/-- `HBSILENT.LINK` (R389). -/
def Reg.PAIR_HBSILENT_LINK : Row := ⟨501, 0x1c0000, 0x0, 1, 0x40, 0x0, 1, 0, 16, .ro, 0, 0⟩
/-- `HBSILENT.LINE` (R389). -/
def Reg.PAIR_HBSILENT_LINE : Row := ⟨502, 0x1c0000, 0x0, 1, 0x40, 0x0, 1, 16, 16, .ro, 0, 0⟩
/-- `LINKRETX.COUNT` (R389). -/
def Reg.PAIR_LINKRETX_COUNT : Row := ⟨503, 0x1c0000, 0x0, 1, 0x44, 0x0, 1, 0, 32, .ro, 0, 0⟩
/-- `LINKGIVEUP.HB` (R389). -/
def Reg.PAIR_LINKGIVEUP_HB : Row := ⟨504, 0x1c0000, 0x0, 1, 0x48, 0x0, 1, 0, 8, .ro, 0, 0⟩
/-- `LINKGIVEUP.MIRROR` (R389). -/
def Reg.PAIR_LINKGIVEUP_MIRROR : Row := ⟨505, 0x1c0000, 0x0, 1, 0x48, 0x0, 1, 8, 8, .ro, 0, 0⟩
/-- `LINKGIVEUP.DATA` (R389). -/
def Reg.PAIR_LINKGIVEUP_DATA : Row := ⟨506, 0x1c0000, 0x0, 1, 0x48, 0x0, 1, 16, 8, .ro, 0, 0⟩
/-- `MIRRORSEQ.TX` (R389). -/
def Reg.PAIR_MIRRORSEQ_TX : Row := ⟨507, 0x1c0000, 0x0, 1, 0x4c, 0x0, 1, 0, 16, .ro, 0, 0⟩
/-- `MIRRORSEQ.RX` (R389). -/
def Reg.PAIR_MIRRORSEQ_RX : Row := ⟨508, 0x1c0000, 0x0, 1, 0x4c, 0x0, 1, 16, 16, .ro, 0, 0⟩
/-- `REPAIRREQ.COUNT` (R389). -/
def Reg.PAIR_REPAIRREQ_COUNT : Row := ⟨509, 0x1c0000, 0x0, 1, 0x50, 0x0, 1, 0, 32, .ro, 0, 0⟩
/-- `REPAIRANS.COUNT` (R389). -/
def Reg.PAIR_REPAIRANS_COUNT : Row := ⟨510, 0x1c0000, 0x0, 1, 0x54, 0x0, 1, 0, 32, .ro, 0, 0⟩
/-- `REPAIRLATE.COUNT` (R389). -/
def Reg.PAIR_REPAIRLATE_COUNT : Row := ⟨511, 0x1c0000, 0x0, 1, 0x58, 0x0, 1, 0, 32, .ro, 0, 0⟩
/-- `RCWAIT.COUNT` (R389). -/
def Reg.PAIR_RCWAIT_COUNT : Row := ⟨512, 0x1c0000, 0x0, 1, 0x5c, 0x0, 1, 0, 32, .ro, 0, 0⟩
/-- `LASTMIS.CHANNEL` (R389). -/
def Reg.PAIR_LASTMIS_CHANNEL : Row := ⟨513, 0x1c0000, 0x0, 1, 0x60, 0x0, 1, 0, 8, .ro, 0, 0⟩
/-- `LASTMIS.STREAM` (R389). -/
def Reg.PAIR_LASTMIS_STREAM : Row := ⟨514, 0x1c0000, 0x0, 1, 0x60, 0x0, 1, 8, 1, .ro, 0, 0⟩
/-- `LASTMIS.ROW` (R389). -/
def Reg.PAIR_LASTMIS_ROW : Row := ⟨515, 0x1c0000, 0x0, 1, 0x60, 0x0, 1, 16, 16, .ro, 0, 0⟩
/-- `LASTMIS.FRAME` (R389). -/
def Reg.PAIR_LASTMIS_FRAME : Row := ⟨516, 0x1c0000, 0x0, 1, 0x68, 0x0, 1, 0, 64, .ro, 0, 0⟩
/-- `CONV[n].RUN` (R389). -/
def Reg.PAIR_CONV_RUN : Row := ⟨517, 0x1c0000, 0x0, 1, 0x100, 0x4, 64, 0, 16, .ro, 0, 0⟩
/-- `CONV[n].FOLLOW` (R389). -/
def Reg.PAIR_CONV_FOLLOW : Row := ⟨518, 0x1c0000, 0x0, 1, 0x100, 0x4, 64, 16, 1, .ro, 0, 0⟩
/-- `CONV[n].CLEAN` (R389). -/
def Reg.PAIR_CONV_CLEAN : Row := ⟨519, 0x1c0000, 0x0, 1, 0x100, 0x4, 64, 17, 1, .ro, 0, 0⟩

/-- The rows of block PAIR. -/
def Reg.rowsPAIR : List Row :=
  [Reg.PAIR_PAIRSTAT_ROLE, Reg.PAIR_PAIRSTAT_ENABLED, Reg.PAIR_PAIRSTAT_IMAGE, Reg.PAIR_PAIRSTAT_LINKUP, Reg.PAIR_PAIRSTAT_HBLINK, Reg.PAIR_PAIRSTAT_HBLINE, Reg.PAIR_PAIRSTAT_LOCKOUT, Reg.PAIR_PAIRSTAT_LOCKIN, Reg.PAIR_PAIRSTAT_SLOT, Reg.PAIR_PAIRSTAT_PRESENT, Reg.PAIR_PAIRSTAT_CAUSE, Reg.PAIR_HBCFG_PERIOD_US, Reg.PAIR_HBTIMEOUT_US, Reg.PAIR_JOINTO_MS, Reg.PAIR_PARTNER_PPV, Reg.PAIR_PARTNER_FWVER, Reg.PAIR_OCN_LOCAL, Reg.PAIR_OCN_PARTNER, Reg.PAIR_MUTETIME_NS, Reg.PAIR_ROLECNT_MUTES, Reg.PAIR_ROLECNT_CLAIMS, Reg.PAIR_CHKMIS_COUNT, Reg.PAIR_CHKMISSING_COUNT, Reg.PAIR_CHKOK_COUNT, Reg.PAIR_HBSILENT_LINK] ++
  [Reg.PAIR_HBSILENT_LINE, Reg.PAIR_LINKRETX_COUNT, Reg.PAIR_LINKGIVEUP_HB, Reg.PAIR_LINKGIVEUP_MIRROR, Reg.PAIR_LINKGIVEUP_DATA, Reg.PAIR_MIRRORSEQ_TX, Reg.PAIR_MIRRORSEQ_RX, Reg.PAIR_REPAIRREQ_COUNT, Reg.PAIR_REPAIRANS_COUNT, Reg.PAIR_REPAIRLATE_COUNT, Reg.PAIR_RCWAIT_COUNT, Reg.PAIR_LASTMIS_CHANNEL, Reg.PAIR_LASTMIS_STREAM, Reg.PAIR_LASTMIS_ROW, Reg.PAIR_LASTMIS_FRAME, Reg.PAIR_CONV_RUN, Reg.PAIR_CONV_FOLLOW, Reg.PAIR_CONV_CLEAN]

/-! Block DMC: R407. -/

/-- `CHSTAT.STATE` (R407). -/
def Reg.DMC_CHSTAT_STATE : Row := ⟨520, 0x300000, 0x1000, 24, 0x0, 0x0, 1, 0, 3, .ro, 0, 0⟩
/-- `CHSTAT.POINT` (R407). -/
def Reg.DMC_CHSTAT_POINT : Row := ⟨521, 0x300000, 0x1000, 24, 0x0, 0x0, 1, 4, 2, .ro, 0, 0⟩
/-- `CHSTAT.RATE` (R407). -/
def Reg.DMC_CHSTAT_RATE : Row := ⟨522, 0x300000, 0x1000, 24, 0x0, 0x0, 1, 8, 2, .ro, 0, 0⟩
/-- `CHSTAT.TRAINED` (R407). -/
def Reg.DMC_CHSTAT_TRAINED : Row := ⟨523, 0x300000, 0x1000, 24, 0x0, 0x0, 1, 12, 4, .ro, 0, 0⟩
/-- `GEOM.DENSITY` (R407). -/
def Reg.DMC_GEOM_DENSITY : Row := ⟨524, 0x300000, 0x1000, 24, 0x4, 0x0, 1, 0, 4, .ro, 0, 0⟩
/-- `GEOM.RANKS` (R407). -/
def Reg.DMC_GEOM_RANKS : Row := ⟨525, 0x300000, 0x1000, 24, 0x4, 0x0, 1, 4, 1, .ro, 0, 0⟩
/-- `REFCFG.POSTMAX` (R407). -/
def Reg.DMC_REFCFG_POSTMAX : Row := ⟨526, 0x300000, 0x1000, 24, 0x8, 0x0, 1, 0, 4, .rwl, 8, 0⟩
/-- `REFCFG.MR4_INT` (R407). -/
def Reg.DMC_REFCFG_MR4_INT : Row := ⟨527, 0x300000, 0x1000, 24, 0x8, 0x0, 1, 8, 16, .rwl, 250, 0⟩
/-- `TRFC.NS` (R407). -/
def Reg.DMC_TRFC_NS : Row := ⟨528, 0x300000, 0x1000, 24, 0xc, 0x0, 1, 0, 10, .ro, 0, 0⟩
/-- `REFCNT.ISSUED` (R407). -/
def Reg.DMC_REFCNT_ISSUED : Row := ⟨529, 0x300000, 0x1000, 24, 0x10, 0x0, 1, 0, 32, .ro, 0, 0⟩
/-- `POSTCNT.POSTPONED` (R407). -/
def Reg.DMC_POSTCNT_POSTPONED : Row := ⟨530, 0x300000, 0x1000, 24, 0x14, 0x0, 1, 0, 16, .ro, 0, 0⟩
/-- `POSTCNT.MAXOWED` (R407). -/
def Reg.DMC_POSTCNT_MAXOWED : Row := ⟨531, 0x300000, 0x1000, 24, 0x14, 0x0, 1, 16, 4, .rc, 0, 0⟩
/-- `POSTCNT.CUT` (R407). -/
def Reg.DMC_POSTCNT_CUT : Row := ⟨532, 0x300000, 0x1000, 24, 0x14, 0x0, 1, 20, 12, .ro, 0, 0⟩
/-- `MR4.RANK0` (R407). -/
def Reg.DMC_MR4_RANK0 : Row := ⟨533, 0x300000, 0x1000, 24, 0x18, 0x0, 1, 0, 5, .ro, 0, 0⟩
/-- `MR4.RANK1` (R407). -/
def Reg.DMC_MR4_RANK1 : Row := ⟨534, 0x300000, 0x1000, 24, 0x18, 0x0, 1, 8, 5, .ro, 0, 0⟩
/-- `GUARDCFG.THR` (R407). -/
def Reg.DMC_GUARDCFG_THR : Row := ⟨535, 0x300000, 0x1000, 24, 0x20, 0x0, 1, 0, 16, .rwl, 2048, 0⟩
/-- `GUARDCFG.RADIUS` (R407). -/
def Reg.DMC_GUARDCFG_RADIUS : Row := ⟨536, 0x300000, 0x1000, 24, 0x20, 0x0, 1, 16, 2, .rwl, 2, 0⟩
/-- `GUARDCNT.REFRESHES` (R407). -/
def Reg.DMC_GUARDCNT_REFRESHES : Row := ⟨537, 0x300000, 0x1000, 24, 0x24, 0x0, 1, 0, 32, .ro, 0, 0⟩
/-- `GUARDMAX.COUNT` (R407). -/
def Reg.DMC_GUARDMAX_COUNT : Row := ⟨538, 0x300000, 0x1000, 24, 0x28, 0x0, 1, 0, 16, .rc, 0, 0⟩
/-- `ECCCORR.COUNT` (R407). -/
def Reg.DMC_ECCCORR_COUNT : Row := ⟨539, 0x300000, 0x1000, 24, 0x2c, 0x0, 1, 0, 32, .ro, 0, 0⟩
/-- `ECCUNCORR.COUNT` (R407). -/
def Reg.DMC_ECCUNCORR_COUNT : Row := ⟨540, 0x300000, 0x1000, 24, 0x30, 0x0, 1, 0, 32, .rws, 0, 0⟩
/-- `LASTERR.ADDR` (R407). -/
def Reg.DMC_LASTERR_ADDR : Row := ⟨541, 0x300000, 0x1000, 24, 0x38, 0x0, 1, 0, 40, .ro, 0, 0⟩
/-- `LASTERR.RANK` (R407). -/
def Reg.DMC_LASTERR_RANK : Row := ⟨542, 0x300000, 0x1000, 24, 0x40, 0x0, 1, 0, 1, .ro, 0, 0⟩
/-- `LASTERR.BANK` (R407). -/
def Reg.DMC_LASTERR_BANK : Row := ⟨543, 0x300000, 0x1000, 24, 0x40, 0x0, 1, 1, 4, .ro, 0, 0⟩
/-- `LASTERR.CODELINE` (R407). -/
def Reg.DMC_LASTERR_CODELINE : Row := ⟨544, 0x300000, 0x1000, 24, 0x40, 0x0, 1, 5, 1, .ro, 0, 0⟩
/-- `LASTERR.SCRUB` (R407). -/
def Reg.DMC_LASTERR_SCRUB : Row := ⟨545, 0x300000, 0x1000, 24, 0x40, 0x0, 1, 6, 1, .ro, 0, 0⟩
/-- `SCRUB.INTERVAL` (R407). -/
def Reg.DMC_SCRUB_INTERVAL : Row := ⟨546, 0x300000, 0x1000, 24, 0x44, 0x0, 1, 0, 16, .rwl, 256, 0⟩
/-- `SCRUBPASS.COUNT` (R407). -/
def Reg.DMC_SCRUBPASS_COUNT : Row := ⟨547, 0x300000, 0x1000, 24, 0x48, 0x0, 1, 0, 32, .ro, 0, 0⟩
/-- `EVCAUSE.CAUSE` (R407). -/
def Reg.DMC_EVCAUSE_CAUSE : Row := ⟨548, 0x300000, 0x1000, 24, 0x4c, 0x0, 1, 0, 4, .ro, 0, 0⟩
/-- `TRNCTL.STEP` (R407). -/
def Reg.DMC_TRNCTL_STEP : Row := ⟨549, 0x300000, 0x1000, 24, 0x100, 0x0, 1, 0, 4, .ro, 0, 0⟩
/-- `TRNCTL.PASSED` (R407). -/
def Reg.DMC_TRNCTL_PASSED : Row := ⟨550, 0x300000, 0x1000, 24, 0x100, 0x0, 1, 4, 8, .ro, 0, 0⟩
/-- `TRNCTL.TRNPOINT` (R407). -/
def Reg.DMC_TRNCTL_TRNPOINT : Row := ⟨551, 0x300000, 0x1000, 24, 0x100, 0x0, 1, 12, 2, .ro, 0, 0⟩
/-- `PATCTL.MODE` (R407). -/
def Reg.DMC_PATCTL_MODE : Row := ⟨552, 0x300000, 0x1000, 24, 0x104, 0x0, 1, 0, 2, .ro, 0, 0⟩
/-- `PATCTL.INV` (R407). -/
def Reg.DMC_PATCTL_INV : Row := ⟨553, 0x300000, 0x1000, 24, 0x104, 0x0, 1, 2, 18, .ro, 0, 0⟩
/-- `PATDATA.DATA` (R407). -/
def Reg.DMC_PATDATA_DATA : Row := ⟨554, 0x300000, 0x1000, 24, 0x108, 0x0, 1, 0, 64, .ro, 0, 0⟩
/-- `DQSEL.BIT` (R407). -/
def Reg.DMC_DQSEL_BIT : Row := ⟨555, 0x300000, 0x1000, 24, 0x110, 0x0, 1, 0, 5, .ro, 0, 0⟩
/-- `DQSEL.DIR` (R407). -/
def Reg.DMC_DQSEL_DIR : Row := ⟨556, 0x300000, 0x1000, 24, 0x110, 0x0, 1, 5, 1, .ro, 0, 0⟩
/-- `DQDLY.TAPS` (R407). -/
def Reg.DMC_DQDLY_TAPS : Row := ⟨557, 0x300000, 0x1000, 24, 0x114, 0x0, 1, 0, 9, .ro, 0, 0⟩
/-- `CMPERR.COUNT` (R407). -/
def Reg.DMC_CMPERR_COUNT : Row := ⟨558, 0x300000, 0x1000, 24, 0x118, 0x0, 1, 0, 32, .ro, 0, 0⟩
/-- `VREF.DQ` (R407). -/
def Reg.DMC_VREF_DQ : Row := ⟨559, 0x300000, 0x1000, 24, 0x11c, 0x0, 1, 0, 7, .ro, 0, 0⟩
/-- `VREF.CA` (R407). -/
def Reg.DMC_VREF_CA : Row := ⟨560, 0x300000, 0x1000, 24, 0x11c, 0x0, 1, 8, 7, .ro, 0, 0⟩

/-- The rows of block DMC. -/
def Reg.rowsDMC : List Row :=
  [Reg.DMC_CHSTAT_STATE, Reg.DMC_CHSTAT_POINT, Reg.DMC_CHSTAT_RATE, Reg.DMC_CHSTAT_TRAINED, Reg.DMC_GEOM_DENSITY, Reg.DMC_GEOM_RANKS, Reg.DMC_REFCFG_POSTMAX, Reg.DMC_REFCFG_MR4_INT, Reg.DMC_TRFC_NS, Reg.DMC_REFCNT_ISSUED, Reg.DMC_POSTCNT_POSTPONED, Reg.DMC_POSTCNT_MAXOWED, Reg.DMC_POSTCNT_CUT, Reg.DMC_MR4_RANK0, Reg.DMC_MR4_RANK1, Reg.DMC_GUARDCFG_THR, Reg.DMC_GUARDCFG_RADIUS, Reg.DMC_GUARDCNT_REFRESHES, Reg.DMC_GUARDMAX_COUNT, Reg.DMC_ECCCORR_COUNT, Reg.DMC_ECCUNCORR_COUNT, Reg.DMC_LASTERR_ADDR, Reg.DMC_LASTERR_RANK, Reg.DMC_LASTERR_BANK, Reg.DMC_LASTERR_CODELINE] ++
  [Reg.DMC_LASTERR_SCRUB, Reg.DMC_SCRUB_INTERVAL, Reg.DMC_SCRUBPASS_COUNT, Reg.DMC_EVCAUSE_CAUSE, Reg.DMC_TRNCTL_STEP, Reg.DMC_TRNCTL_PASSED, Reg.DMC_TRNCTL_TRNPOINT, Reg.DMC_PATCTL_MODE, Reg.DMC_PATCTL_INV, Reg.DMC_PATDATA_DATA, Reg.DMC_DQSEL_BIT, Reg.DMC_DQSEL_DIR, Reg.DMC_DQDLY_TAPS, Reg.DMC_CMPERR_COUNT, Reg.DMC_VREF_DQ, Reg.DMC_VREF_CA]

/-! Block MTX: R423. -/

/-- `REMAP.ZERO` (R423). -/
def Reg.MTX_REMAP_ZERO : Row := ⟨561, 0x60000, 0x0, 1, 0x0, 0x0, 1, 0, 1, .rwl, 0, 0⟩
/-- `PARK.MASTER` (R423). -/
def Reg.MTX_PARK_MASTER : Row := ⟨562, 0x60000, 0x0, 1, 0x4, 0x0, 1, 0, 4, .rwl, 6, 0⟩
/-- `ERRSTAT.VALID` (R423). -/
def Reg.MTX_ERRSTAT_VALID : Row := ⟨563, 0x60000, 0x0, 1, 0x8, 0x0, 1, 0, 1, .w1c, 0, 0⟩
/-- `ERRSTAT.MASTER` (R423). -/
def Reg.MTX_ERRSTAT_MASTER : Row := ⟨564, 0x60000, 0x0, 1, 0x8, 0x0, 1, 1, 4, .ro, 0, 0⟩
/-- `ERRSTAT.KIND` (R423). -/
def Reg.MTX_ERRSTAT_KIND : Row := ⟨565, 0x60000, 0x0, 1, 0x8, 0x0, 1, 5, 3, .ro, 0, 0⟩
/-- `ERRSTAT.WRITE` (R423). -/
def Reg.MTX_ERRSTAT_WRITE : Row := ⟨566, 0x60000, 0x0, 1, 0x8, 0x0, 1, 8, 1, .ro, 0, 0⟩
/-- `ERRADDR.ADDR` (R423). -/
def Reg.MTX_ERRADDR_ADDR : Row := ⟨567, 0x60000, 0x0, 1, 0x10, 0x0, 1, 0, 40, .ro, 0, 0⟩
/-- `ERRCNT.DEFAULT` (R423). -/
def Reg.MTX_ERRCNT_DEFAULT : Row := ⟨568, 0x60000, 0x0, 1, 0x18, 0x0, 1, 0, 16, .ro, 0, 0⟩
/-- `ERRCNT.LOCKBRK` (R423). -/
def Reg.MTX_ERRCNT_LOCKBRK : Row := ⟨569, 0x60000, 0x0, 1, 0x18, 0x0, 1, 16, 16, .ro, 0, 0⟩
/-- `ERRCNT2.BRIDGETO` (R423). -/
def Reg.MTX_ERRCNT2_BRIDGETO : Row := ⟨570, 0x60000, 0x0, 1, 0x1c, 0x0, 1, 0, 16, .ro, 0, 0⟩
/-- `DRAMSIZE.BYTES` (R423). -/
def Reg.MTX_DRAMSIZE_BYTES : Row := ⟨571, 0x60000, 0x0, 1, 0x20, 0x0, 1, 0, 40, .ro, 0, 0⟩
/-- `MAXWAIT[m].FCLK` (R423). -/
def Reg.MTX_MAXWAIT_FCLK : Row := ⟨572, 0x60000, 0x0, 1, 0x40, 0x4, 15, 0, 16, .rc, 0, 0⟩

/-- The rows of block MTX. -/
def Reg.rowsMTX : List Row :=
  [Reg.MTX_REMAP_ZERO, Reg.MTX_PARK_MASTER, Reg.MTX_ERRSTAT_VALID, Reg.MTX_ERRSTAT_MASTER, Reg.MTX_ERRSTAT_KIND, Reg.MTX_ERRSTAT_WRITE, Reg.MTX_ERRADDR_ADDR, Reg.MTX_ERRCNT_DEFAULT, Reg.MTX_ERRCNT_LOCKBRK, Reg.MTX_ERRCNT2_BRIDGETO, Reg.MTX_DRAMSIZE_BYTES, Reg.MTX_MAXWAIT_FCLK]

/-! Block CVU: R434. -/

/-- `UNITSEL.UNIT` (R434). -/
def Reg.CVU_UNITSEL_UNIT : Row := ⟨573, 0x800000, 0x0, 1, 0x0, 0x0, 1, 0, 10, .rw, 0, 0⟩
/-- `UNITVIEW.MODE` (R434). -/
def Reg.CVU_UNITVIEW_MODE : Row := ⟨574, 0x800000, 0x0, 1024, 0x4, 0x0, 1, 0, 2, .ro, 0, 5⟩
/-- `UNITVIEW.POLY` (R434). -/
def Reg.CVU_UNITVIEW_POLY : Row := ⟨575, 0x800000, 0x0, 1024, 0x4, 0x0, 1, 2, 2, .ro, 0, 5⟩
/-- `UNITVIEW.COMPARE` (R434). -/
def Reg.CVU_UNITVIEW_COMPARE : Row := ⟨576, 0x800000, 0x0, 1024, 0x4, 0x0, 1, 4, 1, .ro, 0, 5⟩
/-- `UNITVIEW.MISMATCH` (R434). -/
def Reg.CVU_UNITVIEW_MISMATCH : Row := ⟨577, 0x800000, 0x0, 1024, 0x4, 0x0, 1, 5, 1, .w1c, 0, 5⟩
/-- `UNITVIEW.PENDING` (R434). -/
def Reg.CVU_UNITVIEW_PENDING : Row := ⟨578, 0x800000, 0x0, 1024, 0x4, 0x0, 1, 6, 1, .ro, 0, 5⟩
/-- `UNITVIEW.MISCNT` (R434). -/
def Reg.CVU_UNITVIEW_MISCNT : Row := ⟨579, 0x800000, 0x0, 1024, 0x4, 0x0, 1, 16, 16, .ro, 0, 5⟩
/-- `EXPECTVIEW.EXPECT` (R434). -/
def Reg.CVU_EXPECTVIEW_EXPECT : Row := ⟨580, 0x800000, 0x0, 1024, 0x8, 0x0, 1, 0, 32, .ro, 0, 5⟩
/-- `WINVIEW.WINDOWS` (R434). -/
def Reg.CVU_WINVIEW_WINDOWS : Row := ⟨581, 0x800000, 0x0, 1024, 0xc, 0x0, 1, 0, 32, .ro, 0, 5⟩
/-- `GRPSUM.GROUPS` (R434). -/
def Reg.CVU_GRPSUM_GROUPS : Row := ⟨582, 0x800000, 0x0, 1, 0x10, 0x0, 1, 0, 32, .w1c, 0, 0⟩
/-- `CHKONLY.CST` (R434). -/
def Reg.CVU_CHKONLY_CST : Row := ⟨583, 0x800000, 0x0, 1, 0x14, 0x0, 1, 0, 16, .rws, 0, 0⟩
/-- `CHKONLY.TYH` (R434). -/
def Reg.CVU_CHKONLY_TYH : Row := ⟨584, 0x800000, 0x0, 1, 0x14, 0x0, 1, 16, 16, .rws, 0, 0⟩
/-- `CHKONLY2.REF` (R434). -/
def Reg.CVU_CHKONLY2_REF : Row := ⟨585, 0x800000, 0x0, 1, 0x18, 0x0, 1, 0, 16, .rws, 0, 0⟩
/-- `TOTMIS.COUNT` (R434). -/
def Reg.CVU_TOTMIS_COUNT : Row := ⟨586, 0x800000, 0x0, 1, 0x1c, 0x0, 1, 0, 32, .ro, 0, 0⟩
/-- `RESULT[u].VALUE` (R434). -/
def Reg.CVU_RESULT_VALUE : Row := ⟨587, 0x800000, 0x0, 1, 0x1000, 0x4, 1024, 0, 32, .ro, 0, 0⟩

/-- The rows of block CVU. -/
def Reg.rowsCVU : List Row :=
  [Reg.CVU_UNITSEL_UNIT, Reg.CVU_UNITVIEW_MODE, Reg.CVU_UNITVIEW_POLY, Reg.CVU_UNITVIEW_COMPARE, Reg.CVU_UNITVIEW_MISMATCH, Reg.CVU_UNITVIEW_PENDING, Reg.CVU_UNITVIEW_MISCNT, Reg.CVU_EXPECTVIEW_EXPECT, Reg.CVU_WINVIEW_WINDOWS, Reg.CVU_GRPSUM_GROUPS, Reg.CVU_CHKONLY_CST, Reg.CVU_CHKONLY_TYH, Reg.CVU_CHKONLY2_REF, Reg.CVU_TOTMIS_COUNT, Reg.CVU_RESULT_VALUE]

/-! Block EVT: R451. -/

/-- `STAT[w].BITS` (R451). -/
def Reg.EVT_STAT_BITS : Row := ⟨588, 0x10000, 0x0, 1, 0x0, 0x4, 22, 0, 32, .w1c, 0, 0⟩
/-- `MASK[w].BITS` (R451). -/
def Reg.EVT_MASK_BITS : Row := ⟨589, 0x10000, 0x0, 1, 0x80, 0x4, 22, 0, 32, .rw, 0, 0⟩
/-- `ROUTE[g].VECTOR` (R451). -/
def Reg.EVT_ROUTE_VECTOR : Row := ⟨590, 0x10000, 0x0, 1, 0x100, 0x4, 21, 0, 6, .rw, 0, 0⟩
/-- `ROUTE[g].EN` (R451). -/
def Reg.EVT_ROUTE_EN : Row := ⟨591, 0x10000, 0x0, 1, 0x100, 0x4, 21, 8, 1, .rw, 0, 0⟩
/-- `PENDSUM.WORDS` (R451). -/
def Reg.EVT_PENDSUM_WORDS : Row := ⟨592, 0x10000, 0x0, 1, 0x180, 0x0, 1, 0, 22, .ro, 0, 0⟩
/-- `OCCSEL.SRC` (R451). -/
def Reg.EVT_OCCSEL_SRC : Row := ⟨593, 0x10000, 0x0, 1, 0x184, 0x0, 1, 0, 10, .rw, 0, 0⟩
/-- `OCCVIEW.COUNT` (R451). -/
def Reg.EVT_OCCVIEW_COUNT : Row := ⟨594, 0x10000, 0x0, 1024, 0x188, 0x0, 1, 0, 32, .ro, 0, 6⟩
/-- `OCCCLR.CLEAR` (R451). -/
def Reg.EVT_OCCCLR_CLEAR : Row := ⟨595, 0x10000, 0x0, 1, 0x18c, 0x0, 1, 0, 1, .w1s, 0, 0⟩
/-- `EQSTAT.BACKLOG` (R451). -/
def Reg.EVT_EQSTAT_BACKLOG : Row := ⟨596, 0x10000, 0x0, 1, 0x190, 0x0, 1, 0, 9, .ro, 0, 0⟩
/-- `EQSTAT.FULL` (R451). -/
def Reg.EVT_EQSTAT_FULL : Row := ⟨597, 0x10000, 0x0, 1, 0x190, 0x0, 1, 16, 1, .ro, 0, 0⟩
/-- `EQDROP.COUNT` (R451). -/
def Reg.EVT_EQDROP_COUNT : Row := ⟨598, 0x10000, 0x0, 1, 0x194, 0x0, 1, 0, 32, .ro, 0, 0⟩
/-- `AODROP.COUNT` (R451). -/
def Reg.EVT_AODROP_COUNT : Row := ⟨599, 0x10000, 0x0, 1, 0x198, 0x0, 1, 0, 32, .ro, 0, 0⟩
/-- `SAFESTAT.CAUSE` (R451). -/
def Reg.EVT_SAFESTAT_CAUSE : Row := ⟨600, 0x10000, 0x0, 1, 0x1a0, 0x0, 1, 0, 4, .rws, 0, 0⟩
/-- `SAFESTAT.SAFE` (R451). -/
def Reg.EVT_SAFESTAT_SAFE : Row := ⟨601, 0x10000, 0x0, 1, 0x1a0, 0x0, 1, 4, 1, .ro, 0, 0⟩
/-- `SAFEINFO.INFO` (R451). -/
def Reg.EVT_SAFEINFO_INFO : Row := ⟨602, 0x10000, 0x0, 1, 0x1a4, 0x0, 1, 0, 32, .rws, 0, 0⟩
/-- `RECORDS.COUNT` (R451). -/
def Reg.EVT_RECORDS_COUNT : Row := ⟨603, 0x10000, 0x0, 1, 0x1a8, 0x0, 1, 0, 64, .ro, 0, 0⟩
/-- `LASTSRC.SRC` (R451). -/
def Reg.EVT_LASTSRC_SRC : Row := ⟨604, 0x10000, 0x0, 1, 0x1b0, 0x0, 1, 0, 10, .ro, 0, 0⟩
/-- `LASTSRC.CLASS` (R451). -/
def Reg.EVT_LASTSRC_CLASS : Row := ⟨605, 0x10000, 0x0, 1, 0x1b0, 0x0, 1, 16, 3, .ro, 0, 0⟩

/-- The rows of block EVT. -/
def Reg.rowsEVT : List Row :=
  [Reg.EVT_STAT_BITS, Reg.EVT_MASK_BITS, Reg.EVT_ROUTE_VECTOR, Reg.EVT_ROUTE_EN, Reg.EVT_PENDSUM_WORDS, Reg.EVT_OCCSEL_SRC, Reg.EVT_OCCVIEW_COUNT, Reg.EVT_OCCCLR_CLEAR, Reg.EVT_EQSTAT_BACKLOG, Reg.EVT_EQSTAT_FULL, Reg.EVT_EQDROP_COUNT, Reg.EVT_AODROP_COUNT, Reg.EVT_SAFESTAT_CAUSE, Reg.EVT_SAFESTAT_SAFE, Reg.EVT_SAFEINFO_INFO, Reg.EVT_RECORDS_COUNT, Reg.EVT_LASTSRC_SRC, Reg.EVT_LASTSRC_CLASS]

/-! Block PCR: R470. -/

/-- `DEVSTAT.DEV` (R470). -/
def Reg.PCR_DEVSTAT_DEV : Row := ⟨606, 0x40000, 0x0, 1, 0x0, 0x0, 1, 0, 3, .ro, 0, 0⟩
/-- `DEVSTAT.PSTATE` (R470). -/
def Reg.PCR_DEVSTAT_PSTATE : Row := ⟨607, 0x40000, 0x0, 1, 0x0, 0x0, 1, 4, 2, .ro, 1, 0⟩
/-- `DEVSTAT.MAINOFF` (R470). -/
def Reg.PCR_DEVSTAT_MAINOFF : Row := ⟨608, 0x40000, 0x0, 1, 0x0, 0x0, 1, 6, 1, .ro, 0, 0⟩
/-- `RSTCAUSE.CAUSE` (R470). -/
def Reg.PCR_RSTCAUSE_CAUSE : Row := ⟨609, 0x40000, 0x0, 1, 0x4, 0x0, 1, 0, 4, .ro, 0, 0⟩
/-- `RSTCTL.KEY` (R470). -/
def Reg.PCR_RSTCTL_KEY : Row := ⟨610, 0x40000, 0x0, 1, 0x8, 0x0, 1, 0, 16, .wo, 0, 0⟩
/-- `RSTCTL.WARM` (R470). -/
def Reg.PCR_RSTCTL_WARM : Row := ⟨611, 0x40000, 0x0, 1, 0x8, 0x0, 1, 16, 1, .w1s, 0, 0⟩
/-- `RSTCTL.COLD` (R470). -/
def Reg.PCR_RSTCTL_COLD : Row := ⟨612, 0x40000, 0x0, 1, 0x8, 0x0, 1, 17, 1, .w1s, 0, 0⟩
/-- `PWRCTL.AOREQ` (R470). -/
def Reg.PCR_PWRCTL_AOREQ : Row := ⟨613, 0x40000, 0x0, 1, 0xc, 0x0, 1, 0, 1, .w1s, 0, 0⟩
/-- `PWRCTL.WAKEEN` (R470). -/
def Reg.PCR_PWRCTL_WAKEEN : Row := ⟨614, 0x40000, 0x0, 1, 0xc, 0x0, 1, 1, 1, .rwl, 0, 0⟩
/-- `PWRCTL.WAKEPIN` (R470). -/
def Reg.PCR_PWRCTL_WAKEPIN : Row := ⟨615, 0x40000, 0x0, 1, 0xc, 0x0, 1, 8, 5, .rwl, 0, 0⟩
/-- `LCSTAT.STATE` (R470). -/
def Reg.PCR_LCSTAT_STATE : Row := ⟨616, 0x40000, 0x0, 1, 0x10, 0x0, 1, 0, 3, .ro, 0, 0⟩
/-- `LCSTAT.UPDATE_LOCK` (R470). -/
def Reg.PCR_LCSTAT_UPDATE_LOCK : Row := ⟨617, 0x40000, 0x0, 1, 0x10, 0x0, 1, 8, 1, .ro, 0, 0⟩
/-- `LCSTAT.ON_AIR_LOCK` (R470). -/
def Reg.PCR_LCSTAT_ON_AIR_LOCK : Row := ⟨618, 0x40000, 0x0, 1, 0x10, 0x0, 1, 9, 1, .ro, 0, 0⟩
/-- `LCSTAT.RELEASES` (R470). -/
def Reg.PCR_LCSTAT_RELEASES : Row := ⟨619, 0x40000, 0x0, 1, 0x10, 0x0, 1, 12, 2, .ro, 0, 0⟩
/-- `ALARM.BITS` (R470). -/
def Reg.PCR_ALARM_BITS : Row := ⟨620, 0x40000, 0x0, 1, 0x14, 0x0, 1, 0, 32, .ro, 0, 0⟩
/-- `ALARMLAT.BITS` (R470). -/
def Reg.PCR_ALARMLAT_BITS : Row := ⟨621, 0x40000, 0x0, 1, 0x18, 0x0, 1, 0, 32, .w1c, 0, 0⟩
/-- `TEMPWARN.DECI_C` (R470). -/
def Reg.PCR_TEMPWARN_DECI_C : Row := ⟨622, 0x40000, 0x0, 1, 0x1c, 0x0, 1, 0, 12, .rwl, 1000, 0⟩
/-- `TEMPWARN.BTEMP` (R470). -/
def Reg.PCR_TEMPWARN_BTEMP : Row := ⟨623, 0x40000, 0x0, 1, 0x1c, 0x0, 1, 16, 12, .rwl, 850, 0⟩
/-- `TEMPMAX.DECI_C` (R470). -/
def Reg.PCR_TEMPMAX_DECI_C : Row := ⟨624, 0x40000, 0x0, 1, 0x20, 0x0, 1, 0, 16, .rc, 0, 0⟩
/-- `AVS.MV` (R470). -/
def Reg.PCR_AVS_MV : Row := ⟨625, 0x40000, 0x0, 1, 0x24, 0x0, 1, 0, 10, .ro, 0, 0⟩
/-- `POWER.MW` (R470). -/
def Reg.PCR_POWER_MW : Row := ⟨626, 0x40000, 0x0, 1, 0x28, 0x0, 1, 0, 32, .ro, 0, 0⟩
/-- `GATESTAT.ENGINES` (R470). -/
def Reg.PCR_GATESTAT_ENGINES : Row := ⟨627, 0x40000, 0x0, 1, 0x2c, 0x0, 1, 0, 32, .ro, 0, 0⟩
/-- `RSTCNT.WARM` (R470). -/
def Reg.PCR_RSTCNT_WARM : Row := ⟨628, 0x40000, 0x0, 1, 0x30, 0x0, 1, 0, 16, .rws, 0, 0⟩
/-- `RSTCNT.MERGED` (R470). -/
def Reg.PCR_RSTCNT_MERGED : Row := ⟨629, 0x40000, 0x0, 1, 0x30, 0x0, 1, 16, 16, .ro, 0, 0⟩
/-- `BOOTTIME.MS` (R470). -/
def Reg.PCR_BOOTTIME_MS : Row := ⟨630, 0x40000, 0x0, 1, 0x34, 0x0, 1, 0, 16, .ro, 0, 0⟩
/-- `WIPETIME.DRAM_MS` (R470). -/
def Reg.PCR_WIPETIME_DRAM_MS : Row := ⟨631, 0x40000, 0x0, 1, 0x34, 0x0, 1, 16, 16, .ro, 0, 0⟩
/-- `TEMP[i].DECI_C` (R470). -/
def Reg.PCR_TEMP_DECI_C : Row := ⟨632, 0x40000, 0x0, 1, 0x40, 0x4, 10, 0, 16, .ro, 0, 0⟩
/-- `SUPPLY[s].MV` (R470). -/
def Reg.PCR_SUPPLY_MV : Row := ⟨633, 0x40000, 0x0, 1, 0x80, 0x4, 8, 0, 16, .ro, 0, 0⟩

/-- The rows of block PCR. -/
def Reg.rowsPCR : List Row :=
  [Reg.PCR_DEVSTAT_DEV, Reg.PCR_DEVSTAT_PSTATE, Reg.PCR_DEVSTAT_MAINOFF, Reg.PCR_RSTCAUSE_CAUSE, Reg.PCR_RSTCTL_KEY, Reg.PCR_RSTCTL_WARM, Reg.PCR_RSTCTL_COLD, Reg.PCR_PWRCTL_AOREQ, Reg.PCR_PWRCTL_WAKEEN, Reg.PCR_PWRCTL_WAKEPIN, Reg.PCR_LCSTAT_STATE, Reg.PCR_LCSTAT_UPDATE_LOCK, Reg.PCR_LCSTAT_ON_AIR_LOCK, Reg.PCR_LCSTAT_RELEASES, Reg.PCR_ALARM_BITS, Reg.PCR_ALARMLAT_BITS, Reg.PCR_TEMPWARN_DECI_C, Reg.PCR_TEMPWARN_BTEMP, Reg.PCR_TEMPMAX_DECI_C, Reg.PCR_AVS_MV, Reg.PCR_POWER_MW, Reg.PCR_GATESTAT_ENGINES, Reg.PCR_RSTCNT_WARM, Reg.PCR_RSTCNT_MERGED, Reg.PCR_BOOTTIME_MS] ++
  [Reg.PCR_WIPETIME_DRAM_MS, Reg.PCR_TEMP_DECI_C, Reg.PCR_SUPPLY_MV]

/-! Block MGT: R491. -/

/-- `UPDSTAT.STATE` (R491). -/
def Reg.MGT_UPDSTAT_STATE : Row := ⟨634, 0x30000, 0x0, 1, 0x0, 0x0, 1, 0, 4, .ro, 0, 0⟩
/-- `UPDSTAT.TRIALS` (R491). -/
def Reg.MGT_UPDSTAT_TRIALS : Row := ⟨635, 0x30000, 0x0, 1, 0x0, 0x0, 1, 4, 4, .ro, 0, 0⟩
/-- `UPDSTAT.SLOT` (R491). -/
def Reg.MGT_UPDSTAT_SLOT : Row := ⟨636, 0x30000, 0x0, 1, 0x0, 0x0, 1, 8, 1, .ro, 0, 0⟩
/-- `UPDSTAT.RECOVERY` (R491). -/
def Reg.MGT_UPDSTAT_RECOVERY : Row := ⟨637, 0x30000, 0x0, 1, 0x0, 0x0, 1, 9, 1, .ro, 0, 0⟩
/-- `UPDSTAT.LASTFAIL` (R491). -/
def Reg.MGT_UPDSTAT_LASTFAIL : Row := ⟨638, 0x30000, 0x0, 1, 0x0, 0x0, 1, 12, 4, .ro, 0, 0⟩
/-- `ACTVER.VERSION` (R491). -/
def Reg.MGT_ACTVER_VERSION : Row := ⟨639, 0x30000, 0x0, 1, 0x4, 0x0, 1, 0, 32, .ro, 0, 0⟩
/-- `PREVVER.VERSION` (R491). -/
def Reg.MGT_PREVVER_VERSION : Row := ⟨640, 0x30000, 0x0, 1, 0x8, 0x0, 1, 0, 32, .ro, 0, 0⟩
/-- `STAGEVER.VERSION` (R491). -/
def Reg.MGT_STAGEVER_VERSION : Row := ⟨641, 0x30000, 0x0, 1, 0xc, 0x0, 1, 0, 32, .ro, 0, 0⟩
/-- `SVN.MIN` (R491). -/
def Reg.MGT_SVN_MIN : Row := ⟨642, 0x30000, 0x0, 1, 0x10, 0x0, 1, 0, 16, .ro, 0, 0⟩
/-- `SVN.ACTIVE` (R491). -/
def Reg.MGT_SVN_ACTIVE : Row := ⟨643, 0x30000, 0x0, 1, 0x10, 0x0, 1, 16, 16, .ro, 0, 0⟩
/-- `SETAREA.ACTIVE` (R491). -/
def Reg.MGT_SETAREA_ACTIVE : Row := ⟨644, 0x30000, 0x0, 1, 0x14, 0x0, 1, 0, 1, .ro, 0, 0⟩
/-- `SETAREA.FORMAT` (R491). -/
def Reg.MGT_SETAREA_FORMAT : Row := ⟨645, 0x30000, 0x0, 1, 0x14, 0x0, 1, 16, 16, .ro, 0, 0⟩
/-- `SETWEAR.PASSES` (R491). -/
def Reg.MGT_SETWEAR_PASSES : Row := ⟨646, 0x30000, 0x0, 1, 0x18, 0x0, 1, 0, 32, .rws, 0, 0⟩
/-- `BLOCKS.WRITTEN` (R491). -/
def Reg.MGT_BLOCKS_WRITTEN : Row := ⟨647, 0x30000, 0x0, 1, 0x1c, 0x0, 1, 0, 32, .ro, 0, 0⟩
/-- `BLOCKS.TOTAL` (R491). -/
def Reg.MGT_BLOCKS_TOTAL : Row := ⟨648, 0x30000, 0x0, 1, 0x20, 0x0, 1, 0, 32, .ro, 0, 0⟩
/-- `SVCSTAT.LINK` (R491). -/
def Reg.MGT_SVCSTAT_LINK : Row := ⟨649, 0x30000, 0x0, 1, 0x8000, 0x0, 1, 0, 1, .ro, 0, 0⟩
/-- `RXMSG.COUNT` (R491). -/
def Reg.MGT_RXMSG_COUNT : Row := ⟨650, 0x30000, 0x0, 1, 0x8004, 0x0, 1, 0, 32, .ro, 0, 0⟩
/-- `BADCRC.COUNT` (R491). -/
def Reg.MGT_BADCRC_COUNT : Row := ⟨651, 0x30000, 0x0, 1, 0x8008, 0x0, 1, 0, 32, .ro, 0, 0⟩
/-- `DENIED.COUNT` (R491). -/
def Reg.MGT_DENIED_COUNT : Row := ⟨652, 0x30000, 0x0, 1, 0x800c, 0x0, 1, 0, 32, .ro, 0, 0⟩
/-- `DUP.COUNT` (R491). -/
def Reg.MGT_DUP_COUNT : Row := ⟨653, 0x30000, 0x0, 1, 0x8010, 0x0, 1, 0, 32, .ro, 0, 0⟩

/-- The rows of block MGT. -/
def Reg.rowsMGT : List Row :=
  [Reg.MGT_UPDSTAT_STATE, Reg.MGT_UPDSTAT_TRIALS, Reg.MGT_UPDSTAT_SLOT, Reg.MGT_UPDSTAT_RECOVERY, Reg.MGT_UPDSTAT_LASTFAIL, Reg.MGT_ACTVER_VERSION, Reg.MGT_PREVVER_VERSION, Reg.MGT_STAGEVER_VERSION, Reg.MGT_SVN_MIN, Reg.MGT_SVN_ACTIVE, Reg.MGT_SETAREA_ACTIVE, Reg.MGT_SETAREA_FORMAT, Reg.MGT_SETWEAR_PASSES, Reg.MGT_BLOCKS_WRITTEN, Reg.MGT_BLOCKS_TOTAL, Reg.MGT_SVCSTAT_LINK, Reg.MGT_RXMSG_COUNT, Reg.MGT_BADCRC_COUNT, Reg.MGT_DENIED_COUNT, Reg.MGT_DUP_COUNT]

/-! Block TST: R498. -/

/-- `LOCK.KEY` (R498). -/
def Reg.TST_LOCK_KEY : Row := ⟨654, 0x50000, 0x0, 1, 0x0, 0x0, 1, 0, 16, .wo, 0, 0⟩
/-- `LOCK.OPEN` (R498). -/
def Reg.TST_LOCK_OPEN : Row := ⟨655, 0x50000, 0x0, 1, 0x0, 0x0, 1, 16, 1, .rw, 0, 0⟩
/-- `LOCKSTAT.OPEN` (R498). -/
def Reg.TST_LOCKSTAT_OPEN : Row := ⟨656, 0x50000, 0x0, 1, 0x4, 0x0, 1, 0, 1, .ro, 0, 0⟩
/-- `LOCKSTAT.REASON` (R498). -/
def Reg.TST_LOCKSTAT_REASON : Row := ⟨657, 0x50000, 0x0, 1, 0x4, 0x0, 1, 1, 2, .ro, 0, 0⟩
/-- `LOCKSTAT.DENIED` (R498). -/
def Reg.TST_LOCKSTAT_DENIED : Row := ⟨658, 0x50000, 0x0, 1, 0x4, 0x0, 1, 16, 16, .ro, 0, 0⟩
/-- `DAP.EN` (R498). -/
def Reg.TST_DAP_EN : Row := ⟨659, 0x50000, 0x0, 1, 0x8, 0x0, 1, 0, 1, .rwl, 0, 0⟩
/-- `CSDELAY.PORTS` (R498). -/
def Reg.TST_CSDELAY_PORTS : Row := ⟨660, 0x50000, 0x0, 1, 0x10, 0x0, 1, 0, 48, .rwl, 0, 0⟩
/-- `CSDELAY.FCLK` (R498). -/
def Reg.TST_CSDELAY_FCLK : Row := ⟨661, 0x50000, 0x0, 1, 0x18, 0x0, 1, 0, 10, .rwl, 0, 0⟩
/-- `BPINJ.PORT` (R498). -/
def Reg.TST_BPINJ_PORT : Row := ⟨662, 0x50000, 0x0, 1, 0x1c, 0x0, 1, 0, 6, .rwl, 0, 0⟩
/-- `BPINJ.EN` (R498). -/
def Reg.TST_BPINJ_EN : Row := ⟨663, 0x50000, 0x0, 1, 0x1c, 0x0, 1, 6, 1, .rwl, 0, 0⟩
/-- `BPTIME.ON` (R498). -/
def Reg.TST_BPTIME_ON : Row := ⟨664, 0x50000, 0x0, 1, 0x20, 0x0, 1, 0, 16, .rwl, 0, 0⟩
/-- `BPTIME.PERIOD` (R498). -/
def Reg.TST_BPTIME_PERIOD : Row := ⟨665, 0x50000, 0x0, 1, 0x20, 0x0, 1, 16, 16, .rwl, 0, 0⟩
/-- `REFSKEW.NS` (R498). -/
def Reg.TST_REFSKEW_NS : Row := ⟨666, 0x50000, 0x0, 1, 0x24, 0x0, 1, 0, 32, .rwl, 0, 0⟩
/-- `REFCTL.NOPOST` (R498). -/
def Reg.TST_REFCTL_NOPOST : Row := ⟨667, 0x50000, 0x0, 1, 0x28, 0x0, 1, 0, 1, .rwl, 0, 0⟩
/-- `REFCTL.APPLY` (R498). -/
def Reg.TST_REFCTL_APPLY : Row := ⟨668, 0x50000, 0x0, 1, 0x28, 0x0, 1, 1, 1, .w1s, 0, 0⟩
/-- `TIMESTEP.NS` (R498). -/
def Reg.TST_TIMESTEP_NS : Row := ⟨669, 0x50000, 0x0, 1, 0x30, 0x0, 1, 0, 32, .rwl, 0, 0⟩
/-- `TIMECTL.FIRE` (R498). -/
def Reg.TST_TIMECTL_FIRE : Row := ⟨670, 0x50000, 0x0, 1, 0x34, 0x0, 1, 0, 1, .w1s, 0, 0⟩
/-- `CHKINJ.KIND` (R498). -/
def Reg.TST_CHKINJ_KIND : Row := ⟨671, 0x50000, 0x0, 1, 0x38, 0x0, 1, 0, 3, .rwl, 0, 0⟩
/-- `CHKINJ.TARGET` (R498). -/
def Reg.TST_CHKINJ_TARGET : Row := ⟨672, 0x50000, 0x0, 1, 0x38, 0x0, 1, 8, 6, .rwl, 0, 0⟩
/-- `CHKINJ.COUNT` (R498). -/
def Reg.TST_CHKINJ_COUNT : Row := ⟨673, 0x50000, 0x0, 1, 0x38, 0x0, 1, 16, 8, .rwl, 1, 0⟩
/-- `CHKINJ.FIRE` (R498). -/
def Reg.TST_CHKINJ_FIRE : Row := ⟨674, 0x50000, 0x0, 1, 0x38, 0x0, 1, 24, 1, .w1s, 0, 0⟩
/-- `CHKDONE.COUNT` (R498). -/
def Reg.TST_CHKDONE_COUNT : Row := ⟨675, 0x50000, 0x0, 1, 0x3c, 0x0, 1, 0, 32, .ro, 0, 0⟩
/-- `CPLDELAY.QID` (R498). -/
def Reg.TST_CPLDELAY_QID : Row := ⟨676, 0x50000, 0x0, 1, 0x40, 0x0, 1, 0, 7, .rwl, 0, 0⟩
/-- `CPLDELAY.US` (R498). -/
def Reg.TST_CPLDELAY_US : Row := ⟨677, 0x50000, 0x0, 1, 0x40, 0x0, 1, 16, 16, .rwl, 0, 0⟩
/-- `HBSUPP.LINK` (R498). -/
def Reg.TST_HBSUPP_LINK : Row := ⟨678, 0x50000, 0x0, 1, 0x44, 0x0, 1, 0, 1, .rwl, 0, 0⟩
/-- `HBSUPP.LINE` (R498). -/
def Reg.TST_HBSUPP_LINE : Row := ⟨679, 0x50000, 0x0, 1, 0x44, 0x0, 1, 1, 1, .rwl, 0, 0⟩
/-- `HBSUPP.MS` (R498). -/
def Reg.TST_HBSUPP_MS : Row := ⟨680, 0x50000, 0x0, 1, 0x44, 0x0, 1, 16, 16, .rwl, 0, 0⟩
/-- `ACTIVE.BITS` (R498). -/
def Reg.TST_ACTIVE_BITS : Row := ⟨681, 0x50000, 0x0, 1, 0x48, 0x0, 1, 0, 7, .ro, 0, 0⟩

/-- The rows of block TST. -/
def Reg.rowsTST : List Row :=
  [Reg.TST_LOCK_KEY, Reg.TST_LOCK_OPEN, Reg.TST_LOCKSTAT_OPEN, Reg.TST_LOCKSTAT_REASON, Reg.TST_LOCKSTAT_DENIED, Reg.TST_DAP_EN, Reg.TST_CSDELAY_PORTS, Reg.TST_CSDELAY_FCLK, Reg.TST_BPINJ_PORT, Reg.TST_BPINJ_EN, Reg.TST_BPTIME_ON, Reg.TST_BPTIME_PERIOD, Reg.TST_REFSKEW_NS, Reg.TST_REFCTL_NOPOST, Reg.TST_REFCTL_APPLY, Reg.TST_TIMESTEP_NS, Reg.TST_TIMECTL_FIRE, Reg.TST_CHKINJ_KIND, Reg.TST_CHKINJ_TARGET, Reg.TST_CHKINJ_COUNT, Reg.TST_CHKINJ_FIRE, Reg.TST_CHKDONE_COUNT, Reg.TST_CPLDELAY_QID, Reg.TST_CPLDELAY_US, Reg.TST_HBSUPP_LINK] ++
  [Reg.TST_HBSUPP_LINE, Reg.TST_HBSUPP_MS, Reg.TST_ACTIVE_BITS]

/-- The whole table. -/
def Reg.all : List Row :=
  Reg.rowsCHC ++ Reg.rowsENC ++ Reg.rowsREF ++ Reg.rowsCMP ++ Reg.rowsBLT ++ Reg.rowsCST ++ Reg.rowsSPD ++ Reg.rowsHIF ++ Reg.rowsNET ++ Reg.rowsINP ++ Reg.rowsPKT ++ Reg.rowsSHP ++ Reg.rowsTIM ++ Reg.rowsAUD ++ Reg.rowsSDS ++ Reg.rowsPAIR ++ Reg.rowsDMC ++ Reg.rowsMTX ++ Reg.rowsCVU ++ Reg.rowsEVT ++ Reg.rowsPCR ++ Reg.rowsMGT ++ Reg.rowsTST

end Sys2Proof.Machine
end

