-- ==== Sys2Proof/Machine/QueParts.lean ====
section
/-! DEFINITION. The host interface beside its registers: queues, which hold commands (R229 to R256). -/

namespace Sys2Proof.Machine

/-- One queue beside its QSTAT registers. `unsigAt` is the time of the first of `unsig` entries not signalled. -/
structure Que where
  sqlog2 : Nat := 0
  cqlog2 : Nat := 0
  vector : Nat := 0
  order  : Bool := false
  coalCount : Nat := 0
  coalUs : Nat := 0
  sqbase : Nat := 0
  cqbase : Nat := 0
  cqHead : Nat := 0
  cqUsed : Nat := 0
  unsig  : Nat := 0
  unsigAt : Nat := 0
  headAbs : Nat := 0
  tailAbs : Nat := 0
  snaps  : List (Nat × List (Nat × Nat)) := []
  fetched : List Fetched := []
  openPos : List Nat := []
  replies : List Rply := []
  outst  : List Outst := []
  held   : Option (Instr × Nat) := none
  barrier : Option Barrier := none
  stopWait : Option Nat := none
  flush  : Option Nat := none
  deleting : Option (Nat × Nat) := none
  eqHeld : Bool := false
  raised : Tab (Nat × Nat) := []
deriving DecidableEq, Repr

/-- The host interface. `dmaUse` maps a busy parameter DMA channel to its queue and position; `coreDown` marks restarting cores; `restarts` lists the times and cores
of the last restarts (R438 cause 5); `pending64` and `latch64` hold the halves of split 64-bit accesses (R13). -/
structure Hif where
  ques    : Tab Que := []
  dmaUse  : Tab (Nat × Nat) := []
  nextKey : Nat := 1
  coreDown : Tab Bool := []
  restarts : List (Nat × Nat) := []
  pending64 : Tab (Nat × Nat) := []
  latch64 : Tab (Nat × Nat) := []
deriving DecidableEq, Repr

end Sys2Proof.Machine
end

