-- ==== Sys2Proof/Machine/State.lean ====
section
/-! DEFINITION. The state of the block, its state after reset, and the closed lists of reasons a command can stop. -/

namespace Sys2Proof.Machine

/-- The reasons a command can fault. The spec gives every command an effect, so no meaning raises one: the block
reports faults through its own registers and events. -/
inductive Fault where
  /-- Raised by no meaning; kept so that the type is not empty. Safe. -/
  | none
deriving DecidableEq, Repr

/-- The reasons a command can be refused. -/
inductive Refusal where
  /-- Raised by the dispatch of a command whose meaning is not written yet. Safe. -/
  | notModelled (mnemonic : String)
deriving DecidableEq, Repr

/-- The state of the block. `pending` is the queue of waiting commands; `out` and `fresh` are the model's own (what
has left the block, newest first; the counter of free values). -/
structure State where
  /-- Commands waiting, first in first out. -/
  pending : List Instr
  /-- What has left the block, newest first. The model's own field. -/
  out : List Out
  /-- Counter that numbers the free values. The model's own field (log entry 2). -/
  fresh : Nat
  /-- Every named register field, by register key (Regs.lean); an absent entry reads its reset value. -/
  regs : Tab Nat
  /-- Host interface: queues, DMA channels, cores, split 64-bit accesses. -/
  hif : Hif
  /-- Events: occurrence counters, backlog, AO records. -/
  evt : Evt
  /-- Internal time and the latches of its reads. -/
  time : TimeB
  /-- Channel contexts, by channel. -/
  chans : Tab Chan
  /-- The Spindle: descriptors, flows, log. -/
  spd : Spd
  /-- Engines, by engine. -/
  engs : Tab Eng
  /-- Reference descriptors, by index. -/
  refs : Tab Ref
  /-- Composition: layers, caches, coefficient banks. -/
  cmp : Cmp
  /-- Central Store pages. -/
  cst : Cst
  /-- Central Store, DRAM and flash. -/
  mem : Mem
  /-- Requests that wait at the Central Store and at the DRAM ports, oldest first. -/
  stalled : List Req
  /-- Programs, by channel. -/
  progs : Tab (Option Prog)
  /-- Accepted routes, by 8 × program + slot. -/
  routes : Tab (Option Route)
  /-- The routes in force, by 8 × program + slot. -/
  routesAct : Tab (Option Route)
  /-- Shapers, by number. -/
  shps : Tab Shaper
  /-- The transmit arbiters, by MAC. -/
  arbs : Tab Arb
  /-- The packer, by program. -/
  pkrs : Tab Pkr
  /-- The pair controller: link channels, partner, claim, checks. -/
  pair : Pair
  /-- Input flows, meters, joins and neighbours. -/
  inp : Inp
  /-- Serial audio ports and their alignment groups. -/
  aud : Aud
  /-- The blitters and the blits they run or wait for. -/
  blt : Blt
  /-- The DRAM controllers: refresh, guard tables, training. -/
  dmc : Dmc
  /-- The perturbations of the TST block that run or wait. -/
  tst : Tst
  /-- SerDes lanes, by lane. -/
  lanes : Tab Lane
  /-- Check value units, by unit. -/
  cvu : Tab CvuUnit
  /-- The always-on sequencer: reset, main rails, clocks, alarms. -/
  pcr : Pcr
  /-- The management core: settings store, slots, staged update, service port. -/
  mgt : Mgt
deriving DecidableEq, Repr

/-- The machine right after a reset is asserted: every register at the Reset column of the spec's tables (an empty
register file), every part empty, no command waiting. -/
def State.reset : State where
  pending := []
  out := []
  fresh := 0
  regs := []
  hif := {}
  evt := {}
  time := {}
  chans := []
  spd := {}
  engs := []
  refs := []
  cmp := {}
  cst := {}
  mem := {}
  stalled := []
  progs := []
  routes := []
  routesAct := []
  shps := []
  arbs := []
  pkrs := []
  pair := {}
  inp := {}
  aud := {}
  blt := {}
  dmc := {}
  tst := {}
  lanes := []
  cvu := []
  pcr := {}
  mgt := {}

end Sys2Proof.Machine
end

