-- ==== Sys2Proof/Machine/Tab.lean ====
section
/-! DEFINITION. Reading and writing a sparse table. A write keeps the canonical form: keys rise, and an entry equal to
the table's default is dropped. -/

namespace Sys2Proof

variable {α : Type}

/-- The value at a key, or the default. -/
def tget (d : α) : Tab α → Nat → α
  | [], _ => d
  | (k', v) :: r, k => if k' = k then v else tget d r k

/-- Without the entry at a key. -/
def tdel : Tab α → Nat → Tab α
  | [], _ => []
  | (k', v) :: r, k => if k' = k then tdel r k else (k', v) :: tdel r k

/-- With an entry at a key, in key order. -/
def tins : Tab α → Nat → α → Tab α
  | [], k, v => [(k, v)]
  | (k', v') :: r, k, v =>
    if k < k' then (k, v) :: (k', v') :: r else if k' = k then (k, v) :: r else (k', v') :: tins r k v

/-- The table with a value at a key; a value equal to the default leaves no entry. -/
def tset [DecidableEq α] (d : α) (t : Tab α) (k : Nat) (v : α) : Tab α :=
  if v = d then tdel t k else tins t k v

/-- Keys strictly rise. -/
def rising : List Nat → Bool
  | [] => true
  | [_] => true
  | a :: b :: r => decide (a < b) && rising (b :: r)

/-- The canonical form of a table. -/
def twf [DecidableEq α] (d : α) (t : Tab α) : Bool :=
  rising (t.map Prod.fst) && t.all (fun e => decide (e.2 ≠ d))

end Sys2Proof
end

