-- ==== Sys2Proof/Machine/Ops.lean ====
section
/-! DEFINITION. The named operations every meaning is made of: register fields, memories, time, output, free values. -/

namespace Sys2Proof.Machine

/-! ### Register fields -/

/-- The place of a field's instance in the register file. -/
def rowKey (r : Row) (i j : Nat) : Nat := r.id * 2 ^ 24 + i % 4096 * 4096 + j % 4096

/-- A check value point that has a sequence key (R426). -/
def cvuSeqKey (u : Nat) : Bool := u < 832 || (880 ≤ u && u < 896) || (912 ≤ u && u < 920) || 960 ≤ u

/-- The mode of a check value unit after reset (R428): 1 sequence folding where its point has a sequence key, else 0 address
folding. -/
def cvuDefaultMode (u : Nat) : Nat := if cvuSeqKey u then 1 else 0

/-- Class and weight of a Central Store port (R188). -/
def portClass (p : Nat) : Nat := if 32 ≤ p ∧ p ≤ 39 then 1 else 0
def portWeight (p : Nat) : Nat :=
  if p ≤ 31 then 3 else if p ≤ 39 then 1 else if p = 40 then 8 else if p ≤ 42 then 9
  else if p = 43 then 12 else if p ≤ 46 then 10 else 2

/-- The reset value of instance `i` of a field. -/
def rowReset (r : Row) (i j : Nat) : Nat :=
  if r.id = Reg.CST_PORT_CLASS.id then portClass j
  else if r.id = Reg.CST_PORT_WEIGHT.id then portWeight j
  else if r.id = Reg.CVU_UNITVIEW_MODE.id then cvuDefaultMode i
  else r.rst

/-- A field's value. `i` is the block instance or selected entry, `j` the register of an array inside it. -/
def State.rd (s : State) (r : Row) (i : Nat := 0) (j : Nat := 0) : Nat :=
  tget (rowReset r i j) s.regs (rowKey r i j)

/-- A field set by hardware: the value is cut to the field's width. -/
def State.wr (s : State) (r : Row) (v : Nat) (i : Nat := 0) (j : Nat := 0) : State :=
  { s with regs := tset (rowReset r i j) s.regs (rowKey r i j) (v % 2 ^ r.w) }

/-- A counter that saturates. -/
def State.incSat (s : State) (r : Row) (n : Nat := 1) (i : Nat := 0) (j : Nat := 0) : State :=
  s.wr r (min (s.rd r i j + n) (2 ^ r.w - 1)) i j

/-- A counter that wraps. -/
def State.incWrap (s : State) (r : Row) (n : Nat := 1) (i : Nat := 0) (j : Nat := 0) : State :=
  s.wr r (s.rd r i j + n) i j

/-- A field that keeps the largest value seen. -/
def State.wrMax (s : State) (r : Row) (v : Nat) (i : Nat := 0) (j : Nat := 0) : State :=
  s.wr r (max (s.rd r i j) v) i j

/-! ### Output, free values, time -/

/-- Something leaves the block. -/
def State.emit (s : State) (o : Out) : State := { s with out := o :: s.out }

/-- The next free value; the first 16 stand for constants. -/
def State.free (s : State) : Nat × State := (Config.freeValue (s.fresh + 16), { s with fresh := s.fresh + 1 })

/-- Internal time in whole ns, and its seconds and nanoseconds. -/
def State.ns (s : State) : Nat := s.time.now / 65536
def State.sec (s : State) : Nat := s.ns / 1000000000
def State.nsec (s : State) : Nat := s.ns % 1000000000

/-- A command that happens at an internal time: the time base does not go back for it. -/
def State.at (s : State) (t : Nat) : State := { s with time := { s.time with now := max s.time.now (t * 65536) } }

/-- FCLK runs in IDLE and ACTIVE (R28, R455). -/
def State.fclk (s : State) : Bool := decide (2 ≤ s.rd Reg.PCR_DEVSTAT_PSTATE)

/-- Device states (R458): 0 DEV_BOOT, 1 DEV_READY, 2 DEV_SAFE, 3 DEV_TRIAL. -/
def State.dev (s : State) : Nat := s.rd Reg.PCR_DEVSTAT_DEV

/-- The image of the active slot (R476). -/
def State.actImg (s : State) : Img := if s.mgt.nv.slots.active = 0 then s.mgt.nv.imgA else s.mgt.nv.imgB

/-- M of R49: 200 µs while pairing is enabled. -/
def State.leadM (s : State) : Nat := if s.rd Reg.PAIR_PAIRSTAT_ENABLED = 1 then 200000 else 0

/-- The pair role (R370): 0 SOLO, 1 HEADSTOCK, 2 TAILSTOCK, 3 RESYNC. -/
def State.role (s : State) : Nat := s.rd Reg.PAIR_PAIRSTAT_ROLE

/-! ### Memories -/

/-- One byte of the Central Store; the wipe of R201 leaves zero everywhere, so an unlisted byte reads zero. -/
def csRead (m : Mem) (a : Nat) : Byte := tget 0 m.cs a

/-- Store one byte in the Central Store. -/
def csWrite (m : Mem) (a : Nat) (b : Byte) : Mem := { m with cs := tset 0 m.cs a b }

/-- One byte of DRAM, by offset from DRAM_BASE; a cold reset wipes it to zero (R463). -/
def dramRead (m : Mem) (a : Nat) : Byte := tget 0 m.dram a

/-- Store one byte in DRAM. -/
def dramWrite (m : Mem) (a : Nat) (b : Byte) : Mem := { m with dram := tset 0 m.dram a b }

/-- One byte of flash; an erased byte reads 0xFF (log entry 8). -/
def flashRead (m : Mem) (a : Nat) : Byte := tget 255 m.flash a

/-- Store one byte in flash. -/
def flashWrite (m : Mem) (a : Nat) (b : Byte) : Mem := { m with flash := tset 255 m.flash a b }

/-- Store bytes in the Central Store from an address up. -/
def csWrites (m : Mem) (a : Nat) : Bytes → Mem
  | [] => m
  | b :: r => csWrites (csWrite m a b) (a + 1) r

/-- Store bytes in DRAM from an offset up. -/
def dramWrites (m : Mem) (a : Nat) : Bytes → Mem
  | [] => m
  | b :: r => dramWrites (dramWrite m a b) (a + 1) r

/-- Store bytes in flash from an offset up. -/
def flashWrites (m : Mem) (a : Nat) : Bytes → Mem
  | [] => m
  | b :: r => flashWrites (flashWrite m a b) (a + 1) r

/-- One byte of the working SRAM (R410), and a store to it; the wipe of R463 leaves zero everywhere. -/
def sramRead (m : Mem) (a : Nat) : Byte := tget 0 m.sram a
def sramWrite (m : Mem) (a : Nat) (b : Byte) : Mem := { m with sram := tset 0 m.sram a b }

/-- The canonical form of the memories. -/
def Mem.wf (m : Mem) : Bool := twf 0 m.cs && twf 0 m.dram && twf 255 m.flash && twf 0 m.sram

/-- Where an internal address lies (R410): 0 Central Store, 1 DRAM, 2 anywhere else, with the offset in it. -/
def State.space (s : State) (a : Nat) : Nat × Nat :=
  if Config.csBase ≤ a ∧ a < Config.csBase + 0x20000000 then (0, a - Config.csBase)
  else if Config.dramBase ≤ a ∧ a < Config.dramBase + s.rd Reg.MTX_DRAMSIZE_BYTES then (1, a - Config.dramBase)
  else (2, a)

/-- The byte at an internal address of the store or of DRAM. -/
def State.byte (s : State) (a : Nat) : Byte :=
  match s.space a with
  | (0, o) => csRead s.mem o
  | (1, o) => dramRead s.mem o
  | _ => 0

/-- Store a byte at an internal address of the store or of DRAM. -/
def State.setByte (s : State) (a : Nat) (b : Byte) : State :=
  match s.space a with
  | (0, o) => { s with mem := csWrite s.mem o b }
  | (1, o) => { s with mem := dramWrite s.mem o b }
  | _ => s

/-- Store bytes at an internal address and up. -/
def State.setBytes (s : State) (a : Nat) : Bytes → State
  | [] => s
  | b :: r => (s.setByte a b).setBytes (a + 1) r

/-! ### Indexed parts -/

def State.que (s : State) (q : Nat) : Que := tget {} s.hif.ques q
def State.setQue (s : State) (q : Nat) (v : Que) : State := { s with hif := { s.hif with ques := tset {} s.hif.ques q v } }
def State.chan (s : State) (n : Nat) : Chan := tget {} s.chans n
def State.setChan (s : State) (n : Nat) (v : Chan) : State := { s with chans := tset {} s.chans n v }
def State.task (s : State) (d : Nat) : Task := tget {} s.spd.tasks d
def State.setTask (s : State) (d : Nat) (v : Task) : State := { s with spd := { s.spd with tasks := tset {} s.spd.tasks d v } }
def State.flow (s : State) (f : Nat) : Flow := tget {} s.spd.flows f
def State.setFlow (s : State) (f : Nat) (v : Flow) : State := { s with spd := { s.spd with flows := tset {} s.spd.flows f v } }
def State.eng (s : State) (e : Nat) : Eng := tget {} s.engs e
def State.setEng (s : State) (e : Nat) (v : Eng) : State := { s with engs := tset {} s.engs e v }
def State.ref (s : State) (d : Nat) : Ref := tget {} s.refs d
def State.setRef (s : State) (d : Nat) (v : Ref) : State := { s with refs := tset {} s.refs d v }
def State.layer (s : State) (l : Nat) : Layer := tget {} s.cmp.layers l
def State.setLayer (s : State) (l : Nat) (v : Layer) : State := { s with cmp := { s.cmp with layers := tset {} s.cmp.layers l v } }
def State.cache (s : State) (n : Nat) : Cache := tget {} s.cmp.caches n
def State.setCache (s : State) (n : Nat) (v : Cache) : State := { s with cmp := { s.cmp with caches := tset {} s.cmp.caches n v } }

/-- Owner of a page when no entry says otherwise (R192, R193): the system and emergency regions are never FREE. -/
def pageDefault (p : Nat) : Page :=
  if p < 76800 then {} else if p < 77824 then { owner := 3 } else if p < 126976 then { owner := 4 } else { owner := 5 }
def State.page (s : State) (p : Nat) : Page := tget (pageDefault p) s.cst.pages p
def State.setPage (s : State) (p : Nat) (v : Page) : State :=
  { s with cst := { s.cst with pages := tset (pageDefault p) s.cst.pages p v } }

/-- Keys of a table's entries. -/
def keys {α : Type} (t : Tab α) : List Nat := t.map Prod.fst

/-- Run a state change over a list of numbers, first to last. -/
def State.forEach (s : State) (l : List Nat) (f : State → Nat → State) : State := l.foldl f s

/-! ### Register accesses (R13) -/

/-- A master accesses the register at a BAR0 offset: what it holds of another one is discarded. The low word of NOWSEC goes with NOWNS and NOWFRAC (R330). -/
def State.touch (s : State) (master a : Nat) : State :=
  let p := tget (0, 0) s.hif.pending64 master
  let l := tget (0, 0) s.hif.latch64 master
  let s := if p.1 = a + 1 ∨ p.1 + 3 = a then s else { s with hif := { s.hif with pending64 := tdel s.hif.pending64 master } }
  if l.1 = a ∨ l.1 = a + 4 then s else
  let s := { s with hif := { s.hif with latch64 := tdel s.hif.latch64 master } }
  if l.1 = 0x18000C ∧ !(0x180008 ≤ a ∧ a ≤ 0x180014) then { s with time := { s.time with latch := s.time.latch.filter fun e => e.1 ≠ 0x18000C } } else s

/-- The address of instance `i` of a field's register, and an access of it by the host that a command of its own stands for. -/
def regAddr (r : Row) (i : Nat := 0) (j : Nat := 0) : Nat := r.base + i * r.stride + r.off + j * r.rs
def State.hostAccess (s : State) (r : Row) (i : Nat := 0) (j : Nat := 0) : State := s.touch 0 (regAddr r i j)

/-! ### Registers that show other state -/

/-- What TST.ACTIVE shows: the perturbations that run or wait, zero while the lock is closed (R494, R498). -/
def State.tstBits (s : State) : Nat :=
  let skew := s.dmc.skew.isSome || s.rd Reg.TST_REFCTL_NOPOST = 1
  let lanes := (List.range 32).any fun l => s.rd Reg.SDS_INJCTL_MODE l ≠ 0
  if s.rd Reg.TST_LOCKSTAT_OPEN = 1 then
    bit (s.rd Reg.TST_CSDELAY_PORTS ≠ 0 && s.rd Reg.TST_CSDELAY_FCLK ≠ 0) + 2 * s.rd Reg.TST_BPINJ_EN + 4 * bit skew +
      8 * bit (s.tst.inj.1 ≠ 0) + 16 * bit (s.rd Reg.TST_CPLDELAY_US ≠ 0) + 32 * bit s.tst.hbUntil.isSome + 64 * bit lanes
  else 0

/-- Records that wait in the backlog (R448). -/
def State.backlogged (s : State) : Nat :=
  (s.evt.backlog.filter fun b => match b with | .record _ => true | .dropped _ _ => false).length

/-- The event ring exists and is full (R448). -/
def State.ringFull (s : State) : Bool :=
  s.rd Reg.HIF_QSTAT_ENABLED 0 66 = 1 && !decide ((s.que 66).cqUsed < 2 ^ (s.que 66).cqlog2)

/-- The emergency settings of a channel are present: the emergency partition is locked (R161). -/
def State.anyEmSet (s : State) : Bool := s.chans.any fun e => e.2.emSet

/-- Registers that show a part of the state are brought up to date: TST.ACTIVE, EVT.EQSTAT, SPD.TRACESTAT.COUNT, CMPSTAT.ANY_EM and
MGT.BLOCKS.WRITTEN (R448, R161, R226, R491, R498). -/
def State.settle (s : State) : State :=
  let s := s.wr Reg.TST_ACTIVE_BITS s.tstBits
  let s := (s.wr Reg.EVT_EQSTAT_BACKLOG s.backlogged).wr Reg.EVT_EQSTAT_FULL (bit s.ringFull)
  let s := (s.wr Reg.SPD_TRACESTAT_COUNT s.spd.log.length).wr Reg.CMP_CMPSTAT_ANY_EM (bit s.anyEmSet)
  s.wr Reg.MGT_BLOCKS_WRITTEN s.mgt.blocks.length

end Sys2Proof.Machine
end

