-- ==== Sys2Proof/Machine/Check.lean ====
section
/-! DEFINITION. The cyclic redundancy checks of the spec, and what a check value unit does with an item that passes its
snoop point (R426 to R428). -/

namespace Sys2Proof.Machine

/-- One step of a reflected CRC over a byte's bits. -/
def crcReflBits (poly : Nat) : Nat → Nat → Nat
  | 0, c => c
  | n + 1, c => crcReflBits poly n (if c % 2 = 1 then (c / 2) ^^^ poly else c / 2)

/-- A reflected 32-bit CRC from an initial value, no final XOR. -/
def crcRefl (poly init : Nat) (p : Bytes) : Nat := p.foldl (fun c b => crcReflBits poly 8 (c ^^^ b.toNat)) init

/-- CRC-32C of RFC 3720: initial value and final XOR all ones (R372). -/
def crc32c (p : Bytes) : Nat := crcRefl 0x82F63B78 0xFFFFFFFF p ^^^ 0xFFFFFFFF

/-- CRC-32 of IEEE 802.3 (R272). -/
def crc32 (p : Bytes) : Nat := crcRefl 0xEDB88320 0xFFFFFFFF p ^^^ 0xFFFFFFFF

/-- Steps of a CRC computed most significant bit first. -/
def crcMsbBits (w poly : Nat) : Nat → Nat → Nat
  | 0, c => c
  | n + 1, c => crcMsbBits w poly n (if c.testBit (w - 1) then ((c * 2) % 2 ^ w) ^^^ poly else (c * 2) % 2 ^ w)

/-- A CRC of `w` bits, most significant bit first, from an initial value, no final XOR. -/
def crcMsb (w poly init : Nat) (p : Bytes) : Nat := p.foldl (fun c b => crcMsbBits w poly 8 (c ^^^ (b.toNat * 2 ^ (w - 8)))) init

/-- CRC-64 of R378. -/
def crc64 (p : Bytes) : Nat := crcMsb 64 0x42F0E1EBA9EA3693 (2 ^ 64 - 1) p ^^^ (2 ^ 64 - 1)

/-! ### Check value units -/

def State.cvuU (s : State) (u : Nat) : CvuUnit := tget {} s.cvu u
def State.setCvuU (s : State) (u : Nat) (v : CvuUnit) : State := { s with cvu := tset {} s.cvu u v }

/-- Width of the CRC of each POLY (R427). -/
def cvuWidth (poly : Nat) : Nat := if poly < 2 then 32 else if poly = 2 then 16 else 8

/-- The initial value: the XOR of the fields of the key. -/
def cvuInit (w key : Nat) : Nat := (List.range (64 / w)).foldl (fun a i => a ^^^ (key / 2 ^ (w * i) % 2 ^ w)) 0

/-- The CRC of one item under a key. -/
def cvuCrc (poly key : Nat) (p : Bytes) : Nat :=
  let i := cvuInit (cvuWidth poly) key
  if poly = 0 then crcRefl 0x82F63B78 i p else if poly = 1 then crcRefl 0xEDB88320 i p
  else if poly = 2 then crcMsb 16 0x1021 i p else crcMsb 8 0x07 i p

/-- The points whose items the model carries: all but the lines that pass a Central Store port or a DRAM channel. What those two kinds sum comes with the
close of a window (log entry 28). -/
def cvuCarried (u : Nat) : Bool := !((832 ≤ u && u < 880) || (928 ≤ u && u < 952))

/-- A point that has an address key: one whose item lies in a memory of R410 or of the host (DEDUCED: log entry 29). -/
def cvuAddrKey (u : Nat) : Bool :=
  (384 ≤ u && u < 576) || (832 ≤ u && u < 880) || (896 ≤ u && u < 912) || (920 ≤ u && u < 1024)

/-- The whole millisecond of the tick (R429). -/
def State.tickMs (s : State) : Nat := s.rd Reg.SPD_TICK_US / 1000

/-- Units whose windows close each millisecond (R426): all but those of video flows, and those of pictures. -/
def State.cvuMs (s : State) (u : Nat) : Bool :=
  if u < 384 then (match tget none s.inp.flows u with | some x => x.kind ≠ 0 | none => false)
  else !(u < 576 || 960 ≤ u)

/-- A window mismatches when compare is on (R428). -/
def cvuWrong (mode result expect : Nat) : Bool :=
  if mode < 2 then decide (result ≠ expect) else if mode = 2 then decide (result < expect) else false

/-- Settings that wait take effect with the new window (R431). -/
def State.cvuApply (s : State) (u : Nat) : State :=
  match (s.cvuU u).pend with
  | none => s
  | some (m, poly, e, c) =>
    let s := ((s.wr Reg.CVU_UNITVIEW_MODE m u).wr Reg.CVU_UNITVIEW_POLY poly u).wr Reg.CVU_EXPECTVIEW_EXPECT e u
    ((s.wr Reg.CVU_UNITVIEW_COMPARE c u).wr Reg.CVU_UNITVIEW_PENDING 0 u).setCvuU u { s.cvuU u with pend := none }

/-- The unit's window ends (R429): its result and compare stand under the settings that held, and the next one opens with those that wait. -/
def State.cvuEnd (s : State) (u : Nat) (sum : Nat := 0) : State :=
  let x := s.cvuU u
  let mode := s.rd Reg.CVU_UNITVIEW_MODE u
  let result := if mode = 3 then 0 else (x.acc + sum) % 2 ^ 32
  let wrong := s.rd Reg.CVU_UNITVIEW_COMPARE u = 1 && cvuWrong mode result (s.rd Reg.CVU_EXPECTVIEW_EXPECT u)
  (s.setCvuU u { x with acc := 0, ords := [], ms := s.tickMs, shut := x.shut ++ [(result, wrong)] }).cvuApply u

/-- A window of a millisecond is over. -/
def State.cvuDue (s : State) (u : Nat) : Bool := s.cvuMs u && decide ((s.cvuU u).ms < s.tickMs)

/-- Such a window ends before anything else passes. -/
def State.cvuTurn (s : State) (u : Nat) : State := if s.cvuDue u then s.cvuEnd u else s

/-- `n` items pass whose bytes, or whose order among those of one sequence key, the spec does not give: what they fold is a free value, and the alive
counter counts them (log entry 28). -/
def State.cvuOpaque (s : State) (u n : Nat) : State :=
  let s := s.cvuTurn u
  let mode := s.rd Reg.CVU_UNITVIEW_MODE u
  let x := s.cvuU u
  if mode = 3 ∨ n = 0 then s
  else if mode = 2 then s.setCvuU u { x with acc := (x.acc + n) % 2 ^ 32 }
  else (let (v, s) := s.free; s.setCvuU u { x with acc := (x.acc + v) % 2 ^ 32 })

/-- An item passes a unit's point. A unit that folds addresses at an item whose address the spec does not give folds a free
key. -/
def State.cvuItem (s : State) (u : Nat) (p : Bytes) (addr seq : Option Nat) : State :=
  let s := s.cvuTurn u
  let mode := s.rd Reg.CVU_UNITVIEW_MODE u
  let poly := s.rd Reg.CVU_UNITVIEW_POLY u
  let x := s.cvuU u
  let add (x : CvuUnit) (v : Nat) : CvuUnit := { x with acc := (x.acc + v) % 2 ^ 32 }
  if mode = 3 then s
  else if mode = 2 then s.setCvuU u (add x 1)
  else if mode = 1 then
    let k := seq.getD 0 % 2 ^ 48
    let n := tget 0 x.ords k
    s.setCvuU u { add x (cvuCrc poly (k + n % 65536 * 2 ^ 48) p) with ords := tset 0 x.ords k (n + 1) }
  else match addr with
    | some a => s.setCvuU u (add x (cvuCrc poly (a % 2 ^ 40) p))
    | none => (let (k, s) := s.free; s.setCvuU u (add x (cvuCrc poly (k % 2 ^ 40) p)))

/-- The 64 bytes of the line at an internal address. -/
def State.lineBytes (s : State) (a : Nat) : Bytes := (List.range 64).map fun k => s.byte (64 * (a / 64) + k)

/-- Lines at internal addresses pass a unit's point as they now stand. Their order is not the spec's, so sequence folding takes a free value (log entry 28). -/
def State.cvuLines (s : State) (u : Nat) (lines : List Nat) : State :=
  if s.rd Reg.CVU_UNITVIEW_MODE u = 0 then lines.foldl (fun s a => s.cvuItem u (s.lineBytes a) (some a) none) s
  else s.cvuOpaque u lines.length

end Sys2Proof.Machine
end

