-- ==== Sys2Proof/Machine/Ecc.lean ====
section
/-! DEFINITION. Lines of the Central Store as they are stored and read back: banks, the line check, and what wrong bits among the 76 bytes of a line
come to (R27, R184 to R186, R197). -/

namespace Sys2Proof.Machine

/-- The bank of a store address (R184). -/
def csBank (a : Nat) : Nat := a / 64 % 256 ^^^ a / 2 ^ 14 % 256 ^^^ a / 2 ^ 22 % 128

/-- The line check of line `i` (R186). -/
def lineCheck (i : Nat) (d : Bytes) : Nat := crcRefl 0x82F63B78 (0x5A000000 ||| i) d

/-- The 64 data bytes of a store line. -/
def Mem.line (m : Mem) (l : Nat) : Bytes := (List.range 64).map fun k => csRead m (64 * l + k)

/-! A stored line is numbered by bits (R185): 0 to 511 are the data, 512 to 575 the eight SECDED codes, 576 to 607 the line check. -/

/-- The wrong bits of the 72 of a word, its code included. -/
def wordFlips (flips : List Nat) (w : Nat) : List Nat :=
  flips.filter fun b => (decide (b < 512) && b / 64 = w) || (decide (512 ≤ b) && decide (b < 576) && (b - 512) / 8 = w)

/-- What a read of a line finds: words with one wrong bit, which are corrected; a word with more; a line check that does not match. -/
structure LineFound where
  corrected : Nat
  double : Bool
  check  : Bool
deriving DecidableEq, Repr

/-- A byte of the line after correction: its wrong bits stay where their word has two or more. -/
def flippedByte (flips : List Nat) (k : Nat) (b : Byte) : Byte :=
  if (wordFlips flips (k / 8)).length < 2 then b
  else flips.foldl (fun (b : Byte) f => if f / 8 = k ∧ f < 512 then b ^^^ BitVec.ofNat 8 (2 ^ (f % 8)) else b) b

/-- A read of line `i` that was written with data `d`. Three or more wrong bits of a word count as two, which the line check would find too (log entry 107). -/
def readFound (i : Nat) (d : Bytes) (flips : List Nat) : LineFound :=
  let words := (List.range 8).map fun w => (wordFlips flips w).length
  let stored := (flips.filter fun b => decide (576 ≤ b) && decide (b < 608)).foldl (fun c b => c ^^^ 2 ^ (b - 576)) (lineCheck i d)
  { corrected := (words.filter (· = 1)).length, double := words.any (2 ≤ ·),
    check := lineCheck i (d.zipIdx.map fun e => flippedByte flips e.2 e.1) ≠ stored }

/-- What a read of a store line finds as it stands. -/
def State.csFound (s : State) (l : Nat) : LineFound :=
  match tget [] s.mem.csFlip l with
  | [] => { corrected := 0, double := false, check := false }
  | f => readFound l (s.mem.line l) f

/-- A line that a read delivers uncorrectable, and the KIND of LASTERR for it (R204). -/
def LineFound.bad (x : LineFound) : Bool := x.double || x.check
def LineFound.kind (x : LineFound) : Nat := if x.double && x.check then 2 else if x.check then 1 else 0
def State.csBad (s : State) (l : Nat) : Bool := (s.csFound l).bad

/-- Wrong bits that make a read fail in a manner: two of a code, one of the line check, two of the data. -/
def kindFlips (kind : Nat) : List Nat := if kind % 3 = 0 then [512, 513] else if kind % 3 = 1 then [576] else [0, 1]

/-- Wrong bits of a line stand until it is written. -/
def State.csFlip (s : State) (l : Nat) (flips : List Nat) : State := { s with mem := { s.mem with csFlip := tset [] s.mem.csFlip l flips } }

/-- Lines found damaged stay so until they are written (R200). -/
def State.csDamage (s : State) (l : Nat) (kind : Nat := 0) : State := s.csFlip l (kindFlips kind)
def State.csMend (s : State) (l : Nat) : State := s.csFlip l []

/-- Whether the 64-byte line that holds an internal address is damaged. -/
def State.badLine (s : State) (a : Nat) : Bool :=
  match s.space a with
  | (0, o) => s.csBad (o / 64)
  | (1, o) => decide (tget 0 s.mem.dramBad (o / 64) ≠ 0)
  | _ => false

/-- A line written whole carries a good check again. -/
def State.mendLine (s : State) (a : Nat) : State :=
  match s.space a with
  | (0, o) => s.csMend (o / 64)
  | (1, o) => { s with mem := { s.mem with dramBad := tset 0 s.mem.dramBad (o / 64) 0 } }
  | _ => s

/-- Store bytes at an internal address and up; the lines written whole carry good checks again (R27, R175). -/
def State.putBytes (s : State) (a : Nat) (p : Bytes) : State :=
  ((List.range ((a + p.length) / 64 - cdiv a 64)).map fun i => 64 * (cdiv a 64 + i)).foldl State.mendLine (s.setBytes a p)

end Sys2Proof.Machine
end

