-- ==== Sys2Proof/Machine/Events.lean ====
section
/-! DEFINITION. Events (R436 to R450): numbers, classes, occurrence, records, backlog and routes; and the signalling of
completion queues (R243). -/

namespace Sys2Proof.Machine

/-! Source numbers (R442). -/
def evCh (n k : Nat) : Nat := 4 * n + k
def evEnc (e k : Nat) : Nat := 256 + 2 * e + k
def evNet (p k : Nat) : Nat := 320 + 12 * p + k
def evSds (l : Nat) : Nat := 368 + l
def evDmc (c k : Nat) : Nat := 400 + 2 * c + k
def evAud (p k : Nat) : Nat := 448 + 2 * p + k
def evCmp (k : Nat) : Nat := 480 + k
def evBlt (u : Nat) : Nat := 496 + u
def evCst (k : Nat) : Nat := 504 + k
def evSpd (k : Nat) : Nat := 512 + k
def evTim (k : Nat) : Nat := 524 + k
def evPair (k : Nat) : Nat := 536 + k
def evPcr (k : Nat) : Nat := 552 + k
def evMgt (k : Nat) : Nat := 564 + k
def evHif (k : Nat) : Nat := 580 + k
def evCvu (g : Nat) : Nat := 596 + g
def evPkt (k : Nat) : Nat := 628 + k
def evInp (k : Nat) : Nat := 660 + k
def evTst (k : Nat) : Nat := 676 + k
def evMtx (k : Nat) : Nat := 680 + k
def evRef (k : Nat) : Nat := 684 + k

/-- The group of a source (R442). -/
def evGroup (src : Nat) : Nat :=
  if src < 256 then 0 else if src < 320 then 1 else if src < 368 then 2 else if src < 400 then 3
  else if src < 448 then 4 else if src < 480 then 5 else if src < 496 then 6 else if src < 504 then 7
  else if src < 512 then 8 else if src < 524 then 9 else if src < 536 then 10 else if src < 552 then 11
  else if src < 564 then 12 else if src < 580 then 13 else if src < 596 then 14 else if src < 628 then 15
  else if src < 660 then 16 else if src < 676 then 17 else if src < 680 then 18 else if src < 684 then 19 else 20

/-- The class of an occurrence (R436). -/
def evClass (src detail : Nat) : Nat :=
  if src < 256 then
    (if src % 4 = 0 then (if detail % 256 = 6 then 6 else 0) else 3)
  else if src < 320 then (if src % 2 = 0 then 4 else 0)
  else if src < 368 then (if (src - 320) % 12 = 3 then 1 else 0)
  else if src < 400 then (if detail % 8 = 6 then 4 else 0)
  else if src < 448 then (if src % 2 = 0 then 3 else if detail % 16 = 6 then 1 else 0)
  else if src = evCmp 3 ∨ src = evCmp 4 then 3
  else if 496 ≤ src ∧ src < 504 then (if detail % 256 = 4 then 4 else 0)
  else if src = evCst 3 then 1
  else if src = evCst 1 then 2
  else if src = evCst 0 then 3
  else if src = evRef 2 ∨ src = evRef 3 then 2
  else if src = evRef 0 ∨ src = evRef 1 then 3
  else if src = evInp 9 then 2
  else if src = evInp 0 ∨ src = evInp 1 then 3
  else if src = evHif 2 then 1
  else if src = evHif 8 then 2
  else if src = evPkt 4 ∨ src = evPkt 0 then 3
  else if src = evPair 7 ∨ src = evPair 8 ∨ src = evPair 9 ∨ src = evPair 2 then 5
  else if src = evPcr 0 then (if detail % 8 = 2 then 7 else 0)
  else 0

/-- Signal a completion or event queue (R243): at once for an urgent entry and on AQ and EQ, else by count. -/
def State.signal (s : State) (q : Nat) (urgent : Bool) : State :=
  let u := s.que q
  if urgent || q < 2 || u.coalCount = 0 || u.coalCount ≤ u.unsig + 1 || u.coalUs = 0 then
    (s.setQue q { u with unsig := 0 }).emit (.msix u.vector)
  else s.setQue q { u with unsig := u.unsig + 1, unsigAt := if u.unsig = 0 then s.ns else u.unsigAt }

/-- Take the next slot of a completion or event ring: the phase it is written with, and the ring moved on (R240). -/
def State.ringSlot (s : State) (q : Nat) : Nat × State :=
  let u := s.que q
  let ph := s.rd Reg.HIF_QSTAT_PHASE 0 q
  let t := (s.rd Reg.HIF_QSTAT_CQTAIL 0 q + 1) % 2 ^ u.cqlog2
  let s := s.setQue q { u with cqUsed := u.cqUsed + 1 }
  let s := s.wr Reg.HIF_QSTAT_CQTAIL t 0 q
  (ph, if t = 0 then s.wr Reg.HIF_QSTAT_PHASE (1 - ph) 0 q else s)

/-- Entries of a ring not yet released have not filled it. -/
def State.ringRoom (s : State) (q : Nat) : Bool := decide ((s.que q).cqUsed < 2 ^ (s.que q).cqlog2)

/-- The MSI-X route of a group (R450): a message within 1 µs of the last covers this one. -/
def State.route (s : State) (g : Option Nat) : State :=
  match g with
  | none => s
  | some g =>
    let covered := match tget none s.evt.lastMsg g with
      | none => false
      | some t => decide (s.ns ≤ t + 1000)
    if covered then s
    else ({ s with evt := { s.evt with lastMsg := tset none s.evt.lastMsg g (some s.ns) } }).emit
      (.msix (s.rd Reg.EVT_ROUTE_VECTOR 0 g))

/-- The 32 bytes of an event record (R446). -/
def recBytes (r : Rec) (fl : Nat) : Bytes :=
  toLe 2 r.src ++ toLe 1 fl ++ toLe 1 r.channel ++ toLe 4 r.detail ++ toLe 8 (r.ns / 1000000000) ++ toLe 4 (r.ns % 1000000000) ++
    toLe 4 r.occ ++ toLe 8 r.aux

/-- The host address of the next slot of a completion or event ring. -/
def State.slotAddr (s : State) (q : Nat) : Nat := (s.que q).cqbase + 32 * s.rd Reg.HIF_QSTAT_CQTAIL 0 q

/-- Write one record to the event ring, signal it, and send its route message. -/
def State.writeRec (s : State) (r : Rec) (gap : Bool) : State :=
  let at_ := s.slotAddr 66
  let (ph, s) := s.ringSlot 66
  let fl := ph + 2 * r.cls + 16 * bit r.ao + 32 * bit gap
  let s := s.cvuItem 955 (recBytes r fl) (some at_) none
  let s := s.emit (.event r.src fl r.channel r.detail (r.ns / 1000000000) (r.ns % 1000000000) r.occ r.aux)
  ((s.incWrap Reg.EVT_RECORDS_COUNT).signal 66 false).route r.route

/-- The event queue exists (R446). -/
def State.evq (s : State) : Bool := decide (s.rd Reg.HIF_QSTAT_ENABLED 0 66 = 1)

/-- The number of records waiting, and whether the event ring is full, as EQSTAT shows them. -/
def State.eqstat (s : State) : State :=
  (s.wr Reg.EVT_EQSTAT_BACKLOG s.backlogged).wr Reg.EVT_EQSTAT_FULL (bit s.ringFull)

/-- Move backlog entries to the ring while it has room, an overflow record first at a place of loss (R448). -/
def drainFuel : Nat → State → State
  | 0, s => s
  | n + 1, s =>
    if !(s.evq && s.ringRoom 66) then s else
    match s.evt.backlog with
    | [] => s
    | .record r :: rest =>
      let gap := s.evt.gapNext
      drainFuel n (({ s with evt := { s.evt with backlog := rest, gapNext := false } }).writeRec r gap)
    | .dropped k t :: rest =>
      let o : Rec := { src := 65535, cls := 0, channel := 255, detail := k, ns := s.ns, occ := 0, aux := t, ao := false, route := none }
      drainFuel n (({ s with evt := { s.evt with backlog := rest, gapNext := true } }).writeRec o false)

/-- Write waiting records while the ring has room. -/
def State.drain (s : State) : State := (drainFuel (s.evt.backlog.length + 1) s).eqstat

/-- Put a record in order: to the ring, to the backlog when the ring is full, dropped when the backlog is full (R448). -/
def State.postRec (s : State) (r : Rec) : State :=
  if !s.evq then s.route r.route else
  let n := (s.evt.backlog.filter fun b => match b with | .record _ => true | .dropped _ _ => false).length
  if n < 256 then ({ s with evt := { s.evt with backlog := s.evt.backlog ++ [Back.record r] } }).drain
  else
    let s := (s.incSat Reg.EVT_EQDROP_COUNT).route r.route
    let bl := match s.evt.backlog.getLast? with
      | some (.dropped k t) => s.evt.backlog.dropLast ++ [Back.dropped (k + 1) t]
      | _ => s.evt.backlog ++ [Back.dropped 1 r.ns]
    { s with evt := { s.evt with backlog := bl } }

/-- The records held in the AO domain are written, before any later one; after a loss the first one written carries GAP (R449). -/
def State.aoFlush (s : State) : State :=
  if s.evt.ao = [] ∧ !s.evt.aoDropped then s else
  let l := s.evt.ao
  let s := { s with evt := { s.evt with ao := [], aoDropped := false, gapNext := s.evt.gapNext || s.evt.aoDropped } }
  l.foldl State.postRec s

/-- A source that its chapter names: the others are reserved and never raised (R442). -/
def evNamed (src : Nat) : Bool :=
  if src < 320 then true
  else if src < 368 then decide ((src - 320) % 12 < 8)
  else if src < 480 then true
  else src ≤ evCmp 10 || (496 ≤ src && src ≤ evCst 6) || (512 ≤ src && src ≤ evSpd 10) || (524 ≤ src && src ≤ evTim 10) || (536 ≤ src && src ≤ evPair 14) ||
    (552 ≤ src && src ≤ evPcr 10) || (564 ≤ src && src ≤ evMgt 14) || (580 ≤ src && src ≤ evHif 11) || (596 ≤ src && src ≤ evPkt 5) ||
    (660 ≤ src && src ≤ evInp 9) || (676 ≤ src && src < 692)

/-- Insertion by time and source number, behind its equals (R24). -/
def insRec (r : Rec) : List Rec → List Rec
  | [] => [r]
  | x :: l => if r.ns < x.ns ∨ (r.ns = x.ns ∧ r.src < x.src) then r :: x :: l else x :: insRec r l

/-- One occurrence of a source (R443): status bit and counter at once. Its record waits for the end of the command, so that sources of one
instant are processed in ascending number (R24). -/
def State.ev (s : State) (src : Nat) (ch : Nat := 255) (detail : Nat := 0) (aux : Nat := 0) : State :=
  let w := src / 32
  let s := s.wr Reg.EVT_STAT_BITS (s.rd Reg.EVT_STAT_BITS 0 w ||| 2 ^ (src % 32)) 0 w
  let occ := min (tget 0 s.evt.occ src + 1) (2 ^ 32 - 1)
  let r : Rec := { src := src, cls := evClass src detail, channel := ch, detail := detail % 2 ^ 32, ns := s.ns, occ := occ, aux := aux % 2 ^ 64, ao := !s.fclk, route := none }
  { s with evt := { s.evt with occ := tset 0 s.evt.occ src occ, burst := insRec r s.evt.burst } }

/-- An occurrence is processed (R443, R449): record and route unless masked; held in the AO domain where FCLK was stopped at it. -/
def State.evPost (s : State) (r : Rec) : State :=
  let s := (s.wr Reg.EVT_LASTSRC_SRC r.src).wr Reg.EVT_LASTSRC_CLASS r.cls
  if (s.rd Reg.EVT_MASK_BITS 0 (r.src / 32)).testBit (r.src % 32) then s else
  let g := evGroup r.src
  let r := { r with route := if s.rd Reg.EVT_ROUTE_EN 0 g = 1 then some g else none }
  if !r.ao then s.aoFlush.postRec r
  else if s.evt.ao.length < 64 then { s with evt := { s.evt with ao := s.evt.ao ++ [r] } }
  else ({ s with evt := { s.evt with aoDropped := true } }).incSat Reg.EVT_AODROP_COUNT

/-- The occurrences of a command are processed in order. -/
def State.evFlush (s : State) : State := s.evt.burst.foldl State.evPost { s with evt := { s.evt with burst := [] } }

/-- Every command ends so: in a next state, with its events processed and the registers that show a part of the state showing it. -/
def finish (s : State) : Host.Outcome State Fault Refusal := .next s.evFlush.settle

end Sys2Proof.Machine
end

