-- ==== Sys2Proof/Machine/Grid.lean ====
section
/-! DEFINITION. The frame grid and what follows from a format alone: rasters, rates, row time, reference times, minimum
latency, charges, levels, floor costs and buffer sizes (R40 to R53, R59, R62, R64, R103, R110 to R113). -/

namespace Sys2Proof.Machine

/-! ### Formats (R45, R64, R267) -/

def width (raster : Nat) : Nat := if raster = 0 then 1280 else if raster = 1 then 1920 else if raster = 2 then 3840 else 7680
def height (raster : Nat) : Nat := if raster = 0 then 720 else if raster = 1 then 1080 else if raster = 2 then 2160 else 4320
def totalLines (raster : Nat) : Nat := if raster = 0 then 750 else if raster = 1 then 1125 else if raster = 2 then 2250 else 4500

/-- The frame period in seconds as numerator and denominator (R267, R46). -/
def period : Nat → Nat × Nat
  | 0 => (1001, 24000) | 1 => (1, 24) | 2 => (1, 25) | 3 => (1001, 30000) | 4 => (1, 30) | 5 => (1, 50)
  | 6 => (1001, 60000) | 7 => (1, 60) | 8 => (1, 100) | 9 => (1001, 120000) | _ => (1, 120)

/-- The rate charged (R38). -/
def chargedRate : Nat → Nat
  | 0 => 24 | 1 => 24 | 2 => 25 | 3 => 30 | 4 => 30 | 5 => 50 | 6 => 60 | 7 => 60 | 8 => 100 | 9 => 120 | _ => 120

def ctuH (codec : Nat) : Nat := if codec = 0 then 64 else 128
def ctuRows (raster codec : Nat) : Nat := cdiv (height raster) (ctuH codec)
def ctuCols (raster codec : Nat) : Nat := cdiv (width raster) (ctuH codec)
/-- Slices of a row (R64). -/
def sliceCols (raster : Nat) : Nat := if raster = 3 then 4 else 1
/-- CTUs of one slice. -/
def sliceCtus (raster codec : Nat) : Nat := ctuCols raster codec / sliceCols raster

/-- Frame period truncated to whole ns. -/
def periodNs (rate : Nat) : Nat := (period rate).1 * 1000000000 / (period rate).2

/-- T_row in ns, truncated (R46). -/
def tRow (raster rate codec : Nat) : Nat :=
  ctuH codec * (period rate).1 * 1000000000 / ((period rate).2 * totalLines raster)

/-- The grid time of `lines` total lines after the grid's epoch, rounded down (R44). -/
def gridNs (raster rate lines : Nat) : Nat :=
  lines * (period rate).1 * 1000000000 / ((period rate).2 * totalLines raster)

/-- The first line count whose grid time is at or after `t`. -/
def gridCeil (raster rate t : Nat) : Nat :=
  cdiv (t * (period rate).2 * totalLines raster) ((period rate).1 * 1000000000)

/-- Δ_max (R55): the longest gap between two rows' reference times. -/
def deltaMax (raster rate codec : Nat) : Nat :=
  max (tRow raster rate codec) (periodNs rate - (ctuRows raster codec - 1) * tRow raster rate codec)

/-- Grid time from row slot `row` to the next (R110). -/
def rowDelta (raster rate codec row : Nat) : Nat :=
  if row + 1 = ctuRows raster codec then periodNs rate - (ctuRows raster codec - 1) * tRow raster rate codec
  else tRow raster rate codec

/-- L_min in ns (R49). -/
def lMin (raster rate codec m : Nat) : Nat := 2 * tRow raster rate codec + 100000 + m

/-- Pixel charge P in pixel/s (R38 check 2). -/
def pixCharge (raster rate : Nat) : Nat := width raster * height raster * chargedRate rate

/-- Charged input bits per pixel × 100 (R40). -/
def inBits100 (infmt : Nat) : Nat := if infmt = 0 then 2090 else if infmt = 1 then 2508 else 3014

/-- Charged input bit/s of a video flow (R40). -/
def inCharge (raster rate infmt : Nat) : Nat := pixCharge raster rate * inBits100 infmt / 100

/-- DRAM bytes per pixel × 8 (R41). -/
def dramBpp8 (c : Coding) : Nat := if c.chroma = 1 then 20 else if c.depth = 0 then 12 else 15

/-- The DRAM charge of a channel in byte/s × 8 (R38 check 6). -/
def dramCharge8 (raster rate refs : Nat) (c : Coding) : Nat := pixCharge raster rate * dramBpp8 c * (1 + refs)

/-- The engine bound of a slice of n CTUs in FCLK (R59). -/
def sliceBound (codec n : Nat) : Nat := 1500 + n * (if codec = 0 then 5689 else 22756)

/-- The slice bound in ns, rounded up. -/
def sliceBoundNs (codec n : Nat) : Nat := cdiv (sliceBound codec n * 2) 3

/-! ### Coded-picture buffer and rate limits (R53, R111, R113) -/

/-- B_cpb in bytes; `c` in bit/s, times in ns. -/
def bCpb (c l lmin : Nat) : Nat := cdiv (c * (l - lmin)) 8000000000

/-- BBITS (R111). -/
def bBits (c l lmin : Nat) : Nat := c * (l - lmin) / 1000000000

/-- The floor bound of a CTU (R112). -/
def floorCtu (codec : Nat) (intra : Bool) : Nat :=
  if codec = 0 then (if intra then 112 else 48) else (if intra then 160 else 64)

/-- The charge of a slice from header and CTU bounds (R110). -/
def sliceCharge (bits : Nat) : Nat := cdiv (3 * bits) 2 + 64

/-- FLOOR_ALL (R113): every CTU of the row in intra form. -/
def floorAll (raster codec : Nat) : Nat :=
  sliceCols raster * sliceCharge (512 + sliceCtus raster codec * floorCtu codec true)

/-- C_min in kb/s, rounded up (R113). -/
def cMin (raster rate codec : Nat) : Nat :=
  cdiv (cdiv ((floorAll raster codec + 4096) * 1000000000) (tRow raster rate codec)) 1000

/-- C_min in bit/s (R113). -/
def cMinBits (raster rate codec : Nat) : Nat :=
  cdiv ((floorAll raster codec + 4096) * 1000000000) (tRow raster rate codec)

/-! ### Levels (R62). The maximum bit rates are those of the two standards (log entry 11). -/

/-- Levels are numbered 0 to 8: 3.1, 4, 4.1, 5, 5.1, 5.2, 6, 6.1, 6.2. -/
def baseLevel (raster rate : Nat) : Nat :=
  let band := if rate ≤ 4 then 0 else if rate ≤ 7 then 1 else 2
  (if raster = 0 then 0 else if raster = 1 then 1 else if raster = 2 then 3 else 6) + band

/-- Maximum bit rate in kb/s of a level at Main and High tier, before the profile's factor; 0 for no High tier. -/
def levelRates (codec : Nat) : Nat → Nat × Nat
  | 0 => (10000, 0) | 1 => (12000, 30000) | 2 => (20000, 50000) | 3 => (25000, 100000) | 4 => (40000, 160000)
  | 5 => (60000, 240000)
  | 6 => if codec = 0 then (60000, 240000) else (80000, 320000)
  | 7 => (120000, 480000)
  | _ => if codec = 0 then (240000, 800000) else (180000, 800000)

/-- The profile's bit-rate factor in bits per kb/s unit. -/
def profileFactor (c : Coding) : Nat := if c.chroma = 0 then 1100 else if c.codec = 0 then 1833 else 2750

/-- Whether some level from the base level up to 6.2 admits `c` bit/s. -/
def levelAdmits (raster rate : Nat) (cod : Coding) (c : Nat) : Bool :=
  (List.range 9).any fun l => decide (baseLevel raster rate ≤ l) &&
    decide (c ≤ max (levelRates cod.codec l).1 (levelRates cod.codec l).2 * profileFactor cod)

/-! ### Frame buffers (R103), bands (R93), rings (R284) -/

/-- Lines of a raw unit. -/
def rawLines (c : Coding) : Nat := if c.depth = 0 then 8 else 10

/-- 64 KiB granules of one frame buffer (R103). -/
def bufGranules (raster : Nat) (c : Coding) : Nat :=
  let w := width raster
  let h := height raster
  let cw := w / 2 * 2
  let ch := if c.chroma = 1 then h else h / 2
  let lu := cdiv w 64 * cdiv h 8
  let cu := cdiv cw 64 * cdiv ch 8
  let table := cdiv ((lu + cu) * 2) 64 * 64
  let mf := cdiv w 16 * cdiv h 16 * 8
  cdiv ((lu + cu) * rawLines c * 64 + table + mf) 65536

/-- Pages of one reference band (R93). -/
def bandPages (raster : Nat) (c : Coding) : Nat :=
  let a := 256 / ctuH c.codec
  cdiv (width raster * ((2 * a + 2) * ctuH c.codec) * dramBpp8 c) (8 * 4096)

/-- Pages of a channel's composed rows: three row slots in flight (R212, R218; log entry 12). -/
def composedPages (raster : Nat) (c : Coding) : Nat :=
  cdiv (3 * ctuH c.codec * width raster * dramBpp8 c) (8 * 4096)

/-- Lines of an input ring (R284). -/
def ringLines (raster rate hmax win : Nat) : Nat :=
  2 * hmax + cdiv (win * 1000 * (period rate).2 * totalLines raster) ((period rate).1 * 1000000000) + 8

/-- Bytes of a ring line (R284). -/
def ringLineBytes (raster infmt : Nat) : Nat :=
  cdiv (cdiv (width raster * (if infmt = 0 then 10 else if infmt = 1 then 12 else 15)) 4) 64 * 64

/-- Pages of an input ring (R284). -/
def ringPages (raster rate infmt hmax win : Nat) : Nat :=
  cdiv (ringLines raster rate hmax win * ringLineBytes raster infmt) 4096

/-! ### A channel's grid -/

/-- The row time of a channel. -/
def Chan.tRow (c : Chan) : Nat := Machine.tRow c.raster c.rate c.coding.codec
def Chan.rows (c : Chan) : Nat := ctuRows c.raster c.coding.codec
def Chan.cols (c : Chan) : Nat := ctuCols c.raster c.coding.codec

/-- Reference time of row `row` of frame count `frame` (R44), from the channel's grid base. -/
def State.refNs (s : State) (n frame row : Nat) : Nat :=
  let c := s.chan n
  s.rd Reg.CHC_PHASE_OFFSET_NS n +
    gridNs c.raster c.rate ((c.gridBase + (frame - c.startFrame)) * totalLines c.raster + row * ctuH c.coding.codec)

/-- The first row, as (frame, row), whose reference time is at or after `t` (R238). -/
def State.rowAt (s : State) (n t : Nat) : Nat × Nat :=
  let c := s.chan n
  let l := gridCeil c.raster c.rate (t - s.rd Reg.CHC_PHASE_OFFSET_NS n)
  let fr := l / totalLines c.raster
  let r := cdiv (l % totalLines c.raster) (ctuH c.coding.codec)
  let (fr, r) := if r < c.rows then (fr, r) else (fr + 1, 0)
  if fr < c.gridBase then (c.startFrame, 0) else (c.startFrame + (fr - c.gridBase), r)

/-- The first grid frame whose reference time is at or after `t`, as an index of the grid. -/
def State.gridFrameAt (s : State) (n t : Nat) : Nat :=
  let c := s.chan n
  cdiv (gridCeil c.raster c.rate (t - s.rd Reg.CHC_PHASE_OFFSET_NS n)) (totalLines c.raster)

/-- (frame, row) order. -/
def rowLe (a b : Nat × Nat) : Bool := decide (a.1 < b.1) || (decide (a.1 = b.1) && decide (a.2 ≤ b.2))
def rowLt (a b : Nat × Nat) : Bool := decide (a.1 < b.1) || (decide (a.1 = b.1) && decide (a.2 < b.2))

/-- Channel state (R35). -/
def State.chSt (s : State) (n : Nat) : Nat := s.rd Reg.CHC_CHSTATE_STATE n

/-- IDLE while no channel is in CH_RUNNING or CH_DRAINING and no blit or training is in progress, ACTIVE otherwise (R455). -/
def State.powerRefresh (s : State) : State :=
  let old := s.rd Reg.PCR_DEVSTAT_PSTATE
  if old < 2 then s else
  let act := (List.range 64).any (fun n => s.chSt n = 3 || s.chSt n = 4) || s.blt.units.any (fun e => e.2.task.isSome) || s.dmc.train.isSome
  let new := 2 + bit act
  if new = old then s else (s.wr Reg.PCR_DEVSTAT_PSTATE new).ev (evPcr 1) 255 (new + 16 * old)

/-- A change of channel state raises EV_CH_STATE (R57, R447). -/
def State.setChSt (s : State) (n new aux : Nat) : State :=
  let old := s.chSt n
  let s := s.wr Reg.CHC_CHSTATE_STATE new n
  (s.ev (evCh n 0) n (new + 256 * s.rd Reg.CHC_CHSTATE_FAULT n + 65536 * old) aux).powerRefresh

/-- ACTIVE shows which perturbations run or wait (R498). -/
def State.tstShow (s : State) : State := s.wr Reg.TST_ACTIVE_BITS s.tstBits

/-- C in bit/s (R53): the larger of MAXRATE and EMCAP, on the accepted (shadow) values. -/
def State.capC (s : State) (n : Nat) : Nat := 1000 * max (s.rd Reg.CHC_RCCAP_MAXRATE n) (s.rd Reg.CHC_RCEMCAP_EMCAP n)

end Sys2Proof.Machine
end

