-- ==== Sys2Proof/Machine/Descs.lean ====
section
/-! DEFINITION. The descriptor table of the reference pool in DRAM (R99, R103): the parts of a frame buffer, a descriptor's 64 bytes, and the write of
a descriptor that keeps the table in step with the pool. -/

namespace Sys2Proof.Machine

/-- The sizes of a frame buffer's parts (R103): luma units, chroma units, size table. -/
def Chan.bufParts (c : Chan) : Nat × Nat × Nat :=
  let w := width c.raster
  let h := height c.raster
  let lu := cdiv w 64 * cdiv h 8
  let cu := cdiv (w / 2 * 2) 64 * cdiv (if c.coding.chroma = 1 then h else h / 2) 8
  (lu * rawLines c.coding * 64, cu * rawLines c.coding * 64, cdiv ((lu + cu) * 2) 64 * 64)

/-- The 64 bytes of a descriptor (R99). -/
def State.descBytes (s : State) (d : Nat) : Bytes :=
  let r := s.ref d
  if r.owner = 255 then toLe 1 0 ++ toLe 1 255 ++ toLe 8 0 ++ toLe 8 0 ++ toLe 46 0 else
  let (lu, cu, tb) := (s.chan r.owner).bufParts
  let fl := bit r.const + 2 * bit r.mf + 4 * bit r.cRead + 8 * bit r.cWrite
  let a := r.addr % 2 ^ 40
  toLe 1 r.mark ++ toLe 1 r.owner ++ toLe 2 fl ++ toLe 2 r.poc ++ toLe 2 0 ++ toLe 8 r.frame ++ toLe 8 a ++
    toLe 8 (a + lu) ++ toLe 8 (a + lu + cu) ++ toLe 8 (a + lu + cu + tb) ++ toLe 4 r.granules ++ toLe 12 0

/-- Where descriptor `d` stands in DRAM. -/
def State.descAddr (s : State) (d : Nat) : Nat := s.rd Reg.REF_DESCBASE_ADDR + 64 * d

/-- Write the table's copy of a descriptor. -/
def State.descWrite (s : State) (d : Nat) : State := s.putBytes (s.descAddr d) (s.descBytes d)

/-- Change a descriptor: the pool on chip, and its copy in the table. -/
def State.putRef (s : State) (d : Nat) (v : Ref) : State := (s.setRef d v).descWrite d

end Sys2Proof.Machine
end

