-- ==== Sys2Proof/Machine/Link.lean ====
section
/-! DEFINITION. Sending on the Tyhorn link: logical channels, credit and acknowledgements (R25, R372, R373), and the
record bytes the spec lays out. -/

namespace Sys2Proof.Machine

def State.tx (s : State) (c : Nat) : LinkTx := tget {} s.pair.tx c
def State.setTx (s : State) (c : Nat) (v : LinkTx) : State := { s with pair := { s.pair with tx := tset {} s.pair.tx c v } }

/-- The acknowledgements every frame carries: the next SEQ expected on channels 0 to 2. -/
def State.acks (s : State) : List Nat := [tget 0 s.pair.rx 0, tget 0 s.pair.rx 1, tget 0 s.pair.rx 2]

/-- An item passes a check: an armed injection of its kind and target corrupts it (R496); the last one raises EV_TST_FIRED. -/
def State.inject (s : State) (kind target : Nat) : Bool × State :=
  let (k, t, n) := s.tst.inj
  if k ≠ kind ∨ t ≠ target ∨ n = 0 then (false, s) else
  let s := ({ s with tst := { s.tst with inj := if n = 1 then (0, 0, 0) else (k, t, n - 1) } }).incSat Reg.TST_CHKDONE_COUNT
  (true, if n = 1 then s.tstShow.ev (evTst 3) else s)

/-- A frame leaves on a logical channel. -/
def State.linkOut (s : State) (c seq : Nat) (r : LRec) : State :=
  let (bad, s) := s.inject 3 c
  (s.cvuOpaque (912 + c) 1).emit (.link c seq s.acks bad r)

/-- Outgoing heartbeat frames are silenced by a test (R496). -/
def State.hbSilent (s : State) (line : Bool) : Bool :=
  s.tst.hbUntil.isSome && s.rd (if line then Reg.TST_HBSUPP_LINE else Reg.TST_HBSUPP_LINK) = 1

/-- A frame of a logical channel goes out while the link is up: at once with credit, else it waits (R25). Answers the
SEQ it takes. Each channel holds 64 frames of credit. -/
def State.linkSend (s : State) (c : Nat) (r : LRec) : State :=
  if s.rd Reg.PAIR_PAIRSTAT_LINKUP = 0 ∨ (c = 0 ∧ s.hbSilent false) then s else
  let t := s.tx c
  if t.unacked.length < 64 then
    let s := s.setTx c { t with next := (t.next + 1) % 65536, unacked := t.unacked ++ [(t.next, s.ns, s.ns, r)] }
    let s := if c = 1 then s.wr Reg.PAIR_MIRRORSEQ_TX ((t.next + 1) % 65536) else s
    s.linkOut c t.next r
  else s.setTx c { t with wait := t.wait ++ [r] }

/-- Records waiting for credit go out while there is some. -/
def linkPumpFuel : Nat → Nat → State → State
  | 0, _, s => s
  | n + 1, c, s =>
    let t := s.tx c
    match t.wait with
    | [] => s
    | r :: rest => if t.unacked.length < 64 then linkPumpFuel n c ((s.setTx c { t with wait := rest }).linkSend c r) else s

/-- The body of a CHECK record (R378). -/
def checkBody (c : CheckRec) : Bytes :=
  toLe 1 c.ch ++ toLe 1 c.stream ++ toLe 2 c.row ++ toLe 2 c.frames ++ toLe 2 c.seq ++ toLe 8 c.frame ++ toLe 4 c.cc ++
    toLe 4 0 ++ toLe 8 c.check

/-- The fields of a CHECK record's body. -/
def checkOf (p : Bytes) : CheckRec :=
  { ch := fld p 0 1, stream := fld p 1 1, row := fld p 2 2, frames := fld p 4 2, seq := fld p 6 2, frame := fld p 8 8,
    cc := fld p 16 4, check := fld p 24 8 }

/-- The partner takes mirrors (R377): its last heartbeat shows TAILSTOCK, or RESYNC with an image applied or being
transferred; a version mismatch makes it absent (R382). -/
def State.partnerTakes (s : State) : Bool :=
  !s.pair.failed && (s.pair.pRole = 2 || (s.pair.pRole = 3 && (s.pair.pImage || s.pair.imageSending)))

/-- Whether the partner's last heartbeat shows an unmuted TAILSTOCK. -/
def State.partnerGood (s : State) : Bool := s.partnerTakes && s.pair.pRole = 2

/-- Whether both heartbeat paths are silent (R371). -/
def State.bothSilent (s : State) : Bool := s.rd Reg.PAIR_PAIRSTAT_HBLINK = 0 && s.rd Reg.PAIR_PAIRSTAT_HBLINE = 0

end Sys2Proof.Machine
end

