-- ==== Sys2Proof/Machine/Spindle.lean ====
section
/-! DEFINITION. The Spindle's own state: descriptors, dependences, flows, delay lists and the shavings log
(R206 to R211, R216 to R218, R222, R225, R226). -/

namespace Sys2Proof.Machine

/-! ### Task kinds (R209) -/
def kCompose : Nat := 1
def kFlatten : Nat := 2
def kSlice : Nat := 3
def kReencode : Nat := 4
def kBandFill : Nat := 5
def kBandRefetch : Nat := 6
def kPack : Nat := 7
def kHeader : Nat := 8
def kSubst : Nat := 9
def kReconCopy : Nat := 10
def kCommit : Nat := 11
def kEmCommit : Nat := 12
def kBlit : Nat := 13
def kParamDma : Nat := 14
def kSelftest : Nat := 15
def kJoin : Nat := 16

/-- Class of a kind; a SELFTEST and a COMMIT carry their own, and a JOIN, which has none, shows 0 (DESIGN CHOICE: log entry 99). -/
def kindClass (k : Nat) : Nat :=
  if k = kSlice ∨ k = kReencode ∨ k = kJoin then 0 else if k = kCompose ∨ k = kFlatten ∨ k = kEmCommit then 1
  else if k = kPack ∨ k = kHeader ∨ k = kSubst ∨ k = kReconCopy then 2 else 3

/-- Priority of a kind; EM_COMMIT has 0, and a JOIN none. -/
def kindPrio (k : Nat) : Nat :=
  if k = kJoin ∨ k = kEmCommit then 0 else if k = kFlatten then 4 else if k = kReencode ∨ k = kBandRefetch ∨ k = kSubst ∨ k = kReconCopy then 2
  else if k = kCommit then 1 else if k = kBlit then 6 else if k = kParamDma then 5 else if k = kSelftest then 7 else 3

/-- Kinds whose completion waits for its flow (R216). -/
def kindFlow (k : Nat) : Bool := [kSlice, kReencode, kSubst, kCompose, kBlit, kFlatten, kParamDma, kSelftest].contains k

/-- The blit flow of a queue (R218). -/
def blitFlow (q : Nat) : Nat := if q = 0 then 0x80 else 0x81 + (q - 2)

def State.tick (s : State) : Nat := s.rd Reg.SPD_TICK_US

/-! ### The shavings log (R225, R226) -/

/-- The log stops recording. -/
def State.traceStop (s : State) : State := (s.wr Reg.SPD_TRACESTAT_STOPPED 1).ev (evSpd 7)

/-- A record at the end of the log; a full one loses its oldest. -/
def State.traceAdd (s : State) (r : Trace) : State :=
  let full := decide (8192 ≤ s.spd.log.length)
  let log := (if full then s.spd.log.drop 1 else s.spd.log) ++ [r]
  let s := { s with spd := { s.spd with log := log } }.wr Reg.SPD_TRACESTAT_COUNT log.length
  if full then (s.wr Reg.SPD_TRACESTAT_WRAPPED 1).wr Reg.SPD_TRACEHEAD_INDEX ((s.rd Reg.SPD_TRACEHEAD_INDEX + 1) % 8192) else s

/-- Mode 3: the trigger, and the records still to come after it. -/
def State.traceTrig (s : State) (r : Trace) : State :=
  match s.spd.trigLeft with
  | none =>
    if s.rd Reg.SPD_TRACETRIG_KIND ≠ r.kind ∨ (s.rd Reg.SPD_TRACETRIG_CHANNEL ≠ 255 ∧ s.rd Reg.SPD_TRACETRIG_CHANNEL ≠ r.ch) then s
    else if s.rd Reg.SPD_TRACETRIG_POST = 0 then (s.ev (evSpd 8)).traceStop
    else { s.ev (evSpd 8) with spd := { s.spd with trigLeft := some (s.rd Reg.SPD_TRACETRIG_POST) } }
  | some k =>
    if k ≤ 1 then { s with spd := { s.spd with trigLeft := none } }.traceStop
    else { s with spd := { s.spd with trigLeft := some (k - 1) } }

/-- The log records a record. -/
def State.traceOn (s : State) (r : Trace) : Bool :=
  s.rd Reg.SPD_TRACECTL_MODE ≠ 0 && s.rd Reg.SPD_TRACESTAT_STOPPED = 0 && (s.rd Reg.SPD_TRACECTL_KINDMASK).testBit (r.kind - 1) &&
    (r.ch > 63 || (s.rd Reg.SPD_TRACECHMASK_CHANNELS).testBit r.ch)

/-- Write a record while the log records it. -/
def State.traceRec (s : State) (r : Trace) : State :=
  let mode := s.rd Reg.SPD_TRACECTL_MODE
  if !s.traceOn r then s
  else if mode = 2 && 8192 ≤ s.spd.log.length then s.traceStop
  else if mode = 2 && 8191 ≤ s.spd.log.length then (s.traceAdd r).traceStop
  else if mode = 3 then (s.traceAdd r).traceTrig r
  else s.traceAdd r

/-- A record about a task. -/
def State.trace (s : State) (kind d aux : Nat) : State :=
  let t := s.task d
  s.traceRec { ns := s.ns, kind := kind, cp := t.cls + 4 * t.prio, task := d, flow := t.flow, ch := t.ch, target := t.target,
               frame := t.frame, row := t.row, col := t.col, tkind := t.kind, aux := aux }

/-- A record about no task: windows, stalls, time steps. -/
def State.traceDev (s : State) (kind ch frame row aux : Nat) : State :=
  s.traceRec { ns := s.ns, kind := kind, cp := 0, task := 0, flow := 0, ch := ch, target := 255, frame := frame, row := row, col := 0, tkind := 0, aux := aux }

/-- An emergency selection applied: the log shows EM_COMMIT, which is dispatched nowhere (R209, R219, R225). -/
def State.traceEm (s : State) (ch frame row : Nat) : State :=
  s.traceRec { ns := s.ns, kind := 7, cp := kindClass kEmCommit + 4 * kindPrio kEmCommit, task := 0, flow := 0, ch := ch, target := 255, frame := frame, row := row,
               col := 0, tkind := kEmCommit, aux := 0 }

/-- Signed slack of a deadline in ns, as 64 bits. -/
def slack (deadline : Option Nat) (t : Nat) : Nat := match deadline with | none => 0 | some d => toTwos 64 ((d : Int) - t)

/-! ### Descriptors (R206, R222) -/

/-- The first number from `k` that a list does not hold. -/
def freeFrom : Nat → Nat → List Nat → Nat
  | 0, k, _ => k
  | n + 1, k, u => if u.contains k then freeFrom n (k + 1) u else k

/-- Descriptors of the general pool in use, the number of free ones, and the lowest free one. -/
def State.genUsed (s : State) : List Nat := (s.spd.tasks.filter fun e => decide (2048 ≤ e.1) && e.2.state ≠ 0).map (·.1)
def State.genCount (s : State) : Nat := 14336 - s.genUsed.length
def State.genNext (s : State) : Option Nat := if s.genCount = 0 then none else some (freeFrom s.genUsed.length 2048 s.genUsed)

/-- Free descriptors of a channel's slab, lowest first. -/
def State.slabFree (s : State) (n : Nat) : List Nat := ((List.range 32).map (· + 32 * n)).filter fun d => (s.task d).state = 0

/-- The pool's registers after a change, and EV_SPD_POOL_LOW when the free count falls to the threshold. -/
def State.poolNote (s : State) (before : Nat) : State :=
  let now := s.genCount
  let s := (s.wr Reg.SPD_POOL_FREE now).wrMax Reg.SPD_POOLMAX_USED (14336 - now)
  if now ≤ s.rd Reg.SPD_POOLLOW_THRESH ∧ s.rd Reg.SPD_POOLLOW_THRESH < before then s.ev (evSpd 0) else s

/-- Put a task into a descriptor: it takes the next GSEQ, and waits for its predecessors and its release tick. One that is made to run at once is
released at the present tick. -/
def State.putTask (s : State) (d : Nat) (t : Task) : State :=
  let g := s.rd Reg.SPD_GSEQ_NEXT
  let t := if t.release = 0 then { t with release := s.tick } else t
  let st := if s.tick < t.release then 2 else if t.dep > 0 then 1 else 3
  let before := s.rd Reg.SPD_POOL_FREE
  let s := (s.wr Reg.SPD_GSEQ_NEXT (g + 1)).setTask d { t with state := st, gseq := g }
  if d < 2048 then s else s.poolNote before

/-- Return a descriptor. -/
def State.freeTask (s : State) (d : Nat) : State :=
  let s := s.setTask d {}
  if d < 2048 then s else s.wr Reg.SPD_POOL_FREE s.genCount

/-- A fresh task of a kind. -/
def newTask (kind : Nat) : Task := { kind := kind, cls := kindClass kind, prio := kindPrio kind }

/-- The next FSEQ of a flow. -/
def State.nextFseq (s : State) (f : Nat) : Nat × State :=
  let x := s.flow f
  (x.next, s.setFlow f { x with next := x.next + 1, valid := true })

/-- Build a task of the firmware's flows, which are ordered with a window of 16, in the lowest free descriptor of the pool (R206, R218). Answers the
descriptor; nothing when the pool is empty. -/
def State.poolPut (s : State) (t : Task) : Option Nat × State :=
  match s.genNext with
  | none => (none, s)
  | some d =>
    let (q, s) := s.nextFseq t.flow
    let s := s.setFlow t.flow { s.flow t.flow with window := 16 }
    (some d, s.putTask d { t with fseq := q })

/-- The flow of a firmware task: which of 0x200 to 0xFFF it takes is a DESIGN CHOICE (log entry 99). -/
def flattenFlow : Nat := 0x200
def dmaFlow (q : Nat) : Nat := 0x280 + q
def testFlow (target : Nat) : Nat := 0x300 + target

/-- The SELFTEST of a unit, by its target code; nothing where one waits or runs (R81, R181, R209). -/
def State.putSelftest (s : State) (target cls : Nat) : State :=
  if s.spd.tasks.any fun e => e.2.kind = kSelftest && e.2.param = target && e.2.state ≠ 0 then s
  else (s.poolPut { newTask kSelftest with cls, flow := testFlow target, ch := 255, param := target }).2

/-- The SELFTEST that a unit runs. -/
def State.testOf (s : State) (target : Nat) : Option Nat :=
  (s.spd.tasks.find? fun e => decide (e.2.kind = kSelftest ∧ e.2.param = target ∧ e.2.state = 4)).map (·.1)

/-! ### READY, successors, flow release (R208, R211, R216, R217) -/

/-- A task whose predecessors are done becomes READY; one in a delay list stays there until a tick moves it. -/
def State.wake (s : State) (d : Nat) : State :=
  let t := s.task d
  if t.state = 1 ∧ t.dep = 0 then s.setTask d { t with state := 3 } else s

/-- A task leaves its delay list. -/
def State.moveTask (s : State) (d : Nat) : State :=
  let s := s.trace 1 d 0
  let t := s.task d
  s.setTask d { t with state := if t.dep > 0 then 1 else 3 }

/-- One predecessor of a task is done. A JOIN completes as soon as it is ready, and its successors go on. -/
def decFuel : Nat → Nat → State → State
  | 0, _, s => s
  | n + 1, d, s =>
    let t := s.task d
    if t.state = 0 ∨ t.dep = 0 then s else
    let s := s.setTask d { t with dep := t.dep - 1 }
    let s := if t.dep = 1 then s.trace 2 d 0 else s
    let s := s.wake d
    if t.kind = kJoin ∧ (s.task d).state = 3 then (t.succ.foldl (fun s x => decFuel n x s) s).freeTask d else s

def State.decDep (s : State) (d : Nat) : State := decFuel (s.spd.tasks.length + 1) d s

/-- Decrement the successors of a task, and free it. -/
def State.retire (s : State) (d : Nat) : State := ((s.task d).succ.foldl State.decDep s).freeTask d

/-- A free descriptor beside another: in its slab, or in the pool. -/
def State.freeBeside (s : State) (d : Nat) : Option Nat := if d < 2048 then (s.slabFree (d / 32)).head? else s.genNext

/-- A task has four successors, so another one needs a JOIN. -/
def State.needsJoin (s : State) (p : Nat) : Bool :=
  match (s.task p).succ with
  | _ :: _ :: _ :: l :: _ => !((s.task l).kind = kJoin && decide ((s.task l).succ.length < 4))
  | _ => false

/-- Name `d` a successor of `p`: of a task with four, a JOIN takes the last one's place and names both (R207). -/
def State.addSucc (s : State) (p d : Nat) : State :=
  let t := s.task p
  if t.succ.length < 4 then s.setTask p { t with succ := t.succ ++ [d] } else
  let l := t.succ.getLast?.getD 0
  if !s.needsJoin p then s.setTask l { s.task l with succ := (s.task l).succ ++ [d] } else
  match s.freeBeside p with
  | none => s.setTask p { t with succ := t.succ ++ [d] }
  | some j => (s.putTask j { newTask kJoin with flow := t.flow, ch := t.ch, frame := t.frame, row := t.row, dep := 1, succ := [l, d] }).setTask p
      { t with succ := t.succ.dropLast ++ [j] }

/-- Add a successor to tasks, and count the additions in its DEP. -/
def State.precede (s : State) (ps : List Nat) (d : Nat) : State :=
  let s := ps.foldl (fun s p => s.addSucc p d) s
  let t := s.task d
  s.setTask d { t with dep := t.dep + ps.length, state := if t.dep + ps.length > 0 ∧ t.state = 3 then 1 else t.state }

/-- Release the tasks of a flow that are done, in FSEQ order from the oldest. -/
def flowFuel : Nat → Nat → State → State
  | 0, _, s => s
  | n + 1, f, s =>
    let x := s.flow f
    match (s.spd.tasks.find? fun e => decide (e.2.flow = f ∧ e.2.state = 5 ∧ e.2.fseq = x.oldest ∧ kindFlow e.2.kind)) with
    | none => s
    | some (d, _) =>
      let s := s.trace 5 d x.oldest
      flowFuel n f ((s.setFlow f { x with oldest := x.oldest + 1 }).retire d)

def State.flowRelease (s : State) (f : Nat) : State := flowFuel (s.spd.tasks.length + 1) f s

/-- A task completes (R208): in an ordered flow it is DONE until its flow release; else its successors go on at once. -/
def State.taskDone (s : State) (d : Nat) : State :=
  let t := s.task d
  let s := s.trace 4 d (slack t.deadline s.ns)
  if kindFlow t.kind then (s.setTask d { t with state := 5 }).flowRelease t.flow else s.retire d

/-- The window of a flow admits a task (R216), and an atomic flow has nothing dispatched (R217). -/
def State.flowOpen (s : State) (t : Task) : Bool :=
  if !kindFlow t.kind then true else
  let x := s.flow t.flow
  if x.atomic then !(s.spd.tasks.any fun e => decide (e.2.flow = t.flow ∧ e.2.state = 4)) && t.fseq = x.oldest
  else decide (t.fseq < x.oldest + x.window)

/-- Take a FSEQ out of a flow whose task is withdrawn (a channel's queued work is discarded). -/
def State.resetFlow (s : State) (f : Nat) : State :=
  let x := s.flow f
  s.setFlow f { x with oldest := x.next }

/-! ### The log's commands (R226) -/

/-- A write of MODE takes effect at once and keeps the records. -/
def execTracectlMode (v : Fin 4) (s : State) : Host.Outcome State Fault Refusal :=
  finish (
    let s := s.hostAccess Reg.SPD_TRACECTL_MODE
    if s.fclk then
    ({ s with spd := { s.spd with trigLeft := none } }.wr Reg.SPD_TRACECTL_MODE v).wr Reg.SPD_TRACESTAT_STOPPED 0 else s)

/-- Empty the log and zero TRACESTAT. -/
def State.traceClear (s : State) : State :=
  ((({ s with spd := { s.spd with log := [], trigLeft := none } }.wr Reg.SPD_TRACESTAT_COUNT 0).wr Reg.SPD_TRACESTAT_WRAPPED 0).wr
    Reg.SPD_TRACESTAT_STOPPED 0).wr Reg.SPD_TRACEHEAD_INDEX 0

def execTracectlClear (s : State) : Host.Outcome State Fault Refusal :=
  finish (
    let s := s.hostAccess Reg.SPD_TRACECTL_CLEAR
    if s.fclk then s.traceClear else s)

/-- A command finds no free descriptor: command interpretation stalls (R222). -/
def State.stallBegin (s : State) : State :=
  if s.rd Reg.SPD_SPDSTAT_STALL = 1 then s else
  let s := { s with spd := { s.spd with stallFrom := some s.ns } }
  ((s.wr Reg.SPD_SPDSTAT_STALL 1).ev (evSpd 1)).traceDev 12 255 0 0 0

/-- The stall on the pool ends: a descriptor is free (R222). The held commands are taken up by ORDER_WAIT_RELEASE. -/
def State.stallEnd (s : State) : State :=
  match s.spd.stallFrom with
  | none => s
  | some t =>
    let s := s.incWrap Reg.SPD_STALLCYC_CYCLES ((s.ns - t) * 3 / 2)
    { s with spd := { s.spd with stallFrom := none } }.wr Reg.SPD_SPDSTAT_STALL 0

end Sys2Proof.Machine
end

