-- ==== Sys2Proof/Machine/Hif.lean ====
section
/-! DEFINITION. The host interface's common path: opcode table, checks, effective points, replies, completions,
halts, mirrors (R229 to R265). Each opcode's meaning gives its own checks and its effect to `hostCmd`. -/

namespace Sys2Proof.Machine

/-! ### The opcode table (R259 to R268) -/

/-- One row of the opcode tables: who may carry it (0 channel command, 1 device command on AQ, 2 AQ and channel queues,
3 EQ only, 4 any queue), its PLEN, whether it takes effect at a point, and the channel states it is legal in (mask). -/
structure OpDef where
  kind   : Nat
  plen   : Nat
  point  : Bool
  states : Nat
deriving DecidableEq, Repr

/-- The opcode tables; `none` for a reserved opcode. -/
def opDef (op : Nat) : Option OpDef :=
  match op with
  | 0x0000 => some ⟨4, 0, false, 127⟩ | 0x0001 => some ⟨1, 0, false, 127⟩ | 0x0002 => some ⟨1, 32, false, 127⟩
  | 0x0003 => some ⟨1, 8, false, 127⟩ | 0x0004 => some ⟨1, 8, false, 127⟩ | 0x0005 => some ⟨2, 24, false, 127⟩
  | 0x0006 => some ⟨1, 8, false, 127⟩
  | 0x0100 => some ⟨0, 0, false, 1⟩ | 0x0101 => some ⟨0, 0, false, 98⟩ | 0x0102 => some ⟨0, 8, false, 38⟩
  | 0x0103 => some ⟨0, 8, false, 38⟩ | 0x0104 => some ⟨0, 40, true, 126⟩ | 0x0105 => some ⟨0, 4, false, 38⟩
  | 0x0106 => some ⟨0, 16, true, 126⟩ | 0x0107 => some ⟨0, 4, true, 126⟩ | 0x0108 => some ⟨0, 4, false, 126⟩
  | 0x0109 => some ⟨0, 0, false, 2⟩ | 0x010A => some ⟨0, 0, false, 36⟩ | 0x010B => some ⟨0, 0, true, 36⟩
  | 0x010C => some ⟨0, 0, true, 8⟩ | 0x010D => some ⟨0, 0, false, 64⟩ | 0x010E => some ⟨0, 0, false, 8⟩
  | 0x010F => some ⟨0, 0, true, 8⟩ | 0x0110 => some ⟨0, 0, false, 127⟩
  | 0x0120 => some ⟨1, 80, false, 127⟩ | 0x0121 => some ⟨1, 4, false, 127⟩ | 0x0122 => some ⟨1, 24, false, 127⟩
  | 0x0200 => some ⟨0, 64, true, 126⟩ | 0x0201 => some ⟨0, 24, true, 126⟩ | 0x0202 => some ⟨0, 16, true, 126⟩
  | 0x0203 => some ⟨0, 8, true, 126⟩ | 0x0210 => some ⟨1, 1800, true, 127⟩
  | 0x0300 => some ⟨2, 96, false, 127⟩
  | 0x0400 => some ⟨1, 16, true, 127⟩ | 0x0401 => some ⟨0, 8, true, 126⟩ | 0x0402 => some ⟨0, 4, true, 126⟩
  | 0x0500 => some ⟨0, 64, false, 38⟩ | 0x0501 => some ⟨0, 0, false, 38⟩ | 0x0502 => some ⟨0, 16, true, 126⟩
  | 0x0503 => some ⟨1, 16, true, 127⟩
  | 0x0600 => some ⟨1, 8, false, 127⟩ | 0x0601 => some ⟨1, 16, false, 127⟩ | 0x0602 => some ⟨1, 8, false, 127⟩
  | 0x0603 => some ⟨1, 0, false, 127⟩
  | 0x0700 => some ⟨1, 16, false, 127⟩ | 0x0701 => some ⟨1, 0, false, 127⟩ | 0x0702 => some ⟨1, 0, true, 127⟩
  | 0x0703 => some ⟨1, 0, false, 127⟩
  | 0x0800 => some ⟨1, 4, false, 127⟩ | 0x0801 => some ⟨1, 8, false, 127⟩ | 0x0810 => some ⟨1, 4, false, 127⟩
  | 0x0811 => some ⟨1, 8, false, 127⟩ | 0x0812 => some ⟨1, 0, false, 127⟩
  | 0x0900 => some ⟨1, 16, false, 127⟩ | 0x0901 => some ⟨1, 0, false, 127⟩
  | 0x0A00 => some ⟨1, 0, false, 127⟩ | 0x0A01 => some ⟨1, 0, false, 127⟩ | 0x0A02 => some ⟨1, 0, false, 127⟩
  | 0x0A03 => some ⟨1, 4, false, 127⟩
  | 0x0F00 => some ⟨3, 8, true, 127⟩ | 0x0F01 => some ⟨3, 8, true, 127⟩ | 0x0F02 => some ⟨1, 16, false, 127⟩
  | _ => none

/-- A command of a mirrored group that is not local (R254, R264). -/
def opMirrored (op : Nat) : Bool :=
  [1, 2, 3, 4, 5, 8, 15].contains (op / 256) &&
    !([0x0108, 0x010D, 0x0110, 0x0810, 0x0811, 0x0812].contains op)

/-- A channel command names its channel in replies. -/
def opChannel (op ch : Nat) : Nat :=
  match opDef op with
  | some d => if d.kind = 0 ∧ ch < 64 then ch else 255
  | none => 255

/-! Status codes (R259). -/
def stOk : Nat := 0
def stAccepted : Nat := 1
def stWrongState : Nat := 2
def stBadParam : Nat := 3
def stUnsupported : Nat := 4
def stCapacity : Nat := 5
def stNoResource : Nat := 6
def stBusy : Nat := 7
def stDeferred : Nat := 8
def stRefused : Nat := 9
def stStandby : Nat := 10
def stLocked : Nat := 11
def stLinebuf : Nat := 12
def stOverlap : Nat := 13
def stAlign : Nat := 14
def stPairVersion : Nat := 15
def stAborted : Nat := 16
def stTimeout : Nat := 17
def stInternal : Nat := 255

/-- A refusal: status, detail and result words; `frag` says that check 9 of R38 failed although FBFREE would have held the buffers (R109). -/
structure Ref4 where
  status : Nat
  detail : Nat
  r0     : Nat := 0
  r1     : Nat := 0
  frag   : Bool := false
deriving DecidableEq, Repr

/-- A parameter field out of range at byte `b` (R260). -/
def badAt (b : Nat) : Ref4 := { status := stBadParam, detail := 0x8000 + b }

/-- The first of a list of checks that fails. -/
def firstBad : List (Bool × Ref4) → Option Ref4
  | [] => none
  | (bad, r) :: rest => if bad then some r else firstBad rest

/-- Whether `n` parameter bytes from `o` hold a bit. -/
def nz (p : Bytes) (o n : Nat) : Bool := decide (fld p o n ≠ 0)

/-- A time in TIME form (R237). -/
def timeForm (ns : Nat) : Nat := 2 ^ 62 + ns % 2 ^ 62

/-! ### Posting (R234, R240 to R243) -/

/-- A commit's point has already passed: its row has been released (R220). -/
def Chan.passed (c : Chan) (frame row : Nat) : Bool := rowLt (frame, row) (c.nextFrame, c.nextRow)

/-- The class of the block whose bank a commit loads (R209, R213): composition, the packer and shapers, or the encoder. -/
def CommitK.cls : CommitK → Nat
  | .layerSet .. => 1 | .layerBind .. => 1 | .layerFlip .. => 1 | .layerDirty .. => 1 | .coef .. => 1
  | .route .. => 2 | .unroute .. => 2 | .shaper .. => 2 | .window .. => 2 | .audPort .. => 2
  | _ => 0

/-- The tick at which a commit applies: the release of the row it precedes, or its point in time (R209, R212, R220). -/
def State.commitTick (s : State) (c : Commit) : Nat :=
  cdiv (if c.ch < 64 ∧ c.kind ≠ .start then c.ns + (s.chan c.ch).tRow else c.ns) 1000

/-- The COMMIT task of a commit, in the lowest free descriptor of the general pool, with the release of its row as its deadline (R206, R209). Descriptor 0,
which is of a slab, stands for none. -/
def State.commitTask (s : State) (c : Commit) : Nat × State :=
  match s.genNext with
  | none => (0, s)
  | some d =>
    let t := s.commitTick c
    (d, s.putTask d { newTask kCommit with cls := c.kind.cls, flow := if c.ch < 64 then 0x100 + c.ch else 0x140, ch := c.ch, fseq := c.fseq, row := c.row, frame := c.frame,
                                           release := t, deadline := some (1000 * t) })

/-- A commit applies: it is recorded in the log, and its descriptor returns (R208, R225). -/
def State.commitDone (s : State) (c : Commit) : State :=
  let s := if c.desc = 0 then s.traceDev 6 c.ch c.frame c.row 0 else s.trace 6 c.desc 0
  let f := if c.ch < 64 then 0x100 + c.ch else 0x140
  let s := s.setFlow f { s.flow f with oldest := max (s.flow f).oldest (c.fseq + 1) }
  if c.desc = 0 then s else
  let cl := (s.task c.desc).cls
  (s.incWrap Reg.SPD_DISPCNT_COUNT 1 0 cl).freeTask c.desc

/-- Discard the commits of a channel: their descriptors return (R242). -/
def State.dropCommits (s : State) (n : Nat) : State :=
  let c := s.chan n
  (c.commits.foldl (fun s x => if x.desc = 0 then s else s.freeTask x.desc) s).setChan n { c with commits := [] }

/-- Hand a commit to the Spindle (R220, R242): a late one is moved to the channel's next row release, with
EV_SPD_COMMIT_LATE. A commit of a channel that has entered CH_FAULTED is discarded. -/
def State.handCommit (s : State) (c : Commit) : State :=
  if c.ch < 64 ∧ s.chSt c.ch = 6 then s else
  let (d, s) := s.commitTask c
  let c := { c with desc := d }
  if c.ch = 255 then { s with spd := { s.spd with devCommits := s.spd.devCommits ++ [c] } } else
  let k := s.chan c.ch
  if c.kind ≠ .start ∧ k.passed c.frame c.row then
    (s.setChan c.ch { k with commits := k.commits ++ [{ c with frame := k.nextFrame, row := k.nextRow, late := true }] }).ev (evSpd 10)
  else s.setChan c.ch { k with commits := k.commits ++ [c] }

/-- The 32 bytes of a reply or completion entry (R240). -/
def entryBytes (tag status st fl detail hd op r0 r1 : Nat) : Bytes :=
  toLe 2 tag ++ toLe 2 status ++ toLe 1 st ++ toLe 1 fl ++ toLe 2 detail ++ toLe 2 hd ++ toLe 2 op ++ toLe 4 0 ++ toLe 8 r0 ++ toLe 8 r1

/-- Write one entry to a completion ring, signal it, and hand its commits on (R240 to R242). The ring that it fills
parks its queue (R234). A reserved opcode is not echoed (R15); that OPCODE then holds 0 is a DESIGN CHOICE (log entry 100). -/
def State.postEntry (s : State) (q : Nat) (r : Rply) : State :=
  let at_ := s.slotAddr q
  let (ph, s) := s.ringSlot q
  let st := if r.channel < 64 then s.chSt r.channel else s.dev
  let fl := ph + 2 * bit r.compl + 4 * bit r.halted + 8 * bit r.unmirrored
  let op := if (opDef r.opcode).isSome then r.opcode else 0
  let hd := s.rd Reg.HIF_QSTAT_HEAD 0 q
  let s := s.cvuItem 956 (entryBytes r.tag r.status st fl r.detail hd op r.r0 r.r1) (some at_) none
  let s := s.emit (.reply q r.tag r.status st fl r.detail hd op r.r0 r.r1)
  let u := s.que q
  let s := if r.final then s.setQue q { u with openPos := u.openPos.erase r.pos } else s
  let s := s.signal q (r.notify || r.halted)
  let s := if s.ringRoom q || s.rd Reg.HIF_QSTAT_CQFULL 0 q = 1 then s
    else (s.wr Reg.HIF_QSTAT_CQFULL 1 0 q).ev (evHif 6)
  r.commits.foldl State.handCommit s

/-- Post waiting entries, oldest first, while the ring has room, the oldest is not held, and the pool has the descriptors of its commits: a queue whose command finds
none stays unanswered (R222). -/
def postFuel : Nat → Nat → State → State
  | 0, _, s => s
  | n + 1, q, s =>
    match (s.que q).replies with
    | [] => s
    | r :: rest =>
      if r.hold ≠ .none ∨ !s.ringRoom q then s
      else if s.genCount < r.commits.length then s.stallBegin
      else postFuel n q ((s.setQue q { s.que q with replies := rest }).postEntry q r)

def State.post (s : State) (q : Nat) : State := postFuel ((s.que q).replies.length + 1) q s

/-- The reply delay of R496 in ns. -/
def State.replyDelay (s : State) (q : Nat) : Nat :=
  if s.rd Reg.TST_LOCKSTAT_OPEN = 1 ∧ s.rd Reg.TST_CPLDELAY_QID = q then s.rd Reg.TST_CPLDELAY_US * 1000 else 0

/-- A reply or completion is ready: it waits behind earlier ones, for its mirror, or for the reply delay. The reply of a
command whose queue is gone is discarded (R459); AQ and EQ when stopped keep their rings (R257). -/
def State.reply (s : State) (q : Nat) (r : Rply) : State :=
  if s.rd Reg.HIF_QSTAT_ENABLED 0 q = 0 ∧ (s.que q).cqlog2 = 0 then r.commits.foldl State.handCommit s else
  let d := s.replyDelay q
  let r := if d > 0 ∧ r.hold = .none then { r with hold := .until (s.ns + d) } else r
  let u := s.que q
  (s.setQue q { u with replies := u.replies ++ [r] }).post q

/-- A queue halts (R246). -/
def State.halt (s : State) (q : Nat) : State := (s.wr Reg.HIF_QSTAT_HALTED 1 0 q).ev (evHif 5)

/-- Post the completions of a queue, in submission order (R241). A completion that is not ST_OK halts a queue whose
command carried STOP_ON_ERROR (R246). -/
def completeFuel : Nat → Nat → State → State
  | 0, _, s => s
  | n + 1, q, s =>
    let u := s.que q
    match u.outst with
    | [] => s
    | o :: rest =>
      match o.done with
      | none => s
      | some (st, det, r0, r1) =>
        let h := st ≠ stOk ∧ o.flags % 2 = 1 ∧ q ≠ 1
        let s := s.setQue q { u with outst := rest, stopWait := if u.stopWait = some o.pos then none else u.stopWait }
        let s := if h then s.halt q else s
        completeFuel n q (s.reply q { pos := o.pos, tag := o.tag, opcode := o.opcode, channel := o.channel, status := st, detail := det, r0 := r0, r1 := r1, compl := true, halted := h, notify := o.flags.testBit 2, unmirrored := false, final := true, hold := .none, commits := [] })

/-- The work behind an accepted command ends. A key names its queue in its low 7 bits; key 0 is nobody's. -/
def State.complete (s : State) (key status : Nat) (detail r0 r1 : Nat := 0) : State :=
  if key = 0 then s else
  let q := key % 128
  let u := s.que q
  let s := s.setQue q { u with outst := u.outst.map fun o => if o.key = key ∧ o.done = none then { o with done := some (status, detail, r0, r1) } else o }
  completeFuel (u.outst.length + 1) q s

/-! ### Checks 1 to 5 (R244) -/

/-- Whether a queue accepts an opcode (R250). -/
def opAccepted (d : OpDef) (op q : Nat) : Bool :=
  if q = 1 then d.kind = 3 || op = 0
  else if d.kind = 3 then false
  else if d.kind = 1 then q = 0
  else true

/-- Header check of the effective point (R237). -/
def pointBad (s : State) (d : OpDef) (q ch eff : Nat) : Bool :=
  let form := eff / 2 ^ 62
  let v := eff % 2 ^ 62
  form = 3 || (form = 0 && v ≠ 0) || (form = 2 && v / 2 ^ 58 ≠ 0) ||
    (d.point && form = 2 && (d.kind ≠ 0 || q = 1 || s.chSt ch ≠ 3 || (v / 2 ^ 46) % 4096 ≥ (s.chan ch).rows))

/-- The start and stop commits of a channel not yet in effect, oldest first: handed over, or on replies still held. -/
def State.pendKinds (s : State) (n : Nat) : List CommitK :=
  ((s.chan n).commits ++ (s.hif.ques.flatMap fun e => e.2.replies.flatMap fun r => r.commits.filter fun c => c.ch = n)).map (·.kind)

/-- The projected state (R245). -/
def State.projSt (s : State) (n : Nat) : Nat :=
  (s.pendKinds n).foldl (fun st k => match k with | .start => 3 | .stop => 4 | _ => st) (s.chSt n)

/-- Checks 1 to 5 of R244. `mirror` leaves out checks 1 and 3 (R375). -/
def preCheck (s : State) (mirror : Bool) (op q flags ch plen eff : Nat) (zero : Bool) (p : Bytes) : Option Ref4 :=
  match opDef op with
  | none => some { status := stUnsupported, detail := 1 }
  | some d =>
    firstBad [
      (!mirror && !opAccepted d op q, { status := stUnsupported, detail := 1 }),
      (!zero || flags / 8 ≠ 0, { status := stBadParam, detail := 1 }),
      (d.kind = 0 && ch > 63, { status := stBadParam, detail := 4 }),
      (d.kind = 0 && q ≥ 2 && ch + 2 ≠ q, { status := stBadParam, detail := 3 }),
      ((d.kind = 1 || d.kind = 3) && ch ≠ 255, { status := stBadParam, detail := 4 }),
      (plen ≠ d.plen, { status := stBadParam, detail := 5 }),
      (!mirror && pointBad s d q ch eff, { status := stBadParam, detail := 2 }),
      (!mirror && opMirrored op && s.role ≥ 2, { status := stStandby, detail := 0 }),
      (([0x0811, 0x0810, 0x0701].contains op || (op = 0x0006 && fld p 1 1 = 0)) && s.rd Reg.PCR_LCSTAT_ON_AIR_LOCK = 1,
        { status := stLocked, detail := 1 }),
      (op = 0x0F02 && s.rd Reg.CMP_CMPSTAT_ANY_EM = 1, { status := stLocked, detail := 3 }),
      (s.dev = 2 && !([0, 9, 10].contains (op / 256)) && !([0x0110, 0x010D, 0x0101, 0x0703, 0x0603, 0x0812].contains op),
        { status := stWrongState, detail := 0x8000 + 2 * 256 }),
      (op = 0x0A02 && s.dev ≠ 3, { status := stWrongState, detail := 0x8000 + s.dev * 256 }),
      (d.kind = 0 && !d.states.testBit (s.projSt ch), { status := stWrongState, detail := s.projSt ch })]

/-! ### Interpretation (R238, R239, R244) -/

/-- What a meaning is told: queue, channel, completion key, time of interpretation, resolved point, effective row, and
whether the effect waits for that row (the channel runs, or a stop follows a start). -/
structure Ctx where
  q     : Nat
  ch    : Nat
  key   : Nat
  tag   : Nat
  ti    : Nat
  ns    : Nat
  frame : Nat
  row   : Nat
  rowed : Bool
deriving DecidableEq, Repr

/-- What a meaning answers. -/
inductive Ans where
  /-- A final reply, with the commits that its posting hands on. -/
  | final (status detail r0 r1 : Nat) (commits : List Commit)
  /-- ST_ACCEPTED, or ST_DEFERRED; the completion follows under the key. -/
  | later (deferred : Bool)
  /-- ST_ACCEPTED, and the completion at once. -/
  | accDone (status detail r0 r1 : Nat)
  /-- The reply waits for a barrier (R248): its tails. -/
  | barrier (mask timeout : Nat)
  /-- No descriptor is free: the queue is parked (R222). -/
  | stall
deriving DecidableEq, Repr

/-- A refusal as an answer. -/
def Ref4.ans (r : Ref4) : Ans := .final r.status r.detail r.r0 r.r1 []

/-- ST_OK with result words and nothing pending. -/
def ok2 (r0 r1 : Nat) : Ans := .final stOk 0 r0 r1 []

/-- A commit of this command. -/
def Ctx.commit (c : Ctx) (k : CommitK) : Commit := { ch := c.ch, frame := c.frame, row := c.row, ns := c.ns, fseq := 0, kind := k }

/-- The resolved point in ns (R238). -/
def State.resolveNs (s : State) (ch eff : Nat) : Nat :=
  let v := eff % 2 ^ 62
  let least := s.ns + s.leadM
  if eff / 2 ^ 62 = 0 then least
  else if eff / 2 ^ 62 = 1 then (if s.leadM > 0 then max v least else v)
  else s.refNs ch (v % 2 ^ 46) (v / 2 ^ 46 % 4096)

/-- Resolve a command's point and raise its row over the queue's last one on the channel (R238, R239). On a channel that does not run a command applies at once, save a
start. A mirror comes with its point resolved (R375). -/
def State.resolve (s : State) (op q ch key tag eff : Nat) (mirror : Bool := false) : Ctx :=
  match opDef op with
  | none => { q, ch, key, tag, ti := s.ns, ns := s.ns, frame := 0, row := 0, rowed := false }
  | some d =>
    if !d.point then { q, ch, key, tag, ti := s.ns, ns := s.ns, frame := 0, row := 0, rowed := false } else
    let ns := if mirror && eff / 2 ^ 62 = 1 then eff % 2 ^ 62 else s.resolveNs ch eff
    if d.kind ≠ 0 then { q, ch, key, tag, ti := s.ns, ns, frame := 0, row := 0, rowed := false }
    else if !(s.chSt ch = 3 || (op = 0x010C && s.projSt ch = 3)) then
      { q, ch, key, tag, ti := s.ns, ns := if op = 0x010B ∨ mirror then ns else s.ns, frame := 0, row := 0, rowed := false }
    else
      let r := if eff / 2 ^ 62 = 2 then (eff % 2 ^ 46, eff / 2 ^ 46 % 4096) else s.rowAt ch ns
      match tget (0, 0) (s.que q).raised ch with
      | last => if rowLt r last then { q, ch, key, tag, ti := s.ns, ns := s.refNs ch last.1 last.2, frame := last.1, row := last.2, rowed := true }
                else { q, ch, key, tag, ti := s.ns, ns, frame := r.1, row := r.2, rowed := true }

/-- Number the commits of a command in its channel's commit flow, in order of interpretation (R239). -/
def State.number (s : State) (cs : List Commit) : List Commit × State :=
  cs.foldl (fun (acc, s) c =>
    let f := if c.ch < 64 then 0x100 + c.ch else 0x140
    let fl := s.flow f
    (acc ++ [{ c with fseq := fl.next }], s.setFlow f { fl with next := fl.next + 1 })) ([], s)

/-- A meaning's own checks (6, 7) and its effect. A command whose commits or task find no free descriptor stalls (R222). -/
abbrev OpChk := State → Nat → Bytes → Option Ref4
abbrev OpRun := Ctx → Bytes → State → State × Ans

/-- The effect of a command that has passed its checks: its point is resolved, its commits are numbered, and an ST_OK
without a result word carries the resolved point. A command that finds no free descriptor stalls its source instead. -/
def State.perform (s : State) (mirror : Bool) (op q ch tag eff : Nat) (p : Bytes) (key : Nat) (run : OpRun) : State × Ans :=
  let c := s.resolve op q ch key tag eff mirror
  let s0 := s
  let (s, a) := run c p s
  match a with
  | .stall => (s0.stallBegin, .stall)
  | .final st d r0 r1 cs =>
    if cs ≠ [] ∧ s0.genCount < cs.length then (s0.stallBegin, .stall) else
    let (cs, s) := s.number cs
    let r0 := if r0 = 0 ∧ st = stOk ∧ ((opDef op).map (·.point)).getD false then timeForm c.ns else r0
    let s := if c.rowed then
      let u := s.que q
      s.setQue q { u with raised := tset (0, 0) u.raised ch (c.frame, c.row) } else s
    (s, .final st d r0 r1 cs)
  | a => (s, a)

/-- Checks and effect of one command; a refused command changes nothing but for the event of R109. -/
def State.judge (s : State) (mirror : Bool) (op q flags ch tag plen eff : Nat) (zero : Bool) (p : Bytes) (key : Nat)
    (chk : OpChk) (run : OpRun) : State × Ans :=
  match preCheck s mirror op q flags ch plen eff zero p with
  | some r => (s, r.ans)
  | none =>
    match chk s ch p with
    | some r => (if r.frag then s.ev (evRef 5) else s, r.ans)
    | none => s.perform mirror op q ch tag eff p key run

/-- A reply record for a command of queue `q`. -/
def mkRply (pos tag op ch status detail r0 r1 : Nat) (flags : Nat) (halted : Bool) (commits : List Commit) : Rply :=
  { pos := pos, tag := tag, opcode := op, channel := opChannel op ch, status := status, detail := detail, r0 := r0, r1 := r1,
    compl := false, halted := halted, notify := flags.testBit 2, unmirrored := false, final := status ≠ stAccepted ∧ status ≠ stDeferred,
    hold := .none, commits := commits }

/-- Send a mirror of a command that passed its checks (R254, R256, R377), and hold its reply for it. A mirror whose
partner is absent is abandoned at once. -/
def State.mirrorOut (s : State) (q op flags ch tag plen eff : Nat) (p : Bytes) (r : Rply) : Rply × State :=
  if !(s.role = 1 && opMirrored op && (r.status = stOk || r.status = stAccepted || r.status = stDeferred)) then (r, s)
  else if s.partnerTakes then
    let seq := (s.tx 1).next
    ({ r with hold := .ack seq s.ns }, s.linkSend 1 (.mirror q op flags ch tag plen eff p r.status r.detail r.r0 r.r1))
  else ({ r with unmirrored := true }, (s.incSat Reg.HIF_PAIRCNT_UNACKED).ev (evHif 9))

/-- Answer a command: halt if it must, mirror it, and post its reply (R235, R241, R246). -/
def State.answer (s : State) (q pos op : Nat) (h : Hdr) (p : Bytes) (eff : Nat) (key : Nat) (a : Ans) : State :=
  let fl := h.flags.toNat
  let soe := fl % 2 = 1 ∧ q ≠ 1
  let ch := h.channel.toNat
  let tag := h.tag.toNat
  let big := h.plen.toNat > 4064 ∧ q ≠ 1
  match a with
  | .final st d r0 r1 cs =>
    let hlt := (soe ∧ st ≠ stOk) ∨ big
    let s := if hlt then s.halt q else s
    let s := if st = stStandby then s.incSat Reg.HIF_PAIRCNT_STANDBY else s
    let (r, s) := s.mirrorOut q op fl ch tag h.plen.toNat eff p (mkRply pos tag op ch st d r0 r1 fl hlt cs)
    s.reply q r
  | .later df =>
    let u := s.que q
    let s := s.setQue q { u with outst := u.outst ++ [{ key := key, pos := pos, tag := tag, opcode := op, flags := fl, channel := opChannel op ch, done := none }],
                                 stopWait := if soe then some pos else u.stopWait }
    let (r, s) := s.mirrorOut q op fl ch tag h.plen.toNat eff p
      (mkRply pos tag op ch (if df then stDeferred else stAccepted) 0 0 0 fl false [])
    s.reply q r
  | .accDone st d r0 r1 =>
    let u := s.que q
    let s := s.setQue q { u with outst := u.outst ++ [{ key := key, pos := pos, tag := tag, opcode := op, flags := fl, channel := opChannel op ch, done := none }],
                                 stopWait := if soe then some pos else u.stopWait }
    let (r, s) := s.mirrorOut q op fl ch tag h.plen.toNat eff p
      (mkRply pos tag op ch stAccepted 0 0 0 fl false [])
    (s.reply q r).complete key st d r0 r1
  | .barrier mask timeout =>
    let u := s.que q
    let snap := ((u.snaps.find? fun e => decide (pos < e.1)).map (·.2)).getD (s.hif.ques.map fun e => (e.1, e.2.tailAbs))
    let tails := snap.filter fun e => mask.testBit e.1 && e.1 ≠ q
    s.setQue q { u with barrier := some { pos := pos, tag := tag, flags := fl, tails := tails, expiry := s.ns + 1000 * timeout } }
  | .stall => s

/-- Every command core's queue (R249). -/
def coreOf (q : Nat) : Nat := if q = 1 then 3 else if q = 0 then 0 else (q - 2) % 3

/-- The core that serves a queue runs; CMDC0 stands in for CMDC3 (R251). -/
def State.coreUp (s : State) (q : Nat) : Bool :=
  !(tget false s.hif.coreDown (coreOf q)) || (q = 1 && !(tget false s.hif.coreDown 0))

/-- The oldest fetched command of a queue has its parameters (R235). -/
def Que.ready (u : Que) : Bool :=
  match u.fetched with
  | [] => true
  | f :: _ => f.dma = 0 || f.dma = 3

/-- A queue's next command can be interpreted (R234, R246, R248, R249, R251, R262). -/
def State.served (s : State) (q : Nat) : Bool :=
  s.dev ≠ 0 && s.fclk && s.rd Reg.HIF_QSTAT_ENABLED 0 q = 1 && s.rd Reg.HIF_QSTAT_HALTED 0 q = 0 &&
    s.rd Reg.HIF_QSTAT_CQFULL 0 q = 0 && (s.que q).barrier = none && (s.que q).held = none && s.coreUp q && (s.que q).ready

/-- An earlier command of the queue still lacks its final reply. -/
def Que.owes (u : Que) : Bool := !u.outst.isEmpty || u.replies.any (·.final)

/-- The position of the command about to be interpreted, whether its parameter copy failed, and the queue without it. -/
def State.popFetched (s : State) (q : Nat) : Nat × Bool × State :=
  let u := s.que q
  match u.fetched with
  | [] => (u.headAbs, false, s)
  | f :: rest => (f.pos, f.dma = 3, s.setQue q { u with fetched := rest })

/-- A new completion key for a queue. -/
def State.newKey (s : State) (q : Nat) : Nat × State :=
  (s.hif.nextKey * 128 + q, { s with hif := { s.hif with nextKey := s.hif.nextKey + 1 } })

/-- End the interpretation of a command at position `pos` of its queue: it is counted and answered; `s0` is the state before
it, in which its point was resolved. A queue parked for a descriptor keeps the command. -/
def State.conclude (s1 s0 : State) (i : Instr) (pos op : Nat) (h : Hdr) (p : Bytes) (key : Nat) (a : Ans) : State :=
  let q := h.qid.val
  let eff := h.effpt.toNat
  match a with
  | .stall => s1.setQue q { s1.que q with held := some (i, pos) }
  | a =>
    let s1 := s1.incWrap Reg.HIF_CMDCNT_COUNT
    let eff := match a with
      | .final _ _ _ _ _ => if ((opDef op).map (·.point)).getD false then
          (let c := s0.resolve op q h.channel.toNat key h.tag.toNat eff
           if c.rowed then 2 ^ 63 + c.row * 2 ^ 46 + c.frame else timeForm c.ns) else eff
      | _ => eff
    s1.answer q pos op h p eff key a

/-- Interpret one command at position `pos` of its queue. -/
def State.interpAt (s : State) (i : Instr) (pos op : Nat) (h : Hdr) (p : Bytes) (chk : OpChk) (run : OpRun) : State :=
  let q := h.qid.val
  let (key, s) := s.newKey q
  let (s1, a) := s.judge false op q h.flags.toNat h.channel.toNat h.tag.toNat h.plen.toNat h.effpt.toNat (h.zero = 0) p key chk run
  s1.conclude s i pos op h p key a

/-- A flush aborts the command at a position (R246). -/
def Que.flushes (u : Que) (pos : Nat) : Bool := match u.flush with | some f => decide (pos < f) | none => false

/-- The path of every host command (R244): a queue that cannot interpret leaves it where it is; ORDER_WAIT, or an
accepted STOP_ON_ERROR command ahead, holds it; a flush aborts it; a failed parameter copy and a faulted channel answer
ST_INTERNAL (R235, R37). -/
def State.hostCmd (s : State) (i : Instr) (op : Nat) (h : Hdr) (p : Bytes) (chk : OpChk) (run : OpRun) : State :=
  let q := h.qid.val
  if !s.served q then s else
  let (pos, bad, s) := s.popFetched q
  let u := s.que q
  let ch := q - 2
  if u.flushes pos then
    s.reply q (mkRply pos h.tag.toNat op h.channel.toNat stAborted 3 0 0 h.flags.toNat false [])
  else if (h.flags.toNat.testBit 1 && u.owes) || u.stopWait.isSome then s.setQue q { u with held := some (i, pos) }
  else if bad then s.answer q pos op h p 0 0 (.final stInternal 1 0 0 [])
  else if q ≥ 2 ∧ (s.chan ch).intDue then
    (s.setChan ch { s.chan ch with intDue := false }).answer q pos op h p 0 0 (.final stInternal 3 0 0 [])
  else s.interpAt i pos op h p chk run

/-- A held command is taken up again. -/
def State.resumeHeld (s : State) (i : Instr) (pos op : Nat) (h : Hdr) (p : Bytes) (chk : OpChk) (run : OpRun) : State :=
  let q := h.qid.val
  (s.setQue q { s.que q with held := none }).interpAt i pos op h p chk run

/-- A command whose row names no parameters beyond its PLEN. -/
def noChk : OpChk := fun _ _ _ => none

end Sys2Proof.Machine
end

