-- ==== Sys2Proof/Machine/Safe.lean ====
section
/-! DEFINITION. Channel faults (R37), device states (R458) and entry to DEV_SAFE (R438, R439). -/

namespace Sys2Proof.Machine

/-- A coefficient command no longer waits for a channel that composes nothing any more; one that waits for none is in effect
(R142, R220). -/
def State.coefSettle (s : State) : State :=
  let w := s.cmp.coefWait.map fun (b, k, t, ch) => (b, k, t, ch.filter fun n => s.chSt n = 3 || s.chSt n = 4)
  let done := w.filter fun e => e.2.2.2.isEmpty
  let w := w.filter fun e => !e.2.2.2.isEmpty
  let keep := s.cmp.chBank.filter fun e => w.any fun x => x.2.1 = e.1 % 4 && x.2.2.2.contains (e.1 / 4)
  let s := { s with cmp := { s.cmp with coefWait := w, chBank := keep } }
  done.foldl (fun s _ => s.ev (evCmp 10)) s

/-- A running or draining channel enters CH_FAULTED (R36, R37): its pending commits are discarded (R242), the check windows of its abandoned picture end (R429), and with
FAULT = 0x04 the next reply on its queue carries ST_INTERNAL. -/
def State.faultChan (s : State) (n cause : Nat) : State :=
  if s.chSt n ≠ 3 ∧ s.chSt n ≠ 4 then s else
  let s := s.dropCommits n
  let c := s.chan n
  let s := s.setChan n { c with intDue := c.intDue || decide (cause = 4) }
  let s := s.forEach [384 + n, 448 + n, 512 + n, 960 + n] fun s u => s.cvuEnd u
  ((s.wr Reg.CHC_CHSTATE_FAULT cause n).setChSt n 6 (s.rd Reg.CHC_FRAMECNT_COUNT n)).coefSettle

/-- Blits of a queue that wait for dispatch are discarded, by a flush or by OP_CH_RESET (R180). -/
def State.abortBlits (s : State) (q : Nat) : State :=
  let ds := (s.spd.tasks.filter fun e => e.2.kind = kBlit && e.2.flow = blitFlow q && decide (1 ≤ e.2.state) && decide (e.2.state ≤ 3)).map (·.1)
  ds.foldl (fun s d =>
    let key := (s.task d).key
    let s := { s with blt := { s.blt with cmds := tdel s.blt.cmds d } }
    (s.taskDone d).complete key stAborted 3) s

/-- The interlock output (R364, R369). -/
def State.lockOut (s : State) (held : Bool) : State :=
  if s.rd Reg.PAIR_PAIRSTAT_LOCKOUT = bit held then s
  else (s.wr Reg.PAIR_PAIRSTAT_LOCKOUT (bit held)).emit (.pin .lockOut held)

/-- The device gives up the interlock as it enters reset, DEV_SAFE or AO_ONLY: a HEADSTOCK stops its network A flows first (R369). -/
def State.giveUpLock (s : State) : State :=
  ({ s with pair := { s.pair with aStop := s.pair.aStop || decide (s.role = 1), claim := .idle } }).lockOut false

/-- A change of device state raises EV_PCR_DEV_STATE (R447, R458). -/
def State.setDev (s : State) (new cause : Nat) : State :=
  let old := s.dev
  (s.wr Reg.PCR_DEVSTAT_DEV new).ev (evPcr 0) 255 (new + 16 * old + 256 * cause)

/-- The RW, RWL and W1S fields of the TST block. -/
def tstRows : List Row := Reg.rowsTST.filter fun r => r.typ = .rw || r.typ = .rwl

/-- The lock of the TST block closes (R494): its fields and every injection mode return to reset, and what runs or waits ends. -/
def State.tstClose (s : State) : State :=
  if s.rd Reg.TST_LOCKSTAT_OPEN = 0 then s else
  let s := tstRows.foldl (fun (s : State) r => s.wr r r.rst) (s.wr Reg.TST_LOCKSTAT_OPEN 0)
  let s := s.forEach (List.range 32) fun s l => s.wr Reg.SDS_INJCTL_MODE 0 l
  ({ s with tst := {}, dmc := { s.dmc with skew := none } }.tstShow).ev (evTst 1)

/-- Entry to DEV_SAFE (R438, R439): the interlock is released, every running channel faults in ascending order, and
SAFESTAT is set. One that arises in DEV_BOOT ends the boot (R458). -/
def State.enterSafe (s : State) (cause info : Nat) : State :=
  if s.dev = 2 then s else
  let s := s.giveUpLock
  let s := s.forEach (List.range 64) fun s n => s.faultChan n 4
  let s := ((s.wr Reg.EVT_SAFESTAT_CAUSE cause).wr Reg.EVT_SAFESTAT_SAFE 1).wr Reg.EVT_SAFEINFO_INFO info
  let boot := s.dev = 0
  let s := s.setDev 2 cause
  let s := if boot then ({ s with pcr := { s.pcr with kind := 0, stage := 2 } }).ev (evPcr 2) 255 (s.rd Reg.PCR_RSTCAUSE_CAUSE) else s
  s.tstClose

end Sys2Proof.Machine
end

