-- ==== Sys2Proof/Machine/Admit.lean ====
section
/-! DEFINITION. Admission: the ten checks of R38 with the words of R39, and the reservations they make and return
(R42, R43, R53, R93, R98, R103, R194, R195, R277, R284, R294, R305, R307, R310). -/

namespace Sys2Proof.Machine

/-! ### Who reads what -/

/-- An input flow. -/
def State.flowIn (s : State) (f : Nat) : Option InFlow := tget none s.inp.flows f
def State.setFlowIn (s : State) (f : Nat) (v : Option InFlow) : State :=
  { s with inp := { s.inp with flows := tset none s.inp.flows f v } }

def State.prog (s : State) (g : Nat) : Option Prog := tget none s.progs g
def State.setProg (s : State) (g : Nat) (v : Option Prog) : State := { s with progs := tset none s.progs g v }
/-- A routed slot of a program. -/
def State.slotRoute (s : State) (g k : Nat) : Option Route := tget none s.routes (8 * g + k)

/-- The flow a layer's latest binding names. -/
def State.layerFlow (s : State) (l : Nat) : Option Nat :=
  match (s.layer l).latestBnd with
  | some b => if b.fmt = 6 then some b.flow else none
  | none => none

/-- A channel reads an input flow: a layer bind for video, a route for audio, CCFLOW for ancillary (R277). -/
def State.readsFlow (s : State) (n f : Nat) : Bool :=
  ((List.range 4).any fun k => s.layerFlow (4 * n + k) = some f) ||
    ((List.range 8).any fun k => match s.slotRoute n k with | some r => r.kind = 1 && r.src = f | none => false) ||
    ((s.chan n).coding.captions = 1 && (s.chan n).coding.ccflow = f && s.chSt n ≠ 0 &&
      (match s.flowIn f with | some x => x.kind = 2 | none => false))

/-- A channel reads some video flow. -/
def State.readsVideo (s : State) (n : Nat) : Bool := (List.range 4).any fun k => (s.layerFlow (4 * n + k)).isSome

/-- A channel holds reservations. -/
def State.admitted (s : State) (n : Nat) : Bool := (s.chan n).adm.isSome

/-- A channel counts in a check run for channel `n`. -/
def State.counts (s : State) (n m : Nat) : Bool := decide (m = n) || s.admitted m

def sumOver (l : List Nat) (f : Nat → Nat) : Nat := l.foldl (fun a x => a + f x) 0

/-! ### Charges -/

def State.pix (s : State) (n : Nat) : Nat := pixCharge (s.chan n).raster (s.chan n).rate
def State.lMinOf (s : State) (n : Nat) : Nat := lMin (s.chan n).raster (s.chan n).rate (s.chan n).coding.codec s.leadM
def State.latNs (s : State) (n : Nat) : Nat := s.rd Reg.CHC_LATENCY_L_US n * 1000
def State.live (s : State) (n : Nat) : Bool := s.chSt n = 3 || s.chSt n = 4

/-- B_cpb (R53); a running channel keeps the value of its start (R70, R366). -/
def State.cpbOf (s : State) (n : Nat) : Nat :=
  if s.live n then s.rd Reg.CHC_CPBSIZE_BYTES n else bCpb (s.capC n) (s.latNs n) (s.lMinOf n)

/-- A common multiple of 1 to 32, so that engine shares are whole. -/
def engScale : Nat := 144403552893600

/-- Number of engines of a mask. -/
def popc (m : Nat) : Nat := (List.range 32).foldl (fun a e => a + bit (m.testBit e)) 0

/-- A charge spread over a mask, on one engine, scaled. -/
def engShare (p mask e : Nat) : Nat := if mask.testBit e then p * (engScale / popc mask) else 0

/-- The charge of a channel on an engine (R42), scaled: the larger of present charge on the active mask and accepted
charge on the pending mask; only the latter while the channel does not run. A mask accepted while it ran and not yet copied when it stops stays pending: SLOTMASK_ACT keeps
the old one, which no longer counts (DESIGN CHOICE: log entry 102). -/
def State.engCharge (s : State) (n e : Nat) : Nat :=
  let pend := engShare (s.pix n) (s.rd Reg.CHC_SLOTMASK_ENGINES n) e
  if s.live n then max (engShare (s.chan n).pixPresent (s.rd Reg.CHC_SLOTMASK_ACT_ENGINES n) e) pend else pend

def State.engLoad (s : State) (n e : Nat) : Nat := sumOver ((List.range 64).filter (s.counts n)) fun m => s.engCharge m e

/-- The charged bit/s of an input flow (R277). A video flow is charged at its format. -/
def State.flowCharge (s : State) (f : Nat) : Nat :=
  match s.flowIn f with
  | none => 0
  | some x =>
    if x.kind = 1 then 25000000 else if x.kind = 2 then 2000000
    else match x.fmt with
      | some m => inCharge m.raster m.rate m.infmt
      | none => 0

/-- The load of network `x` (R277). -/
def State.netLoad (s : State) (n x : Nat) : Nat :=
  let chs := (List.range 64).filter (s.counts n)
  sumOver (keys s.inp.flows) (fun f =>
    if (match s.flowIn f with | some v => v.nets.testBit x | none => false) && chs.any fun m => s.readsFlow m f then s.flowCharge f else 0) +
  sumOver chs fun m => if s.readsVideo m then 0 else inCharge (s.chan m).raster (s.chan m).rate (s.chan m).infmt

/-! ### Output: R305, R307, R310 -/

/-- Slots routed in a program. -/
def State.slots (s : State) (g : Nat) : List Nat := (List.range 8).filter fun k => (s.slotRoute g k).isSome

/-- Pairs of each ST 302M stream: slots 0 to 3, and 4 to 7 (R302). -/
def State.streamPairs (s : State) (g : Nat) : List Nat :=
  let hi (l : List Nat) (o : Nat) := match (l.filter fun k => (s.slotRoute g k).isSome).getLast? with | some k => k - o + 1 | none => 0
  [hi [0, 1, 2, 3] 0, hi [4, 5, 6, 7] 4].filter (· ≠ 0)

/-- Whether a 16-byte address is IPv4-mapped (R261). -/
def isV4 (a : Nat) : Bool := decide (a / 2 ^ 32 = 0xFFFF)

/-- The address of a program's flow on a network. -/
def Prog.dst (p : Prog) (net : Nat) : Nat := if net = 0 then p.dstA else p.dstB

/-- Headers of a frame beside its RTP payload: RTP, UDP, IP, Ethernet with FCS (R307). -/
def headBytes (v4 : Bool) : Nat := 12 + 8 + (if v4 then 20 else 40) + 18

/-- The charged size of a full main-stream frame without OVERHEAD. -/
def fullFrame (mode : Nat) (v4 : Bool) : Nat := (if mode = 0 then 1316 else 1400) + headBytes v4

/-- Channels, rate and packet time in ns of the audio stream of a direct-RTP program (R304). -/
def State.audRate96 (s : State) (g : Nat) : Bool :=
  match (s.slots g).head? with
  | none => false
  | some k => match s.slotRoute g k with
    | none => false
    | some r => if r.kind = 0 then s.rd Reg.AUD_PORT_CFG_RATE 0 r.src = 1
                else match s.flowIn r.src with | some x => x.audRate = 96000 | none => false

def State.audChans (s : State) (g : Nat) : Nat := match (s.slots g).getLast? with | some k => 2 * (k + 1) | none => 0
def State.audPkt (s : State) (g : Nat) : Nat := if !s.audRate96 g && s.audChans g ≤ 8 then 1000000 else 125000

/-- Bytes of an audio frame without OVERHEAD (R304, R307). -/
def State.audFrame (s : State) (g : Nat) (v4 : Bool) : Nat :=
  s.audChans g * 3 * (s.audPkt g * (if s.audRate96 g then 96 else 48) / 1000000) + headBytes v4

/-- The charged size of a stream's largest frame. -/
def State.kFull (s : State) (g net sidx : Nat) (p : Prog) (ovh : Nat) : Nat :=
  (if sidx = 0 then fullFrame p.mode (isV4 (p.dst net)) else s.audFrame g (isV4 (p.dst net))) + ovh

/-- The shaper of a stream (R294). -/
def shaperOf (g net sidx : Nat) : Nat := 4 * g + 2 * net + sidx

/-- R_min in kb/s (R307). -/
def State.rMin (s : State) (g net sidx : Nat) (p : Prog) (ovh : Nat) : Nat :=
  let c := s.chan g
  let k := s.kFull g net sidx p ovh
  if sidx = 1 then cdiv (16 * k * 1000000) (s.audPkt g)
  else
    let dm := deltaMax c.raster c.rate c.coding.codec
    let per := cdiv (48000 * (period c.rate).1) (period c.rate).2
    let af := if p.mode = 0 then ((s.streamPairs g).map fun pr => per * 7 * pr + 18).sum else 0
    let y := s.cpbOf g + cdiv (s.capC g * dm) 8000000000 + af + (if p.mode = 0 then 376 else 0)
    let u := if p.mode = 0 then 1288 else 1397
    cdiv (8 * (cdiv y u + sliceCols c.raster + 3) * k * 1000000) c.tRow

/-- Streams of a program's flow: main, and audio in direct-RTP mode (R294). -/
def Prog.streams (p : Prog) : List Nat := if p.mode = 0 then [0] else [0, 1]
def Prog.netList (p : Prog) : List Nat := (List.range 2).filter fun x => p.nets.testBit x

def State.shp (s : State) (i : Nat) : Shaper := tget {} s.shps i
def State.setShp (s : State) (i : Nat) (v : Shaper) : State := { s with shps := tset {} s.shps i v }

/-- The latest accepted RATE, OVERHEAD and AUTO of a shaper. -/
def State.shAcc (s : State) (g net sidx : Nat) : Nat × Nat × Bool :=
  let x := s.shp (shaperOf g net sidx)
  (x.accRate, x.accOvh, x.accRate = 0)

/-- The (accepted) rate of a shaper in kb/s: its own, or R_min under AUTO. -/
def State.shRate (s : State) (g net sidx : Nat) (p : Prog) : Nat :=
  let (r, o, auto) := s.shAcc g net sidx
  if auto ∨ r = 0 then s.rMin g net sidx p o else r

/-- The charge of a program on MAC `m` in bit/s (R310). -/
def State.progCharge (s : State) (g m : Nat) : Nat :=
  match s.prog g with
  | none => 0
  | some p => sumOver p.netList fun net => sumOver p.streams fun x =>
      if s.rd Reg.SHP_SHAPER_MAC 0 (shaperOf g net x) = m ∧ (x = 0 ∨ (s.slots g).length > 0) then 1000 * s.shRate g net x p else 0

def State.macCharge (s : State) (n m : Nat) : Nat := sumOver ((List.range 64).filter (s.counts n)) fun g => s.progCharge g m

def State.split (s : State) (m : Nat) : Nat := s.rd Reg.NET_PORTCFG_SPLIT (m / 4)
/-- A MAC number that the split mode uses (R269). -/
def State.macUsed (s : State) (m : Nat) : Bool :=
  m < 16 && (if s.split m = 0 then m % 4 = 0 else if s.split m = 1 then m % 4 < 2 else true)
def State.macUp (s : State) (m : Nat) : Bool := (s.rd Reg.NET_LINKSTAT_UP (m / 4)).testBit (m % 4)
/-- 90% of a MAC's line rate (R310), and the line rate. -/
def State.macLimit (s : State) (m : Nat) : Nat := if s.split m = 0 then 360000000000 else if s.split m = 1 then 180000000000 else 90000000000
def State.lineRate (s : State) (m : Nat) : Nat := if s.split m = 0 then 400000000000 else if s.split m = 1 then 200000000000 else 100000000000
/-- MACs of a network. -/
def State.netMacs (s : State) (net : Nat) : List Nat := ((List.range 8).map (· + 8 * net)).filter s.macUsed

/-- The MAC an output flow is assigned to: the up MAC of its network with the least charged output, the lowest on a tie;
the lowest of the network when none is up (R295). -/
def State.pickMac (s : State) (n net : Nat) : Nat :=
  match (s.netMacs net).filter s.macUp with
  | [] => (s.netMacs net).headD (8 * net)
  | m :: ms => ms.foldl (fun b x => if s.macCharge n x < s.macCharge n b then x else b) m

/-! ### DRAM and pages -/

/-- 60% of peak at a set point, in byte/s (R38, R392). -/
def dramLimitAt (point : Nat) : Nat :=
  (if point = 0 then 9600 else if point = 1 then 8533 else if point = 2 then 7500 else 6400) * 1000000 * 48 * 60 / 100

/-- DRAM charge of the admitted channels in byte/s × 8, with the device's own 19.1 GB/s. -/
def State.dramLoad8 (s : State) (n : Nat) : Nat :=
  8 * 19100000000 + sumOver ((List.range 64).filter (s.counts n)) fun m =>
    dramCharge8 (s.chan m).raster (s.chan m).rate (s.chan m).refs (s.chan m).coding

/-- Free shared pages, highest first, and free pages of the coded-picture pool, highest first. -/
def State.sharedFree (s : State) : List Nat := ((List.range 76800).filter fun p => (s.page p).owner = 0).reverse
def State.cpbFree (s : State) : List Nat := (((List.range 49152).map (· + 77824)).filter fun p => (s.page p).owner = 4 ∧ (s.page p).ch = 255).reverse

/-- The CTU heights of the readers of a flow that count in a check for `n`. -/
def State.readerHeights (s : State) (n f : Nat) : List Nat :=
  ((List.range 64).filter fun m => s.counts n m && s.readsFlow m f).map fun m => ctuH (s.chan m).coding.codec

/-- Pages that a flow's ring needs (R284) when channel `n` counts as admitted. -/
def State.flowPages (s : State) (n f : Nat) : Nat :=
  match s.flowIn f with
  | none => 0
  | some x =>
    if (s.readerHeights n f).isEmpty then 0
    else if x.kind = 1 then 24 else if x.kind = 2 then 1
    else match x.fmt with
      | none => 0
      | some m => ringPages m.raster m.rate m.infmt ((s.readerHeights n f).foldl max 0) (s.rd Reg.INP_MERGECTL_WIN_US)

/-- Flows a channel reads. -/
def State.flowsOf (s : State) (n : Nat) : List Nat := (keys s.inp.flows).filter fun f => s.readsFlow n f

/-- Pages of composed rows and reference bands of a channel. -/
def State.ownRing (s : State) (n : Nat) : Nat :=
  let c := s.chan n
  composedPages c.raster c.coding + c.refs * bandPages c.raster c.coding

def State.cpbPages (s : State) (n : Nat) : Nat := cdiv (s.cpbOf n) 4096 + 1

/-! ### Frame buffers (R98, R103) -/

/-- The granules taken by buffers, as (first byte, granules), for descriptors whose owner is not `n`. -/
def State.bufTaken (s : State) (n : Nat) : List (Nat × Nat) :=
  (((List.range 1024).map s.ref).filter fun r => r.owner ≠ 255 ∧ r.owner ≠ n ∧ r.granules ≠ 0).map fun r => (r.addr, r.granules)

/-- Sorted insertion by address. -/
def insBuf (b : Nat × Nat) : List (Nat × Nat) → List (Nat × Nat)
  | [] => [b]
  | x :: r => if b.1 < x.1 then b :: x :: r else x :: insBuf b r

/-- First-fit: the address of `k` buffers of `g` granules in the region from `lo` to `hi`, past sorted taken buffers. -/
def firstFit : Nat → Nat → Nat → Nat → List (Nat × Nat) → Option Nat
  | _, lo, hi, need, [] => if lo + need ≤ hi then some lo else none
  | 0, _, _, _, _ => none
  | n + 1, lo, hi, need, (a, g) :: r => if lo + need ≤ min a hi then some lo else firstFit n (max lo (a + g * 65536)) hi need r

/-- Place up to `k` buffers; the addresses found. -/
def placeBufs (lo hi g : Nat) : Nat → List (Nat × Nat) → List Nat
  | 0, _ => []
  | k + 1, taken => match firstFit (taken.length + 1) lo hi (g * 65536) taken with
    | none => []
    | some a => a :: placeBufs lo hi g k (insBuf (a, g) taken)

/-- The descriptors a channel holds, and those no channel holds, lowest first. -/
def State.descOwn (s : State) (n : Nat) : List Nat := (List.range 1024).filter fun d => (s.ref d).owner = n
def State.descOpen (s : State) : List Nat := (List.range 1024).filter fun d => (s.ref d).owner = 255

/-- Descriptors a check for `n` can take: its own, then the lowest that no channel holds (R98). -/
def State.descFree (s : State) (n : Nat) : List Nat := s.descOwn n ++ s.descOpen

/-- Descriptors that channel `n` needs: REFS + 2, and never fewer than it holds, since they are returned at OP_CH_RELEASE and
OP_CH_DESTROY alone (R98). -/
def State.descWant (s : State) (n : Nat) : Nat := max ((s.chan n).refs + 2) (s.descOwn n).length

def State.fbSpan (s : State) : Nat × Nat := (s.rd Reg.REF_FBBASE_ADDR, s.rd Reg.REF_FBBASE_ADDR + s.rd Reg.REF_FBSIZE_BYTES)

/-- The buffers channel `n` keeps: those it has while their size is still the one of its format. A format of another size has
all of them placed anew (DESIGN CHOICE: log entry 90). -/
def State.bufKept (s : State) (n : Nat) : List Nat :=
  let g := bufGranules (s.chan n).raster (s.chan n).coding
  let own := (s.descOwn n).map s.ref
  if own.all fun r => r.granules = g then own.map (·.addr) else []

/-- Buffers for `n`, at most `k`: those it keeps, then what the region can place, first-fit by ascending address (R98). -/
def State.bufRoom (s : State) (n k : Nat) : List Nat :=
  let g := bufGranules (s.chan n).raster (s.chan n).coding
  let kept := s.bufKept n
  let taken := ((s.bufTaken n) ++ kept.map fun a => (a, g)).foldl (fun l b => insBuf b l) []
  kept ++ placeBufs s.fbSpan.1 s.fbSpan.2 g (k - kept.length) taken

/-! ### Flows and shapers (check 10) -/

def State.progFlows (s : State) (g : Nat) : Nat := match s.prog g with | none => 0 | some p => p.netList.length
def State.progShapers (s : State) (g : Nat) : Nat := match s.prog g with | none => 0 | some p => p.netList.length * p.streams.length

/-! ### The checks (R38, R39) -/

/-- Check 9 fails for want of placeable buffers alone: there are descriptors, and FBFREE would hold the buffers (R109). -/
def State.fbFits (s : State) (n want : Nat) : Bool :=
  let g := bufGranules (s.chan n).raster (s.chan n).coding
  decide (want ≤ (s.descFree n).length) && decide ((want - (s.bufKept n).length) * g * 65536 ≤ s.rd Reg.REF_FBFREE_BYTES +
    (if (s.bufKept n).isEmpty then (((s.descOwn n).map fun d => (s.ref d).granules).sum) * 65536 else 0))

def cap (detail r0 r1 : Nat) : Ref4 := { status := stCapacity, detail, r0, r1 }
def nores (detail r0 r1 : Nat) : Ref4 := { status := stNoResource, detail, r0, r1 }

/-- A RATE set below R_min (R307). -/
def State.rateShort (s : State) (n : Nat) : Option Ref4 :=
  match s.prog n with
  | none => none
  | some p => (p.netList.flatMap fun net => p.streams.map fun x => (net, x)).findSome? fun (net, x) =>
      let (r, o, auto) := s.shAcc n net x
      let rm := s.rMin n net x p o
      if x = 1 ∧ (s.slots n).length = 0 then none
      else if !auto ∧ r ≠ 0 ∧ r < rm then
        some (cap 6 (rm * 1000 + s.rd Reg.SHP_SHAPER_MAC 0 (shaperOf n net x) * 2 ^ 56) (r * 1000)) else none

/-- The MAC over its limit, lowest first. -/
def State.macOver (s : State) (n : Nat) : Option Ref4 :=
  ((List.range 16).filter s.macUsed).findSome? fun m =>
    if s.macLimit m < s.macCharge n m then some (cap 6 (s.macCharge n m + m * 2 ^ 56) (s.macLimit m)) else none

/-- The most loaded engine over the limit, for the mask of `n` and what it keeps. The first result word is the load rounded up to whole pixel/s where P / k is not
whole: a DESIGN CHOICE (log entry 98), since R39 states no rounding. -/
def State.engOver (s : State) (n : Nat) : Option Ref4 :=
  let mask := s.rd Reg.CHC_SLOTMASK_ENGINES n
  if popc mask = 0 then some (cap 3 (s.pix n) 0) else
  let worst := (List.range 32).foldl (fun w e => if s.engCharge n e = 0 then w else max w (s.engLoad n e)) 0
  if 995328000 * engScale < worst then some (cap 3 (cdiv worst engScale) 995328000) else none

def orElse (a : Option Ref4) (b : Unit → Option Ref4) : Option Ref4 := match a with | some r => some r | none => b ()

/-- Admission of channel `n` in a state that already carries its new settings (R38). Check 7 has beside the free pages those that the channel holds, the rings it reads, and
the rings that the change leaves without a reader (R39). -/
def State.admitCheck (s : State) (n : Nat) : Option Ref4 :=
  let c := s.chan n
  let l := s.latNs n
  let lm := s.lMinOf n
  let chs := (List.range 64).filter (s.counts n)
  let pixAll := sumOver chs s.pix
  let own := (c.adm.map (·.ringPages.length)).getD 0
  let fl := (s.flowsOf n).map fun f => s.flowPages n f
  let heldFl := sumOver ((keys s.inp.flows).filter fun f => s.readsFlow n f || (s.readerHeights n f).isEmpty) fun f =>
    match s.flowIn f with | some x => x.pages.length | none => 0
  let ring := s.ownRing n + fl.sum
  let ringHave := s.sharedFree.length + own + heldFl
  let cpb := s.cpbPages n
  let cpbHave := s.cpbFree.length + (c.adm.map (·.cpbPages.length)).getD 0
  let want := s.descWant n
  let room := min (s.descFree n).length (s.bufRoom n want).length
  let oth := (List.range 64).filter fun m => s.admitted m && m ≠ n
  let of := sumOver oth s.progFlows
  let os := sumOver oth s.progShapers
  orElse (if l < lm + c.tRow then some (cap 1 (cdiv (lm + c.tRow) 1000) (l / 1000)) else none) fun _ =>
  orElse (if 31850496000 < pixAll then some (cap 2 pixAll 31850496000) else none) fun _ =>
  orElse (s.engOver n) fun _ =>
  orElse (if 800000000000 < s.netLoad n 0 then some (cap 4 (s.netLoad n 0) 800000000000) else none) fun _ =>
  orElse (if 800000000000 < s.netLoad n 1 then some (cap 5 (s.netLoad n 1) 800000000000) else none) fun _ =>
  orElse (s.rateShort n) fun _ =>
  orElse (s.macOver n) fun _ =>
  orElse (let lim := dramLimitAt (s.rd Reg.DMC_CHSTAT_POINT)
          if 8 * lim < s.dramLoad8 n then some (cap 7 (cdiv (s.dramLoad8 n) 8) lim) else none) fun _ =>
  orElse (if ringHave < ring then some (nores 8 ring ringHave) else none) fun _ =>
  orElse (if cpbHave < cpb then some (nores 9 cpb cpbHave) else none) fun _ =>
  orElse (if room < want then some { nores 10 want room with frag := s.fbFits n want } else none) fun _ =>
  (if 128 < s.progFlows n + of ∨ 256 < s.progShapers n + os then
    some (nores 11 (s.progFlows n + (128 - of) * 2 ^ 32) (s.progShapers n + (256 - os) * 2 ^ 32)) else none)

/-! ### Reservations -/

/-- Give pages to an owner. -/
def State.ownPages (s : State) (l : List Nat) (owner ch : Nat) : State := s.forEach l fun s p => s.setPage p { owner, ch }

/-- Counts of free pages, as CST shows them. -/
def State.pageCounts (s : State) : State :=
  let fr := s.sharedFree
  let run := ((List.range 76800).foldl (fun (best, cur) p => if (s.page p).owner = 0 then (max best (cur + 1), cur + 1) else (best, 0)) (0, 0)).1
  ((s.wr Reg.CST_SHAREDFREE_PAGES fr.length).wr Reg.CST_SHAREDRUN_PAGES run).wr Reg.CST_CPBFREE_PAGES s.cpbFree.length

/-- Pages on their way back pass through WIPING (R195); PAGE_WIPE_DONE ends it. -/
def State.wipePages (s : State) (l : List Nat) : State := s.ownPages l 6 255

/-- Shared pages on their way back that no OP_MEM_FREE waits for. They serve where the free ones do not suffice, since check 7 counts what a change leaves unread
(R39; DEDUCED: log entry 112). -/
def State.sharedSpare (s : State) : List Nat :=
  (List.range 76800).filter fun p => (s.page p).owner = 6 && !(s.cst.frees.any fun e => e.2.1.contains p)

/-- Resize a channel's set of shared pages or pool pages. -/
def State.resize (s : State) (held : List Nat) (n need : Nat) (pool : Bool) : List Nat × State :=
  if held.length < need then
    let k := need - held.length
    let free := if pool then s.cpbFree else s.sharedFree
    let take := (if pool ∨ k ≤ free.length then free else free ++ s.sharedSpare).take k
    (held ++ take, s.ownPages take (if pool then 4 else 2) n)
  else (held.take need, s.wipePages (held.drop need))

/-! ### Input rings (R284) -/

/-- A layer binding names a flow. -/
def LBind.names (b : LBind) (f : Nat) : Bool := b.fmt = 6 && b.flow = f

/-- A live channel composes from a flow, by a binding in force or one that waits for its row or its boundary. -/
def State.composesFrom (s : State) (n f : Nat) : Bool :=
  s.live n && (((List.range 4).any fun k =>
      (((s.layer (4 * n + k)).bnd.map (·.names f)).getD false) || (((s.layer (4 * n + k)).pendBind.map (·.1.names f)).getD false)) ||
    ((s.chan n).commits.any fun c => match c.kind with | .layerBind _ b _ => b.names f | _ => false))

/-- A flow that some live channel composes from. -/
def State.flowInUse (s : State) (f : Nat) : Bool := (List.range 64).any fun n => s.composesFrom n f

/-- The registers that show a flow's ring. -/
def State.ringShow (s : State) (f : Nat) (x : InFlow) : State :=
  ((s.setFlowIn f (some x)).wr Reg.INP_FLOWRING_PAGES x.pages.length f).wr Reg.INP_FLOWRING_LINES x.lines f

/-- A flow without a reader gives its ring back, once the last picture composed from it has ended; at once where `short`. -/
def State.dropRing (short : Bool) (s : State) (f : Nat) : State :=
  match s.flowIn f with
  | none => s
  | some x =>
    if x.pages = [] ∨ s.flowPages 64 f ≠ 0 ∨ (!short ∧ s.flowInUse f) then s
    else (s.wipePages x.pages).ringShow f { x with pages := [], lines := 0, bytes := 0, hmin := 0, ring := [], latNext := none }

/-- Give a flow the pages that its readers need. A video ring that exists keeps its lines until a reader's frame boundary (`refitFlow`). -/
def State.fitFlow (s : State) (f : Nat) : State :=
  match s.flowIn f with
  | none => s
  | some x =>
    let rd := ((List.range 64).filter fun m => s.readsFlow m f)
    let s := s.wr Reg.INP_FLOWVIEW_READERS rd.length f
    let need := s.flowPages 64 f
    let owner := (rd.filter s.admitted).headD 255
    if need = 0 then s
    else if x.lines ≠ 0 then
      (if x.pages.length < need then (let (pg, s) := s.resize x.pages owner need false; s.setFlowIn f (some { x with pages := pg })) else s)
    else
      let h := s.readerHeights 64 f
      let (pg, s) := s.resize x.pages owner need false
      let (lines, bytes) := match x.fmt with
        | some m => if x.kind = 0 then (ringLines m.raster m.rate (h.foldl max 0) (s.rd Reg.INP_MERGECTL_WIN_US), ringLineBytes m.raster m.infmt) else (0, 0)
        | none => (0, 0)
      s.ringShow f { x with pages := pg, lines, bytes, hmin := h.foldl min (h.headD 0) }

/-- Fit every flow's ring: those without a reader go first, and where the pages are short they go at once. -/
def State.fitFlows (s : State) : State :=
  let extra := sumOver (keys s.inp.flows) fun f => s.flowPages 64 f - ((s.flowIn f).map (·.pages.length)).getD 0
  let short : Bool := extra ≠ 0 && decide (s.sharedFree.length < extra)
  (s.forEach (keys s.inp.flows) (State.dropRing short)).forEach (keys s.inp.flows) State.fitFlow

/-- The store address of a byte of a ring line. -/
def InFlow.addr (x : InFlow) (slot o : Nat) : Nat :=
  x.pages.getD ((slot * x.bytes + o) / 4096) 0 * 4096 + (slot * x.bytes + o) % 4096

/-- Store bytes in a ring line. -/
def inStore (x : InFlow) (slot : Nat) : Nat → Bytes → Mem → Mem
  | _, [], m => m
  | o, b :: r, m => inStore x slot (o + 1) r (csWrite m (x.addr slot o) b)

/-- The lines of a ring move to their slots in the ring that replaces it (DESIGN CHOICE: log entry 113). -/
def ringMove (x y : InFlow) (m : Mem) : InFlow × Mem :=
  let lines := (x.ring.filterMap fun e => e.2.map fun l => (l, (List.range x.bytes).map fun i => csRead m (x.addr e.1 i)))
  (lines.foldl (fun (a : InFlow × Mem) e =>
    let slot := e.1.line % max 1 y.lines
    ({ a.1 with ring := tset none a.1.ring slot (some e.1) }, inStore y slot 0 e.2 a.2)) ({ y with ring := [] }, m))

/-- The frame boundary of reader `n`: the flow's ring is replaced where the reader needs a larger one, or none needs one as large, and the old pages are returned.
The latch groups follow the readers in the same way (R284, R286). -/
def State.refitFlow (n : Nat) (s : State) (f : Nat) : State :=
  match s.flowIn f with
  | none => s
  | some x =>
    match x.fmt with
    | none => s
    | some m =>
      let hs := s.readerHeights 64 f
      if x.lines = 0 ∨ hs = [] then s else
      let linesAt (h : Nat) := ringLines m.raster m.rate h (s.rd Reg.INP_MERGECTL_WIN_US)
      let h := ctuH (s.chan n).coding.codec
      let top := linesAt (hs.foldl max 0)
      let lo := hs.foldl min (hs.headD 0)
      let lines := if x.lines < linesAt h ∨ top < x.lines then top else x.lines
      let hmin := if h < x.hmin ∨ x.hmin < lo then lo else x.hmin
      if lines = x.lines ∧ hmin = x.hmin then s else
      let y := { x with lines, hmin, latNext := x.latNext.map fun g => (g.1, g.2 / max 1 hmin * max 1 hmin) }
      if lines = x.lines then s.setFlowIn f (some y) else
      let keep := if lines = top then s.flowPages 64 f else x.pages.length
      let (y, mem) := ringMove x { y with pages := x.pages.take keep } s.mem
      ((({ s with mem }).wipePages (x.pages.drop keep)).ringShow f y).pageCounts

/-- The free and largest free space of the frame-buffer region. -/
def State.fbCounts (s : State) : State :=
  let taken := (s.bufTaken 255).foldl (fun l b => insBuf b l) []
  let used := (taken.map (·.2)).sum * 65536
  let (lo, hi) := s.fbSpan
  let big := (taken ++ [(hi, 0)]).foldl (fun (x : Nat × Nat) (b : Nat × Nat) => (max x.1 (b.1 - x.2), max x.2 (b.1 + b.2 * 65536))) (0, lo)
  ((s.wr Reg.REF_FBFREE_BYTES (hi - lo - used)).wr Reg.REF_FBLARGEST_BYTES big.1).wr Reg.REF_POOL_FREE
    ((List.range 1024).filter fun d => (s.ref d).owner = 255).length

/-- The count of MISSING descriptors (R108). -/
def State.missCount (s : State) : State :=
  s.wr Reg.REF_POOL_MISSING (s.refs.filter fun e => e.2.mark = 5).length

/-- Reserve descriptors and buffers for a channel (R98). -/
def State.reserveRefs (s : State) (n : Nat) : List Nat × State :=
  let c := s.chan n
  let want := s.descWant n
  let ds := (s.descFree n).take want
  let bufs := s.bufRoom n want
  let g := bufGranules c.raster c.coding
  let s := (ds.zip bufs).foldl (fun s (d, a) => s.putRef d { s.ref d with owner := n, addr := a, granules := g }) s
  (ds, s.fbCounts)

/-- Return a channel's descriptors and buffers. -/
def State.releaseRefs (s : State) (n : Nat) : State :=
  ((s.forEach (s.descOwn n) fun s d => s.putRef d {}).missCount).fbCounts

/-- What MACSTAT shows (R310, R314). -/
def State.macCounts (s : State) : State :=
  s.forEach (List.range 16) fun s m =>
    let flows := sumOver (List.range 64) fun g => match s.prog g with
      | none => 0
      | some p => if s.admitted g then (p.netList.filter fun net => s.rd Reg.SHP_SHAPER_MAC 0 (shaperOf g net 0) = m).length else 0
    let k := sumOver (List.range 64) fun g => match s.prog g with
      | none => 0
      | some p => if s.admitted g then sumOver p.netList fun net => sumOver p.streams fun x =>
          if s.rd Reg.SHP_SHAPER_MAC 0 (shaperOf g net x) = m then s.kFull g net x p (s.rd Reg.SHP_SHPVIEW_OVERHEAD (shaperOf g net x)) else 0 else 0
    ((s.wr Reg.SHP_MACSTAT_FLOWS flows 0 m).wr Reg.SHP_MACSTAT_CHARGE (s.macCharge 64 m) 0 m).wr Reg.SHP_MACSTAT_DMAC
      (cdiv ((k + 1538) * 8 * 1000000000) (s.lineRate m)) 0 m

/-- Assign the flows of an admitted channel's program to MACs (R295), in network order. -/
def State.assignMacs (s : State) (n : Nat) : State :=
  match s.prog n with
  | none => s
  | some p => s.forEach p.netList fun s net =>
      let m := (s.setProg n none).pickMac 64 net
      s.forEach p.streams fun s x =>
        let i := shaperOf n net x
        let s := s.wr Reg.SHP_SHAPER_MAC m 0 i
        s.wr Reg.SHP_SHPVIEW_RMIN (s.rMin n net x p (s.rd Reg.SHP_SHPVIEW_OVERHEAD i)) i

/-- R_min of a program's shapers, recomputed after a change of a term; an AUTO shaper that does not run follows it, with
EV_SHP_RATE_APPLIED when a command changed it (R308). -/
def State.refreshRmin (s : State) (n : Nat) (cmd : Bool := false) : State :=
  match s.prog n with
  | none => s
  | some p => s.forEach p.netList fun s net => s.forEach p.streams fun s x =>
      let i := shaperOf n net x
      let rm := s.rMin n net x p (s.rd Reg.SHP_SHPVIEW_OVERHEAD i)
      let s := s.wr Reg.SHP_SHPVIEW_RMIN rm i
      if s.rd Reg.SHP_SHAPER_AUTO 0 i ≠ 1 ∨ s.live n ∨ s.rd Reg.SHP_SHAPER_RATE 0 i = rm then s
      else (let s := s.wr Reg.SHP_SHAPER_RATE rm 0 i
            if cmd then s.ev (evPkt 3) else s)

/-- What follows from a channel's format: T_row, P and C_min (R46, R58, R113; log entry 13). -/
def State.formFigures (s : State) (n : Nat) : State :=
  let c := s.chan n
  ((s.wr Reg.CHC_TROW_TROW_NS c.tRow n).wr Reg.CHC_PIXCHG_KPIX (s.pix n / 1000) n).wr Reg.CHC_RCMIN_KBPS
    (cMin c.raster c.rate c.coding.codec) n

/-- What the channel's registers show after admission: those, L_min and B_cpb. -/
def State.chanFigures (s : State) (n : Nat) : State :=
  let s := (s.formFigures n).wr Reg.CHC_LMIN_LMIN_NS (s.lMinOf n) n
  if s.live n then s else s.wr Reg.CHC_CPBSIZE_BYTES (s.cpbOf n) n

/-- Reserve everything an admitted channel needs at its present settings (R36, R194). -/
def State.reserve (s : State) (n : Nat) (first : Bool) : State :=
  let a := (s.chan n).adm.getD {}
  let s := s.forEach (keys s.inp.flows) (State.dropRing (decide (s.sharedFree.length + a.ringPages.length < s.ownRing n)))
  let (ring, s) := s.resize a.ringPages n (s.ownRing n) false
  let (cpb, s) := s.resize a.cpbPages n (s.cpbPages n) true
  let (ds, s) := s.reserveRefs n
  let s := s.setChan n { s.chan n with adm := some { pix := s.pix n, ringPages := ring, cpbPages := cpb, descs := ds },
                                       pixPresent := if s.live n then (s.chan n).pixPresent else s.pix n }
  let s := s.fitFlows.chanFigures n
  let s := if first then s.assignMacs n else s
  (s.refreshRmin n (!first)).macCounts.pageCounts

/-- Return everything a channel holds (R36, R195). -/
def State.unreserve (s : State) (n : Nat) : State :=
  match (s.chan n).adm with
  | none => s
  | some a =>
    let s := (s.wipePages a.ringPages).wipePages a.cpbPages
    let s := s.setChan n { s.chan n with adm := none }
    ((s.releaseRefs n).fitFlows).macCounts.pageCounts

/-- Rerun admission on a channel that holds reservations, in a state that carries a change; otherwise nothing is checked. -/
def State.readmit (s : State) (n : Nat) : Option Ref4 := if s.admitted n then s.admitCheck n else none

/-- Admission after a change of a channel with reservations; only the rates of its shapers for another (R307). -/
def State.recheck (s : State) (n : Nat) : Option Ref4 := if s.admitted n then s.admitCheck n else s.rateShort n

/-- Keep the reservations of an admitted channel in step with an accepted change. -/
def State.rereserve (s : State) (n : Nat) : State := if s.admitted n then s.reserve n false else ((s.formFigures n).fitFlows).refreshRmin n true

end Sys2Proof.Machine
end

