-- ==== Sys2Proof/Machine/Refs.lean ====
section
/-! DEFINITION. The reference pool: marks, held sets and lists, MISSING pictures, and the descriptor as it is read back
(R98 to R106, R108). -/

namespace Sys2Proof.Machine

/-! Marks (R100). -/
def mkFree : Nat := 0
def mkRecon : Nat := 1
def mkShort : Nat := 2
def mkLong : Nat := 3
def mkUnused : Nat := 4
def mkMissing : Nat := 5

/-- The descriptors a channel holds. -/
def State.descs (s : State) (n : Nat) : List Nat := ((s.chan n).adm.map (·.descs)).getD []

/-- A picture that R96 or R97 names. -/
def Chan.namedLong (c : Chan) (frame : Nat) : Bool :=
  c.longNamed.contains frame ||
    (c.longPeriod ≠ 0 && c.startFrame < frame && (frame - c.startFrame) % c.longPeriod = 0)

/-- Insertion by falling frame count. -/
def insDesc (f : Nat → Nat) (d : Nat) : List Nat → List Nat
  | [] => [d]
  | x :: r => if f x < f d then d :: x :: r else x :: insDesc f d r

/-- The held set out of the SHORT and LONG pictures: SHORT by falling frame count, then the one LONG (R101, R102). -/
def heldOf (refs : Nat) (shorts longs : List Nat) : List Nat :=
  match longs with
  | [] => shorts.take refs
  | l :: _ => if refs ≤ 1 then shorts.take 1 else shorts.take (refs - 1) ++ [l]

/-- The mark a picture will carry when `frame` begins. -/
def State.markAt (s : State) (n frame d : Nat) : Nat :=
  let r := s.ref d
  if r.mark = mkRecon ∧ r.frame ≠ frame then (if (s.chan n).namedLong r.frame then mkLong else mkShort) else r.mark

/-- The list that picture `frame` takes at its first dispatch. After a convergence sweep it is that sweep's last picture
alone (R385). -/
def State.heldAt (s : State) (n frame : Nat) : List Nat :=
  let c := s.chan n
  let ds := (s.descs n).foldl (fun l d => insDesc (fun x => (s.ref x).frame) d l) []
  let held := heldOf c.refs (ds.filter fun d => s.markAt n frame d = mkShort) (ds.filter fun d => s.markAt n frame d = mkLong)
  if c.rc.convEnd = some frame then held.filter fun d => (s.ref d).frame + 1 = frame else held

/-- The list 0 of picture `frame`: as taken, or as it will be. -/
def State.listOf (s : State) (n frame : Nat) : List Nat :=
  match (s.chan n).lists.find? fun e => e.1 = frame with
  | some e => e.2
  | none => s.heldAt n frame

/-- The descriptors of list 0 that are not MISSING (R105). -/
def State.usable (s : State) (n frame : Nat) : List Nat := (s.listOf n frame).filter fun d => (s.ref d).mark ≠ mkMissing

/-- Whether every CTU is coded intra: the lists are empty, nothing in them is left, or the collocated picture is MISSING
(R105, R112). -/
def State.allIntra (s : State) (n frame : Nat) : Bool :=
  match s.listOf n frame with
  | [] => true
  | d :: _ => (s.usable n frame).isEmpty || (s.ref d).mark = mkMissing

/-- The frame count of the picture that a zero-motion copy reads. -/
def State.ref0 (s : State) (n frame : Nat) : Option Nat := ((s.usable n frame).head?).map fun d => (s.ref d).frame

/-- A descriptor holds no picture any more; what it reserves stays. -/
def State.clearRef (s : State) (d : Nat) : State :=
  let r := s.ref d
  s.putRef d { r with mark := mkFree, const := false, mf := false, cRead := false, cWrite := false, poc := 0, frame := 0 }

/-- UNUSED and MISSING pictures that no list reads and that are not held become FREE (R101). -/
def State.freeRefs (s : State) (n : Nat) (held : List Nat) : State :=
  let reading := (s.chan n).lists.flatMap (·.2)
  let go := (s.descs n).filter fun d =>
    ((s.ref d).mark = mkUnused || (s.ref d).mark = mkMissing) && !reading.contains d && !held.contains d
  (go.foldl State.clearRef s).missCount

/-- A FREE descriptor takes a picture in RECON. With the descriptors of R98 one is FREE (R101); were none, the oldest
picture out of use would give way. -/
def State.takeRef (s : State) (n frame : Nat) (const : Bool) : State :=
  let ds := s.descs n
  let d? := match ds.find? fun d => (s.ref d).mark = mkFree with
    | some d => some d
    | none => ds.find? fun d => (s.ref d).mark = mkUnused || (s.ref d).mark = mkMissing
  match d? with
  | none => s
  | some d =>
    let r := (s.clearRef d).ref d
    s.putRef d { r with mark := mkRecon, const := const, frame := frame, poc := (frame - (s.chan n).startFrame) % 65536 }

/-- The blank IDR picture's descriptor (R67, R101). -/
def State.blankRef (s : State) (n frame : Nat) : State :=
  let s := s.takeRef n frame true
  let c := s.chan n
  s.setChan n { c with curPic := some frame, lists := tins c.lists frame [] }

/-- The first slice task of a picture is dispatched (R101, R102). -/
def State.pictureStart (s : State) (n frame : Nat) : State :=
  if (s.chan n).lists.any fun e => e.1 = frame then s else
  let held := s.heldAt n frame
  let s := (s.descs n).foldl (fun s d =>
    let r := s.ref d
    if r.mark = mkRecon ∧ r.frame ≠ frame then
      (if (s.chan n).namedLong r.frame then (s.putRef d { r with mark := mkLong }).ev (evRef 6) else s.putRef d { r with mark := mkShort })
    else s) s
  let s := (s.descs n).foldl (fun s d =>
    let r := s.ref d
    if (r.mark = mkShort ∨ r.mark = mkLong) ∧ !held.contains d then s.putRef d { r with mark := mkUnused } else s) s
  let s := s.freeRefs n held
  let s := s.takeRef n frame false
  let c := s.chan n
  s.setChan n { c with curPic := some frame, lists := tins c.lists frame held }

/-- Every slice of a picture has ended: its motion field is valid, and what only it read is free (R99, R101). -/
def State.pictureDone (s : State) (n frame : Nat) : State :=
  let s := (s.descs n).foldl (fun s d =>
    let r := s.ref d
    if r.frame = frame ∧ r.mark ≠ mkFree ∧ r.mark ≠ mkMissing then s.putRef d { r with mf := true } else s) s
  let c := s.chan n
  let s := s.setChan n { c with lists := tdel c.lists frame, slicesLeft := tdel c.slicesLeft frame }
  s.freeRefs n (s.heldAt n (frame + 1))

/-- Every mark of a channel becomes FREE (R101). -/
def State.clearRefs (s : State) (n : Nat) : State :=
  let s := ((s.descs n).foldl State.clearRef s).missCount
  let c := s.chan n
  s.setChan n { c with curPic := none, lists := [], slicesLeft := [], longNamed := [] }

end Sys2Proof.Machine
end

