-- ==== Sys2Proof/Machine/Rate.lean ====
section
/-! DEFINITION. Rate control and gradual refresh (R110 to R131): the virtual buffer, the row step, sweeps, carried units,
the emergency cap and the return phase. -/

namespace Sys2Proof.Machine

/-- SCALE[d] = round(4096 × 2^(−d/6)) for d from −63 (R115). -/
def scaleRom : List Nat :=
  [5931642, 5284492, 4707947, 4194304, 3736700, 3329021, 2965821, 2642246, 2353974, 2097152, 1868350, 1664511, 1482910, 1321123, 1176987, 1048576] ++
  [934175, 832255, 741455, 660561, 588493, 524288, 467088, 416128, 370728, 330281, 294247, 262144, 233544, 208064, 185364, 165140] ++
  [147123, 131072, 116772, 104032, 92682, 82570, 73562, 65536, 58386, 52016, 46341, 41285, 36781, 32768, 29193, 26008] ++
  [23170, 20643, 18390, 16384, 14596, 13004, 11585, 10321, 9195, 8192, 7298, 6502, 5793, 5161, 4598, 4096] ++
  [3649, 3251, 2896, 2580, 2299, 2048, 1825, 1625, 1448, 1290, 1149, 1024, 912, 813, 724, 645] ++
  [575, 512, 456, 406, 362, 323, 287, 256, 228, 203, 181, 161, 144, 128, 114, 102] ++
  [91, 81, 72, 64, 57, 51, 45, 40, 36, 32, 29, 25, 23, 20, 18, 16] ++
  [14, 13, 11, 10, 9, 8, 7, 6, 6, 5, 4, 4, 4, 3, 3]

def scaleAt (d : Int) : Nat := scaleRom.getD (d + 63).toNat 0

/-- The union of two lists of units. -/
def unite (a b : List Nat) : List Nat := a ++ b.filter fun u => !a.contains u

/-! ### Settled slots (R114) -/

/-- A slot is settled: the fullness takes its charge and drain (R110); its BITS and QP become history; a slot that makes
its picture a floor picture, or holds a substitute, has its picture's units carried (R80, R127). Where it does so after the
next picture began, they are refreshed in the rows of that one still to come, unless they were carried already or a sweep
has since begun (DEDUCED: log entry 33). -/
def RcSt.settleOne (st : RcSt) (x : Slot) : RcSt :=
  let cur := st.pic = some x.frame
  { st with
    e := st.e + x.charge - x.drain
    settled := if cur then st.settled + (x.charge - x.pre) else st.settled
    hist := tset (0, 0, 0) st.hist x.row (x.frame, x.bits, x.qp)
    floorPic := st.floorPic || (x.floor && cur)
    carried := if x.floor && !cur && st.lateOpen then unite st.carried st.prevUnits else st.carried
    units := if x.floor && !cur && st.lateOpen then unite st.units st.prevUnits else st.units
    lateOpen := st.lateOpen && (cur || !x.floor) }

/-- Settle every slot but the newest. -/
def RcSt.settle (st : RcSt) : RcSt :=
  match st.slots.getLast? with
  | none => st
  | some last => { (st.slots.dropLast.foldl RcSt.settleOne st) with slots := [last] }

/-! ### Settings and the emergency cap (R128, R129, R131) -/

/-- The settings of a picture come into force. A lower MAXRATE goes through the return phase; the emergency period keeps
its cap. -/
def RcSt.apply (st : RcSt) (v : RcSet) : RcSt :=
  let r := v.maxrate * 1000
  if st.phase = 1 then { st with set := v }
  else if r < st.drain then { st with set := v, phase := 2, bb := r }
  else { st with set := v, phase := 0, drain := r, bb := r }

/-- The emergency layer is switched on at a row of picture `frame` (R128). -/
def RcSt.emSwitch (st : RcSt) (v : RcSet) (frame : Nat) : RcSt :=
  if v.maxrate < v.emcap then { st with phase := 1, emFrom := frame, drain := v.emcap * 1000, bb := v.emcap * 1000 } else st

/-- P pictures after the switch, BBITS returns to MAXRATE and the return phase begins (R129). -/
def RcSt.emTurn (st : RcSt) (frame : Nat) : RcSt :=
  if st.phase = 1 ∧ st.emFrom + st.set.period ≤ frame then { st with phase := 2, bb := st.set.maxrate * 1000 } else st

/-! ### Sweeps (R120 to R125, R127) -/

/-- The pictures of a sweep before the clean picture that ends it. -/
def Sweep.ends (w : Sweep) : Nat := w.start + w.len

/-- Sweeps that have ended leave; a convergence sweep names the picture after it (R385). -/
def RcSt.purge (st : RcSt) (frame : Nat) : RcSt :=
  let live := st.sweeps.filter fun w => frame < w.ends
  let gone := st.sweeps.filter fun w => !(frame < w.ends)
  { st with sweeps := live, completed := st.completed + gone.length,
            convEnd := match gone.find? (·.conv) with | some w => some w.ends | none => st.convEnd }

/-- A new sweep begins in picture `frame` (R120, R121); the carried set is cleared (R127). -/
def RcSt.sweepBegin (st : RcSt) (rows cols frame : Nat) : RcSt :=
  let units := if st.set.mode = 1 then rows else cols
  let k := cdiv units st.set.period
  let w : Sweep := { start := frame, k := k, units := units, len := cdiv units k, rowMode := st.set.mode = 1, conv := st.reqConv }
  { st with sweeps := st.sweeps ++ [w], newest := some w, carried := [], lateOpen := false, req := false, reqConv := false, heldTo := none }

/-- A periodic start falls due: P pictures after the newest sweep, in COLUMN and ROW modes (R121). -/
def RcSt.periodicDue (st : RcSt) (frame : Nat) : Bool :=
  match st.newest with
  | some w => st.set.mode ≠ 2 && decide (w.start + st.set.period ≤ frame)
  | none => false

/-- A request made before picture `frame`: while two sweeps run it is held to the end of the older one (R125). -/
def RcSt.ask (st : RcSt) (frame : Nat) : RcSt :=
  if st.heldTo.isSome then { st with req := true } else
  match st.sweeps.filter fun w => frame < w.ends with
  | w :: _ :: _ => { st with req := true, heldTo := some w.ends }
  | _ => { st with req := true }

/-- What starts in picture `frame`: a request begins a sweep, or a held one at the end of the older sweep; a periodic start that falls while
two sweeps run is held as a request (R121, R125). -/
def RcSt.turn (st : RcSt) (rows cols frame : Nat) (first : Bool) : RcSt :=
  let st := st.purge frame
  let due := first || (st.req && (match st.heldTo with | some t => decide (t ≤ frame) | none => true)) || (!st.req && st.periodicDue frame)
  if !due then st
  else if st.sweeps.length < 2 then st.sweepBegin rows cols frame
  else st.ask frame

/-- The units a running sweep refreshes in picture `frame`. -/
def Sweep.unitsIn (w : Sweep) (frame : Nat) : List Nat :=
  ((List.range w.k).map fun i => (frame - w.start) * w.k + i).filter (· < w.units) |>.map fun u => if w.rowMode then 2 * u + 1 else 2 * u

/-- A sweep has begun in picture `frame`. -/
def RcSt.begunIn (st : RcSt) (frame : Nat) : Bool := match st.newest with | some w => w.start = frame | none => false

/-- The carried set as picture `frame` begins (R127): empty where a sweep has begun in it. Only settled slots are read (R114): the last slot of the
picture before is settled at the next release, and enters then (`settleOne`). -/
def RcSt.carry (st : RcSt) (frame : Nat) : RcSt :=
  if st.begunIn frame then { st with carried := [], lateOpen := false, floorPic := false, settled := 0 } else
  { st with carried := if st.floorPic then unite st.carried st.units else st.carried.filter fun u => !st.units.contains u
            lateOpen := !st.floorPic, floorPic := false, settled := 0 }

/-- A picture begins at the release of its row 0. -/
def RcSt.begin (st : RcSt) (v : RcSet) (rows cols frame : Nat) (blank first : Bool) : RcSt :=
  let st := ((st.apply v).emTurn frame).carry frame
  let st := if blank then st else st.turn rows cols frame first
  let units := if blank then [] else (st.sweeps.map fun w => w.unitsIn frame).foldl unite st.carried
  { st with units := units, prevUnits := st.units, pic := some frame }

/-! ### Floor forms (R112, R122) -/

/-- A CTU inside the clean area of a running sweep whose zero-motion copy would read outside the bounds of R122. -/
def Sweep.unclean (w : Sweep) (codec frame row col : Nat) (ref0 : Option Nat) : Bool :=
  let u := if w.rowMode then row else col
  if (frame - w.start) * w.k ≤ u then false else
  match ref0 with
  | none => false
  | some f =>
    if f < w.start then true
    else if w.len ≤ f - w.start + 1 then false
    else
      let bound := (f - w.start + 1) * w.k
      if w.rowMode then decide (bound ≤ u)
      else decide (bound * ctuH codec < (col + 1) * ctuH codec - 1 + (if codec = 0 then 5 else 12))

/-- The floor form of every CTU of a row: true for the intra form. -/
def RcSt.formsOf (st : RcSt) (cols codec frame row : Nat) (allIntra : Bool) (ref0 : Option Nat) : List Bool :=
  if allIntra || st.units.contains (2 * row + 1) then List.replicate cols true else
  (List.range cols).map fun x => st.units.contains (2 * x) || st.sweeps.any fun w => w.unclean codec frame row x ref0

/-- The slice charge of floor forms (R110, R112). -/
def sliceFloor (codec : Nat) (forms : List Bool) : Nat := sliceCharge (512 + (forms.map (floorCtu codec)).sum)

/-- The forms of slice `col` of a row of `n` slices. -/
def sliceForms (n col : Nat) (forms : List Bool) : List Bool := (forms.drop (col * (forms.length / n))).take (forms.length / n)

/-- FLOOR_ROW (R112). -/
def floorRow (codec n : Nat) (forms : List Bool) : Nat :=
  ((List.range n).map fun c => sliceFloor codec (sliceForms n c forms)).sum

/-! ### The row step (R115, R116) -/

/-- BBITS of the present phase (R111), with the latency slack of the channel's start. -/
def RcSt.bbits (st : RcSt) (slackNs : Nat) : Nat := st.bb * slackNs / 1000000000

/-- The drain of row slot `row` (R110). -/
def RcSt.drainOf (st : RcSt) (raster rate codec row : Nat) : Nat := st.drain * rowDelta raster rate codec row / 1000000000

/-- Raise the QP from TARGET_QP until the scaled bits of the previous picture fit the share, or QP_MAX (R115). -/
def qpFuel : Nat → Nat → Nat → Nat → Nat → Int → Nat
  | 0, qp, _, _, _, _ => qp
  | n + 1, qp, qmax, bits, pq, share =>
    if qp < qmax ∧ ((bits * scaleAt ((qp : Int) - pq) / 4096 : Nat) : Int) > share then qpFuel n (qp + 1) qmax bits pq share else qp

/-- What the step gives the slice tasks of a row slot. -/
structure RowPlan where
  cap   : Nat
  qp    : Nat
  forms : List Bool
deriving DecidableEq, Repr

/-- The first part of the step at the release of a row slot: the slots before the last are settled; at row 0 the settings are latched and
the picture begins; the return phase ends once the fullness is within the limit (R114, R121, R129, R131). -/
def RcSt.latch (st : RcSt) (c : Chan) (v : RcSet) (slackNs frame row : Nat) : RcSt :=
  let st := st.settle
  let st := if row = 0 then st.begin v c.rows c.cols frame (decide (frame = c.startFrame)) (frame = c.startFrame + 1) else st
  if st.phase = 2 ∧ st.e + 4096 ≤ st.bbits slackNs then { st with phase := 0, drain := st.bb } else st

/-- The second part: cap and QP of the slot (R115), with `pfx` bytes of prefix record at row 0. The blank picture's slots take it too (R67): their CTUs
have the intra form, since the lists are empty (R112). -/
def RcSt.plan (st : RcSt) (c : Chan) (slackNs frame row pfx : Nat) (allIntra : Bool) (ref0 : Option Nat) : RcSt × RowPlan :=
  let codec := c.coding.codec
  let rows := c.rows
  let cols := c.cols
  let lim : Int := (st.bbits slackNs : Int) - 4096
  let drain := st.drainOf c.raster c.rate codec row
  let pre := if row = 0 then 8 * pfx else 0
  let e1 : Nat := match st.slots.getLast? with
    | some p => st.e + p.cap + p.pre - p.drain
    | none => 0
  let room : Int := lim - e1 + drain - pre
  let st := if row = 0 then
    { st with pre := pre, budget := lim - e1 + (((List.range rows).map fun r => st.drainOf c.raster c.rate codec r).sum : Nat) } else st
  let capPrev := if row = 0 then 0 else (st.slots.getLast?.map (·.cap)).getD 0
  let left : Int := st.budget - st.pre - st.settled - capPrev
  let ns := sliceCols c.raster
  let forms := st.formsOf cols codec frame row allIntra ref0
  let fr := floorRow codec ns forms
  let rest : Nat := ((List.range (rows - row - 1)).map fun i => floorRow codec ns (st.formsOf cols codec frame (row + 1 + i) allIntra ref0)).sum
  let share : Int := ((left - rest) * cols).tdiv (cols * (rows - row) : Nat)
  let v := st.set
  let cap := (max (fr : Int) (min room (min (left - rest) ((v.slack * share).tdiv 4)))).toNat
  let qp := match tget (0, 0, 0) st.hist row with
    | (f, bits, pq) => if f + 1 = frame ∧ c.startFrame < f then qpFuel 64 v.tq v.qmax bits pq share else v.tq
  ({ st with slots := st.slots ++ [{ frame, row, cap, qp, pre, drain, forms }], lastQp := qp, lastCap := cap }, { cap, qp, forms })

/-- The cap of slice `col` of a row (R116). -/
def sliceCap (codec ns col : Nat) (p : RowPlan) : Nat :=
  if ns = 1 then p.cap else max (p.cap / ns) (sliceFloor codec (sliceForms ns col p.forms))

/-! ### In the state -/

/-- The active rate settings of a channel's registers. -/
def State.rcSet (s : State) (n : Nat) : RcSet :=
  { maxrate := s.rd Reg.CHC_RCCAP_MAXRATE_ACT n, emcap := s.rd Reg.CHC_RCEMCAP_EMCAP_ACT n, tq := s.rd Reg.CHC_RCQP_TARGET_QP_ACT n,
    qmin := s.rd Reg.CHC_RCQP_QP_MIN_ACT n, qmax := s.rd Reg.CHC_RCQP_QP_MAX_ACT n, dqp := s.rd Reg.CHC_RCQP_CTU_DQP_MAX_ACT n,
    slack := s.rd Reg.CHC_RCTUNE_ROW_SLACK_ACT n, ofs := ofTwos 4 (s.rd Reg.CHC_RCTUNE_REFRESH_QP_OFS_ACT n),
    mode := s.rd Reg.CHC_REFRESH_MODE_ACT n, period := s.rd Reg.CHC_REFRESH_PERIOD_ACT n }

/-- L − L_min as the channel's start fixed it (R366). -/
def State.slackNs (s : State) (n : Nat) : Nat := s.latNs n - (s.chan n).lminStart

/-- Show the rate-control state in the CHC registers (R132). -/
def State.rcShow (s : State) (n : Nat) : State :=
  let st := (s.chan n).rc
  let s := ((s.wr Reg.CHC_RCFULL_BITS st.e n).wr Reg.CHC_RCCUR_CAP (st.drain / 1000) n).wr Reg.CHC_RCCUR_PHASE st.phase n
  let s := (s.wr Reg.CHC_RCLAST_QP st.lastQp n).wr Reg.CHC_RCLAST_CAP st.lastCap n
  let s := (s.wr Reg.CHC_SWEEP_RUNNING st.sweeps.length n).wr Reg.CHC_SWEEP_HELD (bit st.heldTo.isSome) n
  let s := (s.wr Reg.CHC_SWEEP_CARRIED (min 255 st.carried.length) n).wr Reg.CHC_SWEEP_COMPLETED st.completed n
  match st.newest with
  | some w => s.wr Reg.CHC_SWEEPSTART_FRAME w.start n
  | none => s

def State.setRc (s : State) (n : Nat) (st : RcSt) : State := (s.setChan n { s.chan n with rc := st }).rcShow n

/-- Rate control begins afresh with a start; counts that outlive it stay (R132). -/
def State.rcStart (s : State) (n : Nat) : State :=
  let v := s.rcSet n
  let old := (s.chan n).rc
  s.setRc n { set := v, drain := v.maxrate * 1000, bb := v.maxrate * 1000, completed := old.completed, lastQp := old.lastQp, lastCap := old.lastCap }

/-- The first part of a row's step (R114, R121). -/
def State.rateLatch (s : State) (n frame row : Nat) : State :=
  let c := s.chan n
  s.setRc n (c.rc.latch c (if row = 0 then s.rcSet n else c.rc.set) (s.slackNs n) frame row)

/-- The second part (R115). -/
def State.ratePlan (s : State) (n frame row pfx : Nat) : RowPlan × State :=
  let c := s.chan n
  let (st, p) := c.rc.plan c (s.slackNs n) frame row pfx (s.allIntra n frame) (s.ref0 n frame)
  (p, s.setRc n st)

/-- Change the slot of a row, while it is not settled. -/
def State.onSlot (s : State) (n frame row : Nat) (f : Slot → Slot) : State :=
  let c := s.chan n
  s.setChan n { c with rc := { c.rc with slots := c.rc.slots.map fun x => if x.frame = frame ∧ x.row = row then f x else x } }

/-- A sweep request (R125); while the channel follows its partner it is ignored (R384). It goes to the next picture whose first row slot has not
been released. -/
def State.askSweep (s : State) (n : Nat) (conv : Bool) : State :=
  let c := s.chan n
  if c.follow then s else s.setRc n { (c.rc.ask (if c.nextRow = 0 then c.nextFrame else c.nextFrame + 1)) with reqConv := c.rc.reqConv || conv }

/-- A picture is marked MISSING (R104) for a write (0), a read (1) or its descriptor (2); a picture still in use asks for
a refresh (R106). -/
def State.markMissing (s : State) (d cause : Nat) : State :=
  let r := s.ref d
  if r.owner = 255 ∨ r.mark = mkFree ∨ r.mark = mkMissing then (if cause = 2 then s.ev (evRef 4) else s) else
  let n := r.owner
  let s := s.putRef d { r with mark := mkMissing, cWrite := r.cWrite || cause = 0, cRead := r.cRead || cause ≠ 0 }
  let s := if cause = 0 then (s.incSat Reg.REF_MISSCNT_WRITE).ev (evRef 0) else (s.incSat Reg.REF_MISSCNT_READ).ev (evRef 1)
  let s := if cause = 2 then s.ev (evRef 4) else s
  let s := ((s.wr Reg.REF_LASTMISS_DESC d).wr Reg.REF_LASTMISS_CHANNEL n).wr Reg.REF_LASTMISS_CAUSE (bit (cause ≠ 0))
  let s := (s.wr Reg.REF_LASTMISS_FRAME r.frame).missCount
  if r.mark = mkUnused then s else s.askSweep n false

end Sys2Proof.Machine
end

