-- ==== Sys2Proof/Machine/PairCore.lean ====
section
/-! DEFINITION. Pair roles, muting and slice checks, as the other units use them (R367, R369, R374, R378, R379, R383,
R386). -/

namespace Sys2Proof.Machine

def State.setPair (s : State) (p : Pair) : State := { s with pair := p }

/-! ### Match runs and following (R384, R386) -/

/-- Show a channel's match run in CONV. -/
def State.convShow (s : State) (n : Nat) : State :=
  let c := s.chan n
  ((s.wr Reg.PAIR_CONV_RUN (min 65535 c.matchRun) 0 n).wr Reg.PAIR_CONV_FOLLOW (bit c.follow) 0 n).wr Reg.PAIR_CONV_CLEAN
    (bit (decide (c.rc.set.period ≤ c.matchRun))) 0 n

def State.setRun (s : State) (n run : Nat) : State := (s.setChan n { s.chan n with matchRun := run }).convShow n

/-- Channels in CH_RUNNING. -/
def State.running (s : State) : List Nat := (List.range 64).filter fun n => s.chSt n = 3

/-- Start or stop following on a channel. -/
def State.setFollow (s : State) (n : Nat) (v : Bool) : State := (s.setChan n { s.chan n with follow := v }).convShow n

/-! ### Roles (R367) -/

/-- A role change: EV_PAIR_ROLE, the flows' switch 100 µs later (R374), the interlock released on leaving HEADSTOCK. -/
def State.setRole (s : State) (new cause : Nat) : State :=
  let old := s.role
  if old = new then s else
  let s := s.setPair { s.pair with switches := ((s.pair.switches ++ [(s.ns + 100000, old)]).reverse.take 4).reverse, aStop := false }
  let s := s.wr Reg.PAIR_PAIRSTAT_ROLE new
  let s := if old = 1 then s.lockOut false else s
  let s := s.ev (evPair 0) 255 (new + 4 * old + 256 * cause)
  if new = 3 then
    let s := (s.incSat Reg.PAIR_ROLECNT_MUTES).wr Reg.PAIR_MUTETIME_NS s.ns
    let s := s.wr Reg.PAIR_PAIRSTAT_CAUSE cause
    s.running.foldl (fun s n => (s.setRun n 0).setFollow n true) s
  else s

/-- Causes whose resync is full (R383). -/
def fullCause (cause : Nat) : Bool := [1, 5, 6, 7, 8, 9, 10].contains cause

/-- Ask the partner for a resync. -/
def State.askResync (s : State) (cause mask : Nat) : State :=
  let full := fullCause cause
  let s := if full then (s.setPair { s.pair with fullPend := true }).wr Reg.PAIR_PAIRSTAT_IMAGE 0 else s
  s.linkSend 2 (.resyncReq full mask)

/-- A mute cause: the device enters RESYNC and asks for a resync. `base` is the base of the unit from which nothing is
launched any more, whatever an earlier role change still allowed. -/
def State.mute (s : State) (cause mask base : Nat) : State :=
  if s.role = 3 then s else
  let s := s.setRole 3 cause
  (s.setPair { s.pair with switches := s.pair.switches.map fun e => (min e.1 base, e.2) }).askResync cause mask

/-- Convergence is complete: back to TAILSTOCK (R386). -/
def State.tryUnmute (s : State) : State :=
  if s.role = 3 ∧ !s.pair.fullPend ∧ s.rd Reg.PAIR_PAIRSTAT_IMAGE = 1 ∧
      s.running.all (fun n => decide ((s.chan n).rc.set.period ≤ (s.chan n).matchRun)) then
    (s.setRole 2 0).ev (evPair 13)
  else s

/-! ### Checks (R378, R379) -/

/-- Two records name the same unit. -/
def CheckRec.same (a b : CheckRec) : Bool := a.ch = b.ch && a.stream = b.stream && a.row = b.row && a.frame = b.frame

/-- A matched main unit counts toward its picture; the last row's completes it. -/
def State.unitMatched (s : State) (c : CheckRec) : State :=
  if c.stream ≠ 0 then s else
  let (f, k) := tget (0, 0) s.pair.picRows c.ch
  let k := if f = c.frame then k + 1 else 1
  let s := s.setPair { s.pair with picRows := tset (0, 0) s.pair.picRows c.ch (c.frame, k) }
  if c.row + 1 = (s.chan c.ch).rows then
    (s.setRun c.ch (if k = (s.chan c.ch).rows then (s.chan c.ch).matchRun + 1 else 0)).tryUnmute
  else s

/-- A unit failed its check: its picture matches no more (R386), it is recorded, and a TAILSTOCK mutes. -/
def State.unitFailed (s : State) (c : CheckRec) (base cause : Nat) : State :=
  let s := s.setRun c.ch 0
  let s := s.setPair { s.pair with picRows := tset (0, 0) s.pair.picRows c.ch ((tget (0, 0) s.pair.picRows c.ch).1, 0) }
  let s := if cause = 2 then s.incSat Reg.PAIR_CHKMIS_COUNT else s.incSat Reg.PAIR_CHKMISSING_COUNT
  if s.role ≠ 2 then s else
  let s := ((s.wr Reg.PAIR_LASTMIS_CHANNEL c.ch).wr Reg.PAIR_LASTMIS_STREAM c.stream).wr Reg.PAIR_LASTMIS_ROW c.row
  let s := (s.wr Reg.PAIR_LASTMIS_FRAME c.frame).ev (evPair (if cause = 2 then 7 else 8)) c.ch (c.row + 65536 * c.stream) c.frame
  s.mute cause (2 ^ c.ch) base

/-- Compare a unit with the partner's record of it. -/
def State.compare (s : State) (own theirs : CheckRec) (base : Nat) : State :=
  if own = theirs then (s.incWrap Reg.PAIR_CHKOK_COUNT).unitMatched own else s.unitFailed own base 2

/-- The device finished forming a unit: its record goes out, and is compared when the partner's has come. -/
def State.checkFormed (s : State) (c : CheckRec) (base deadline : Nat) : State :=
  if s.role = 0 then s else
  let s := s.linkSend 2 (.check (checkBody c))
  match s.pair.theirs.find? c.same with
  | some t => (s.setPair { s.pair with theirs := s.pair.theirs.erase t }).compare c t base
  | none => s.setPair { s.pair with own := s.pair.own ++ [(c, base, deadline)] }

/-- A unit has no record of the partner's at its check deadline: missing, unless the partner's line is released (R371). -/
def State.checkMissed (s : State) (e : CheckRec × Nat × Nat) : State :=
  let s := s.setPair { s.pair with own := s.pair.own.erase e }
  if s.role = 2 ∧ s.rd Reg.PAIR_PAIRSTAT_LOCKIN = 0 then s else s.unitFailed e.1 e.2.1 3

/-- The units whose check deadlines have passed without a record. -/
def State.checksDue (s : State) : State := (s.pair.own.filter fun e => decide (e.2.2 < s.ns)).foldl State.checkMissed s

/-- The partner's record arrived; one that comes after the deadline is of no use. -/
def State.checkArrived (s : State) (t : CheckRec) : State :=
  let s := s.checksDue
  match s.pair.own.find? fun e => e.1.same t with
  | some e => (s.setPair { s.pair with own := s.pair.own.erase e }).compare e.1 t e.2.1
  | none => s.setPair { s.pair with theirs := s.pair.theirs ++ [t] }

/-! ### What a role launches (R296, R374) -/

/-- The networks a role launches: bit 0 for A, bit 1 for B. A HEADSTOCK launches B while the partner is absent or in
RESYNC. -/
def roleNets (role : Nat) (b : Bool) : Nat :=
  if role = 0 then 3 else if role = 1 then (if b then 3 else 1) else if role = 2 then 2 else 0

/-- A HEADSTOCK covers network B: the partner is absent (R377) or in RESYNC. -/
def State.coversB (s : State) : Bool := !s.partnerTakes || s.pair.pRole = 3

/-- Whether a unit with this base is launched on a network: by the role before the first change whose first base lies later. -/
def State.launches (s : State) (net base : Nat) : Bool :=
  if net = 0 ∧ s.pair.aStop then false else
  let b := if base < s.pair.bCut then s.pair.bWas else s.coversB
  (roleNets (match s.pair.switches.find? fun e => decide (base < e.1) with | some e => e.2 | none => s.role) b).testBit net

end Sys2Proof.Machine
end

