-- ==== Sys2Proof/Machine/Ring.lean ====
section
/-! DEFINITION. The coded-picture ring (R53, R73, R110), uncorrectable store lines (R197), and the audio samples a program
reads (R302, R338, R339, R342 to R344). -/

namespace Sys2Proof.Machine

/-! ### Store lines (R186, R197) -/

/-- A line delivered uncorrectable: counted, recorded, reported (R197). -/
def State.csUncorr (s : State) (addr port kind : Nat) : State :=
  let s := ((s.incSat Reg.CST_UNCORR_COUNT).wr Reg.CST_LASTERR_ADDR (addr / 64 * 64)).wr Reg.CST_LASTERR_PORT port
  ((s.wr Reg.CST_LASTERR_KIND kind).wr Reg.CST_LASTERR_SCRUB 0).ev (evCst 0)

/-- Corrected words are counted; more than CORRTHR in a second is reported once in that second (R197, R200). -/
def State.csCorrected (s : State) (n : Nat) : State :=
  let s := s.incSat Reg.CST_CORR_COUNT n
  let c := if s.cst.corrSec = s.sec then s.cst else { s.cst with corrSec := s.sec, corrCount := 0, corrRaised := false }
  let c := { c with corrCount := c.corrCount + n }
  if s.rd Reg.CST_CORRTHR_PERSEC < c.corrCount ∧ c.corrRaised = false then
    ({ s with cst := { c with corrRaised := true } }).ev (evCst 3)
  else { s with cst := c }

/-- A second read of a line passes: after a wrong bit it could correct, or one of the line check alone, whose data was right (R197, R433). -/
def State.csReread (s : State) (checkOnly : Bool) : State :=
  ((if checkOnly then s.incSat Reg.CVU_CHKONLY_CST else s).incSat Reg.CST_REREAD_COUNT).ev (evCst 1)

/-- An armed check error of a store port meets a line read and its second read (R496): 0 none, 1 the second read passes, 2 both
fail. -/
def State.csInject (s : State) (port : Nat) : Nat × State :=
  let (a, s) := s.inject 1 port
  let (b, s) := s.inject 2 port
  if !a && !b then (0, s) else
  let (c, s) := s.inject (if a then 1 else 2) port
  if c then (2, s) else
  (1, s.csReread a)

/-! ### Records -/

/-- The store address of a ring offset: the ring goes through its own page map (R194). -/
def Chan.ringAddr (c : Chan) (o : Nat) : Nat :=
  let pg := (c.adm.map (·.cpbPages)).getD []
  pg.getD (o / 4096 % max 1 pg.length) 0 * 4096 + o % 4096

/-- Bytes of a record in the ring, header and padding included (R73). -/
def RingRec.size (r : RingRec) : Nat := cdiv (32 + r.nal.length) 64 * 64

/-- The 32-byte header (R73). -/
def RingRec.header (r : RingRec) (n : Nat) : Bytes :=
  toLe 2 r.typ ++ toLe 1 n ++ toLe 1 r.col ++ toLe 2 r.row ++ toLe 2 r.flags ++ toLe 8 r.frame ++ toLe 4 r.nal.length ++
    toLe 4 r.bits ++ toLe 8 0

/-- Store bytes at ring offset `o` and up; the lines carry good checks (R27). -/
def ringStore (c : Chan) : Nat → Bytes → Mem → Mem
  | _, [], m => m
  | o, b :: r, m => ringStore c (o + 1) r { csWrite m (c.ringAddr o) b with csFlip := tset [] m.csFlip (c.ringAddr o / 64) [] }

/-- The whole bytes of a record: header, NAL units, and zero up to a line (R73). -/
def RingRec.body (r : RingRec) (n : Nat) : Bytes := r.header n ++ r.nal ++ List.replicate (r.size - 32 - r.nal.length) 0

/-- Write a record at its place in the ring. -/
def State.storeRec (s : State) (n : Nat) (r : RingRec) : State := { s with mem := ringStore (s.chan n) r.off (r.body n) s.mem }

/-- Bytes of records the ring holds. -/
def Chan.ringUsed (c : Chan) : Nat := (c.ring.map RingRec.size).sum
def Chan.ringBytes (c : Chan) : Nat := ((c.adm.map (·.cpbPages.length)).getD 0) * 4096

/-- Place a record (R73): it is charged to its row slot (R110); a ring that cannot hold it has overflowed (R37). -/
def State.putRecord (s : State) (n typ frame row col bits flags : Nat) (nal : Bytes) : State :=
  if !s.live n then s else
  let c := s.chan n
  let r : RingRec := { typ, frame, row, col, off := c.ringHead, nal, bits, flags }
  if c.ringBytes < c.ringUsed + r.size then s.faultChan n 3 else
  let s := s.storeRec n r
  let s := s.cvuItem (448 + n) (r.body n) (some (c.ringAddr c.ringHead + Config.csBase)) (some (frame % 2 ^ 32 * 65536 + col % 4 * 16384 + row % 16384))
  let s := s.setChan n { c with ring := c.ring ++ [r], ringHead := (c.ringHead + r.size) % max 64 c.ringBytes }
  s.onSlot n frame row fun x => { x with charge := x.charge + 8 * nal.length, bits := x.bits + bits }

/-- The check window of a channel's records ends with the last record of the picture's last row (R429). -/
def State.recsEnd (s : State) (n frame row : Nat) : State :=
  let c := s.chan n
  let k := (c.ring.filter fun r => r.frame = frame && r.row = row && (r.typ = 1 || r.typ = 2)).length
  if row + 1 = c.rows ∧ k = sliceCols c.raster then s.cvuEnd (448 + n) else s

/-- The records of a row slot, prefix first, then by column (R297). -/
def Chan.recsOf (c : Chan) (frame row : Nat) : List RingRec :=
  let l := c.ring.filter fun r => r.frame = frame && r.row = row
  (l.filter (·.typ = 0)) ++ (List.range 4).flatMap fun k => l.filter fun r => r.typ ≠ 0 && r.col = k

/-- Drop the records of a row slot. -/
def State.dropRecs (s : State) (n frame row : Nat) : State :=
  let c := s.chan n
  s.setChan n { c with ring := c.ring.filter fun r => !(r.frame = frame && r.row = row) }

/-- The store lines that hold NAL bytes `o` to `o + k - 1` of a record. -/
def Chan.recLines (c : Chan) (r : RingRec) (o k : Nat) : List Nat :=
  if k = 0 then [] else
  let a := (r.off + 32 + o) / 64
  let b := (r.off + 32 + o + k - 1) / 64
  (List.range (b + 1 - a)).map fun i => c.ringAddr ((a + i) * 64) / 64

/-! ### Audio samples -/

def State.audPort (s : State) (p : Nat) : AudPort := tget {} s.aud.ports p
def State.setAudPort (s : State) (p : Nat) (v : AudPort) : State := { s with aud := { s.aud with ports := tset {} s.aud.ports p v } }

/-- The sample pair of a port at a count: a TAILSTOCK or RESYNC device reads what HEADSTOCK sent (R339, R382). -/
def State.sapAt (s : State) (p : Nat) (n : Int) : Int × Int :=
  if n < 0 then (0, 0)
  else if 2 ≤ s.role then
    match (tget [] s.pair.portAudio p).find? fun e => e.1 = n.toNat with | some (_, l, r) => (l, r) | none => (0, 0)
  else tget (0, 0) (s.audPort p).ring n.toNat

/-- The sample pair of a flow at a count (channel pair `k`). -/
def State.flowAt (s : State) (f k : Nat) (n : Int) : Int × Int :=
  match s.flowIn f with
  | none => (0, 0)
  | some x => if n < 0 then (0, 0) else let l := tget [] x.aud n.toNat; (l.getD (2 * k) 0, l.getD (2 * k + 1) 0)

/-- The half-band decimator (R344). -/
def decimate (x : Int → Int) (j : Int) : Int :=
  let t (k : Int) := x (2 * j - k) + x (2 * j + k)
  let acc := 524288 * x (2 * j) + 324010 * t 1 - 94370 * t 3 + 47185 * t 5 - 20972 * t 7 + 8389 * t 9 - 2098 * t 11
  min 8388607 (max (-8388608) ((acc + 524288) / 1048576))

/-- The sample pair a route supplies at its own rate. -/
def State.routeAt (s : State) (r : Route) (n : Int) : Int × Int := if r.kind = 0 then s.sapAt r.src n else s.flowAt r.src r.pair n

/-- A route's source runs at 96 kHz. -/
def State.route96 (s : State) (r : Route) : Bool :=
  if r.kind = 0 then s.rd Reg.AUD_PORT_CFG_RATE_ACT 0 r.src = 1
  else match s.flowIn r.src with | some x => x.audRate = 96000 | none => false

/-- The state whose routes are those in force (R343). -/
def State.actView (s : State) : State := { s with routes := s.routesAct }

/-- The pair of a slot at 48 kHz count `j`; an unrouted slot is zero (R302). -/
def State.slot48 (s : State) (g k : Nat) (j : Int) : Int × Int :=
  match s.slotRoute g k with
  | none => (0, 0)
  | some r =>
    if s.route96 r then (decimate (fun n => (s.routeAt r n).1) j, decimate (fun n => (s.routeAt r n).2) j) else s.routeAt r j

/-- The pair of a slot at the source's own rate. -/
def State.slotRaw (s : State) (g k : Nat) (j : Int) : Int × Int :=
  match s.slotRoute g k with | none => (0, 0) | some r => s.routeAt r j

end Sys2Proof.Machine
end

