-- ==== Sys2Proof/Machine/Arbiter.lean ====
section
/-! DEFINITION. The transmit arbiter of a MAC: self-clocked virtual-time fair queueing of the released frames (R309). -/

namespace Sys2Proof.Machine

def State.arb (s : State) (m : Nat) : Arb := tget {} s.arbs m
def State.setArb (s : State) (m : Nat) (v : Arb) : State := { s with arbs := tset {} s.arbs m v }

/-- The time of `k` bytes on the wire of a MAC, in ns: 8 K over its line rate (R311). -/
def State.wireNs (s : State) (m k : Nat) : Nat := cdiv (8 * k * 1000000000) (s.lineRate m)

/-- The virtual finish of a frame: max(V, F_prev) + 8 K / RATE, kept in units of 2^-32 bit per kb/s (log entry 47). -/
def Arb.finishOf (a : Arb) (shaper k rate : Nat) : Nat := max a.v (tget 0 a.prev shaper) + 8 * k * 2 ^ 32 / max 1 rate

/-- The waiting frame to be sent first: the smallest finish, the lower shaper on a tie, the earlier released of one queue. -/
def firstWait : List TxWait → Option TxWait
  | [] => none
  | w :: r => match firstWait r with
    | none => some w
    | some y => if y.finish < w.finish ∨ (y.finish = w.finish ∧ y.shaper < w.shaper) then some y else some w

/-- A frame starts on the wire at internal time `t`. -/
def State.txStart (s : State) (m t : Nat) (w : TxWait) : State :=
  let a := s.arb m
  ((s.setArb m { a with v := w.finish, idle := t + s.wireNs m w.k }).emit (.frame m t w.bytes)).incWrap Reg.NET_TXFRAMES_COUNT 1 (m / 4) (m % 4)

/-- The frames whose turn on the wire came by now, one after the other. -/
def txFuel : Nat → Nat → State → State
  | 0, _, s => s
  | n + 1, m, s =>
    let a := s.arb m
    match firstWait a.wait with
    | none => s
    | some w => if s.ns < a.idle then s else txFuel n m ((s.setArb m { a with wait := a.wait.erase w }).txStart m a.idle w)

/-- The wires of all MACs, brought to the present. -/
def State.txDue (s : State) : State := s.forEach (List.range 16) fun s m => txFuel ((s.arb m).wait.length) m s

/-- A media frame enters the transmit arbiter of a MAC: it goes out at once on an idle wire, else by its virtual finish. A
MAC that is down sends nothing (R270). -/
def State.txRelease (s : State) (m shaper k : Nat) (bytes : Bytes) : State :=
  if !s.macUp m then s else
  let a := s.arb m
  let w : TxWait := { finish := a.finishOf shaper k (s.rd Reg.SHP_SHAPER_RATE 0 shaper), shaper := shaper, k := k, bytes := bytes }
  let s := s.setArb m { a with prev := tset 0 a.prev shaper w.finish }
  if a.wait = [] ∧ a.idle ≤ s.ns then s.txStart m s.ns w
  else s.setArb m { s.arb m with wait := a.wait ++ [w] }

end Sys2Proof.Machine
end

