-- ==== Sys2Proof/Machine/Dram.lean ====
section
/-! DEFINITION. The DRAM controllers: line checks, refresh and its postponement, the row-neighbour guard, training and set
points (R391 to R408). -/

namespace Sys2Proof.Machine

def State.dmcCh (s : State) (c : Nat) : DmcCh := tget {} s.dmc.chans c
def State.setDmcCh (s : State) (c : Nat) (v : DmcCh) : State := { s with dmc := { s.dmc with chans := tset {} s.dmc.chans c v } }

/-- Set a field on every controller. -/
def State.allDmc (s : State) (f : State → Nat → State) : State := s.forEach (List.range 24) f

/-- The present time in 1/16 ns. -/
def State.t16 (s : State) : Nat := s.time.now / 4096

/-! ### Geometry (R393, R397) -/

/-- Rows of one bank of one rank, by DENSITY. -/
def rowsOf (density : Nat) : Nat := ([4, 6, 8, 12, 16, 24, 32].getD density 4) * 4096

/-- tRFCab in ns by DENSITY. -/
def tRfc (density : Nat) : Nat := [180, 210, 210, 280, 280, 380, 380].getD density 180

/-- tREFI in 1/16 ns by RATE. -/
def tRefi (rate : Nat) : Nat := if rate = 0 then 62500 else if rate = 1 then 31250 else 15625

/-- Where a line of the region lies: channel, line in the channel, rank, bank, row of the rank. -/
structure DramPlace where
  chan : Nat
  c    : Nat
  slot : Nat
  rank : Nat
  bank : Nat
  row  : Nat
deriving DecidableEq, Repr

def State.dramPlace (s : State) (l : Nat) : DramPlace :=
  let chan := l % 24
  let c := l / 24
  let r := c / 31
  let rows := rowsOf (s.rd Reg.DMC_GEOM_DENSITY chan)
  { chan, c, slot := r, rank := r / 16 / rows, bank := (r % 16) ^^^ (r / 16 % 16), row := r / 16 % rows }

/-! ### Events (R408) -/

/-- EV_DMC_STATUS of a channel with its cause. -/
def State.dmcStatus (s : State) (c cause : Nat) : State := (s.wr Reg.DMC_EVCAUSE_CAUSE cause c).ev (evDmc c 1) 255 cause

/-- A line delivered uncorrectable, or found by the scrub: recorded; EV_DMC_ECC at most once a second for deliveries. -/
def State.dramUncorr (s : State) (l : Nat) (codeLine scrub : Bool) : State :=
  let p := s.dramPlace l
  let s := if scrub then s else s.incSat Reg.DMC_ECCUNCORR_COUNT 1 p.chan
  let s := (s.wr Reg.DMC_LASTERR_ADDR (Config.dramBase + 64 * l) p.chan).wr Reg.DMC_LASTERR_RANK p.rank p.chan
  let s := ((s.wr Reg.DMC_LASTERR_BANK p.bank p.chan).wr Reg.DMC_LASTERR_CODELINE (bit codeLine) p.chan).wr Reg.DMC_LASTERR_SCRUB (bit scrub) p.chan
  let x := s.dmcCh p.chan
  if scrub then s.ev (evDmc p.chan 0)
  else
    let recent := match x.eccAt with | some t => decide (s.ns < t + 1000000000) | none => false
    if recent then s
    else (s.setDmcCh p.chan { x with eccAt := some s.ns }).ev (evDmc p.chan 0)

/-- Mark a line damaged, or the 31 lines of its row when the code line is (R395). -/
def State.dramDamage (s : State) (l : Nat) (codeLine : Bool) : State :=
  let p := s.dramPlace l
  if !codeLine then { s with mem := { s.mem with dramBad := tset 0 s.mem.dramBad l 1 } }
  else { s with mem := { s.mem with dramBad := (List.range 31).foldl (fun t j => tset 0 t ((p.slot * 31 + j) * 24 + p.chan) 2) s.mem.dramBad } }

/-! ### The row-neighbour guard (R401) -/

/-- Put an activate into a table of 16 entries; answers the row's count and the table. -/
def guardHit (t : List (Nat × Nat)) (row : Nat) : Nat × List (Nat × Nat) :=
  match t.find? fun e => e.1 = row with
  | some e => (e.2 + 1, t.map fun x => if x.1 = row then (row, x.2 + 1) else x)
  | none =>
    if t.length < 16 then (1, t ++ [(row, 1)]) else
    let least := t.foldl (fun m e => min m e.2) (t.headD (0, 0)).2
    let i := (t.findIdx? fun e => e.2 = least).getD 0
    (least + 1, t.set i (row, least + 1))

/-- One activate: at THR the neighbours are refreshed and the count starts again. -/
def State.guardRow (s : State) (p : DramPlace) : State :=
  let x := s.dmcCh p.chan
  let k := 16 * p.rank + p.bank
  let (n, t) := guardHit (tget [] x.guard k) p.row
  let s := s.wrMax Reg.DMC_GUARDMAX_COUNT n p.chan
  if n < s.rd Reg.DMC_GUARDCFG_THR p.chan then s.setDmcCh p.chan { x with guard := tset [] x.guard k t } else
  let t := t.map fun e => if e.1 = p.row then (p.row, 0) else e
  let (sec, cnt) := if x.guardSec.1 = s.sec then x.guardSec else (s.sec, 0)
  let s := (s.setDmcCh p.chan { x with guard := tset [] x.guard k t, guardSec := (sec, cnt + 1) }).incSat Reg.DMC_GUARDCNT_REFRESHES 1 p.chan
  let rows := rowsOf (s.rd Reg.DMC_GEOM_DENSITY p.chan)
  let near := (List.range (s.rd Reg.DMC_GUARDCFG_RADIUS p.chan)).flatMap fun d =>
    (if d + 1 ≤ p.row then [p.row - (d + 1)] else []) ++ (if p.row + (d + 1) < rows then [p.row + (d + 1)] else [])
  let s := near.foldl (fun s r => s.emit (.dramCmd p.chan 1 ((16 * p.rank + p.bank) * 2 ^ 32 + r))) s
  if cnt + 1 = 1001 then s.dmcStatus p.chan 6 else s

/-- The tables are cleared every 32 ms. -/
def execGuardTableClear (s : State) : Host.Outcome State Fault Refusal :=
  finish (
    if s.ns < s.dmc.clearAt + 32000000 then s else
    ({ s with dmc := { s.dmc with clearAt := s.ns } }).allDmc fun s c => s.setDmcCh c { s.dmcCh c with guard := [] })

/-! ### Accesses (R394 to R396) -/

/-- Requests are held while a channel trains or switches, and there are none while it is off. -/
def State.dramReady (s : State) (c : Nat) : Bool := s.rd Reg.DMC_CHSTAT_STATE c = 3

/-- The code cache holds a code line; the 65th writes the oldest back. -/
def State.codeUse (s : State) (p : DramPlace) : State :=
  let x := s.dmcCh p.chan
  let l := x.code.filter (· ≠ p.slot) ++ [p.slot]
  s.setDmcCh p.chan { x with code := if 64 < l.length then l.drop 1 else l }

/-- A switch, or a training step on any channel, holds every request at the DRAM ports (R403, R404). -/
def State.dramHolds (s : State) (c : Nat) : Bool :=
  decide (s.rd Reg.DMC_CHSTAT_STATE c = 4) || (List.range 24).any fun k => decide (s.rd Reg.DMC_CHSTAT_STATE k = 2)

/-- The dies are refreshed by their controllers: READY, training or switching. -/
def State.dramUp (s : State) : Bool := decide (2 ≤ s.rd Reg.DMC_CHSTAT_STATE) && decide (s.rd Reg.DMC_CHSTAT_STATE ≤ 4)

/-- A request waits. -/
def State.stall (s : State) (r : Req) : State := { s with stalled := s.stalled ++ [r] }

/-- A controller reads a line, or writes it whole. `act`: the access needed an activate. Of a read: 0 good, 1 corrected and
written back, 2 uncorrectable, 3 its code line uncorrectable. -/
def State.dramRun (s : State) (line : Nat) (write : Option Bytes) (act : Bool) (res : Nat) : State :=
  let p := s.dramPlace line
  let s := if act then s.guardRow p else s
  match write with
  | some d =>
    let s := { s with mem := { dramWrites s.mem (64 * line) (bytesAt d 0 64) with dramBad := tset 0 s.mem.dramBad line 0 } }
    s.codeUse p
  | none =>
    let bad := tget 0 s.mem.dramBad line
    let (hit, s) := s.inject 4 p.chan
    if bad ≠ 0 then s.dramUncorr line (bad = 2) false
    else if hit then s.dramUncorr line false false
    else if res = 1 then (s.incSat Reg.DMC_ECCCORR_COUNT 1 p.chan).codeUse p
    else if 2 ≤ res then (s.dramDamage line (res = 3)).dramUncorr line (res = 3) false
    else s

/-- An access of a line: held while its channel trains or switches; there are none of a channel that is not up. -/
def execDramAccess (line : Nat) (write : Option Bytes) (act : Bool) (res : Fin 4) (s : State) : Host.Outcome State Fault Refusal :=
  finish (
    let p := s.dramPlace line
    if s.rd Reg.MTX_DRAMSIZE_BYTES ≤ 64 * line then s
    else if s.dramHolds p.chan then s.stall (.dram line write act res)
    else if s.dramReady p.chan then s.dramRun line write act res
    else s)

/-- A code line is written back. -/
def execCodeCacheWriteback (c : Fin 24) (slot : Nat) (s : State) : Host.Outcome State Fault Refusal :=
  finish (s.setDmcCh c { s.dmcCh c with code := (s.dmcCh c).code.filter (· ≠ slot) })

/-- DCLK in kHz by set point (R392). -/
def dclkKhz (point : Nat) : Nat := [1200000, 1066625, 937500, 800000].getD point 1200000

/-- The scrub of a channel reads its next line, one every SCRUB.INTERVAL DCLK (R396). -/
def execDramScrubLine (c : Fin 24) (res : Fin 4) (s : State) : Host.Outcome State Fault Refusal :=
  finish (
    let x := s.dmcCh c
    let every := s.rd Reg.DMC_SCRUB_INTERVAL c * 1000000 / dclkKhz (s.rd Reg.DMC_CHSTAT_POINT c)
    let early : Bool := match x.scrubAt with | some t => decide (s.ns < t + every) | none => false
    if !s.dramReady c ∨ early then s else
    let l := x.scrub * 24 + c.val
    let bad := tget 0 s.mem.dramBad l
    let s := if bad ≠ 0 then s.dramUncorr l (bad = 2) true
      else if res = 1 then s.incSat Reg.DMC_ECCCORR_COUNT 1 c
      else if 2 ≤ res.val then (s.dramDamage l (res = 3)).dramUncorr l (res = 3) true
      else s
    let next := if s.rd Reg.MTX_DRAMSIZE_BYTES ≤ 64 * (l + 24) then 0 else x.scrub + 1
    let s := s.setDmcCh c { s.dmcCh c with scrub := next, scrubAt := some s.ns }
    if next = 0 then s.incWrap Reg.DMC_SCRUBPASS_COUNT 1 c else s)

/-! ### Refresh (R397, R399, R400) -/

def State.refRate (s : State) : Nat := s.rd Reg.DMC_CHSTAT_RATE
def State.trfc16 (s : State) : Nat := 16 * s.rd Reg.DMC_TRFC_NS

/-- POSTMAX, which NOPOST makes 0 (R496). -/
def State.postMax (s : State) : Nat :=
  if s.rd Reg.TST_LOCKSTAT_OPEN = 1 ∧ s.rd Reg.TST_REFCTL_NOPOST = 1 then 0 else s.rd Reg.DMC_REFCFG_POSTMAX

/-- All-bank refreshes issued by every channel, `n` back to back from a time in 1/16 ns. -/
def State.refresh (s : State) (n start : Nat) : State :=
  if n = 0 then s else
  let stop := start + n * s.trfc16
  let s := (s.allDmc fun s c => s.incWrap Reg.DMC_REFCNT_ISSUED n c).emit (.dramCmd 24 0 n)
  { s with dmc := { s.dmc with payEnd := stop }, spd := { s.spd with refEnd := cdiv stop 16 } }

/-- The refreshes owed at a time in a batch. -/
def owedAt (tb issued trefi t : Nat) : Nat := (t - tb) / trefi + 1 - issued

/-- Move the due time on from `last` at a rate, past a time; a skew joins the first one not yet reported (R496). -/
def State.nextDue (s : State) (rate past : Nat) : State :=
  let i := tRefi rate
  let due := s.dmc.last + ((past - s.dmc.last) / i + 1) * i
  match s.dmc.skew with
  | some (ns, upto) =>
    if upto < due then
      let due := ((due : Int) + 16 * ns).toNat
      let s := { s with dmc := { s.dmc with due := due, skew := none }, spd := { s.spd with refNext := some (cdiv due 16) } }
      s.tstShow.ev (evTst 3)
    else { s with dmc := { s.dmc with due := due }, spd := { s.spd with refNext := some (cdiv due 16) } }
  | none => { s with dmc := { s.dmc with due := due }, spd := { s.spd with refNext := some (cdiv due 16) } }

/-- An all-bank refresh falls due. -/
def execRefreshDue (s : State) : Host.Outcome State Fault Refusal :=
  finish (
    if !s.dramUp ∨ !s.fclk then s else
    let t := s.dmc.due
    let s := s.at (cdiv t 16)
    let rate := s.refRate
    let s := { s with dmc := { s.dmc with last := t } }
    let (tb, issued) := s.dmc.batch.getD (t, 0)
    let owed := owedAt tb issued (tRefi rate) t
    let open_ := s.rd Reg.SPD_SPDSTAT_WINDOW = 1 ∧ !s.dmc.cut
    let s := if open_ ∧ 0 < s.postMax then
        let s := { s with dmc := { s.dmc with batch := some (tb, issued) } }
        if owed ≤ s.postMax then
          s.allDmc fun s c => (s.incSat Reg.DMC_POSTCNT_POSTPONED 1 c).wrMax Reg.DMC_POSTCNT_MAXOWED owed c
        else ({ s with dmc := { s.dmc with batch := some (tb, issued + 1) } }).refresh 1 (max t s.dmc.payEnd)
      else s.refresh 1 (max t s.dmc.payEnd)
    s.nextDue rate t)

/-- MR4_CRIT stands while refresh runs at 4× (R468). -/
def State.mr4Alarm (s : State) : State :=
  let b := bit (s.refRate = 2)
  let old := s.rd Reg.PCR_ALARM_BITS
  let s := s.wr Reg.PCR_ALARM_BITS ((old ^^^ (old &&& 32)) ||| 32 * b)
  s.wr Reg.PCR_ALARMLAT_BITS (s.rd Reg.PCR_ALARMLAT_BITS ||| 32 * b)

/-- Owed refreshes are issued back to back when the window closes; a lower rate that waited applies (R399, R400). -/
def State.payback (s : State) : State :=
  let s := match s.dmc.batch with
    | none => s
    | some (tb, issued) => ({ s with dmc := { s.dmc with batch := none } }).refresh (owedAt tb issued (tRefi s.refRate) s.t16) (max s.t16 s.dmc.payEnd)
  let s := { s with dmc := { s.dmc with cut := false } }
  match s.dmc.fall with
  | none => s
  | some r => (({ (s.allDmc fun s c => s.wr Reg.DMC_CHSTAT_RATE r c) with dmc := { s.dmc with fall := none } }).nextDue r s.dmc.last).mr4Alarm

/-- The rate an MR4 code asks for (log entry 26): 0 1× or slower, 1 2×, 2 4× or beyond. -/
def mr4Rate (code : Nat) : Nat := if code % 32 ≤ 9 then 0 else if code % 32 ≤ 11 then 1 else 2

/-- A new refresh rate: a rise ends a batch at once, a fall waits for its payback (R400). -/
def State.setRate (s : State) (new : Nat) (causes : List Nat) : State :=
  let old := s.refRate
  if new = old then { s with dmc := { s.dmc with fall := none } } else
  let tell (s : State) := causes.foldl (fun s c => s.dmcStatus c (if new = 2 then 2 else 1)) s
  if old < new then
    let s := { s with dmc := { s.dmc with hot := causes, fall := none } }
    let s := s.allDmc fun s c => s.wr Reg.DMC_CHSTAT_RATE new c
    let s := match s.dmc.batch with
      | none => s
      | some (tb, issued) =>
        let s := { s with dmc := { s.dmc with batch := none, cut := true } }
        (s.allDmc fun s c => s.incSat Reg.DMC_POSTCNT_CUT 1 c).refresh (owedAt tb issued (tRefi new) s.t16) (max s.t16 s.dmc.payEnd)
    (tell (s.nextDue new s.t16)).mr4Alarm
  else
    let s := if s.dmc.batch.isSome then { s with dmc := { s.dmc with fall := some new } }
      else ((s.allDmc fun s c => s.wr Reg.DMC_CHSTAT_RATE new c).nextDue new s.dmc.last).mr4Alarm
    let by_ := if causes.isEmpty then s.dmc.hot else causes
    by_.foldl (fun s c => s.dmcStatus c 1) { s with dmc := { s.dmc with hot := causes } }

/-- A channel's readings go to MR4, and each controller sends its reads. -/
def State.mr4Show (s : State) (readings : List (Nat × Nat)) : State :=
  s.allDmc fun s c =>
    let r := readings.getD c (0, 0)
    ((s.wr Reg.DMC_MR4_RANK0 r.1 c).wr Reg.DMC_MR4_RANK1 (if s.rd Reg.DMC_GEOM_RANKS c = 1 then r.2 else 0) c).emit (.dramCmd c 2 0)

/-- The rate that the dies of a channel ask for. -/
def State.mr4Need (s : State) (c : Nat) : Nat := max (mr4Rate (s.rd Reg.DMC_MR4_RANK0 c)) (if s.rd Reg.DMC_GEOM_RANKS c = 1 then mr4Rate (s.rd Reg.DMC_MR4_RANK1 c) else 0)

/-- The highest rate asked for, with the count of calm polls. -/
def State.mr4Top (s : State) : Nat := (List.range 24).foldl (fun m c => max m (s.mr4Need c)) 0
def State.mr4Calm (s : State) : State := { s with dmc := { s.dmc with calm := if s.mr4Top = 0 then s.dmc.calm + 1 else 0 } }

/-- A poll comes within MR4_INT µs of the last one. -/
def State.mr4Early (s : State) : Bool :=
  match s.dmc.mr4At with
  | some t => decide (s.ns < t + s.rd Reg.DMC_REFCFG_MR4_INT * 1000)
  | none => false

/-- The rate that a poll asks for: a fall waits for two calm polls. -/
def State.mr4Apply (s : State) : State :=
  if s.mr4Top = 0 then (if 2 ≤ s.dmc.calm then s.setRate 0 [] else s)
  else s.setRate s.mr4Top ((List.range 24).filter fun c => s.mr4Need c = s.mr4Top)

/-- A poll of every rank's MR4. -/
def State.mr4Read (s : State) (readings : List (Nat × Nat)) : State :=
  (({ s with dmc := { s.dmc with mr4At := some s.ns } }.mr4Show readings).mr4Calm).mr4Apply

/-- Every MR4_INT µs every rank's MR4 is read; readings by channel as (rank 0, rank 1). -/
def execMr4Poll (readings : List (Nat × Nat)) (s : State) : Host.Outcome State Fault Refusal :=
  finish (if s.dramUp && s.fclk && !s.mr4Early then s.mr4Read readings else s)

/-! ### Set points and training (R402 to R405) -/

/-- A point trained on every channel. -/
def State.trainedAll (s : State) (p : Nat) : Bool := (List.range 24).all fun c => (s.rd Reg.DMC_CHSTAT_TRAINED c).testBit p

/-- The lowest channel in CH_RUNNING. -/
def State.lowestRunning (s : State) : Option Nat := (List.range 64).find? fun n => s.chSt n = 3

/-- A step of training begins: the lowest step that a channel of the run has not passed, on the channels that want it. -/
def State.trainStep (s : State) (t : Train) : State :=
  let want (c : Nat) := ((List.range 7).find? fun i => !(tget 0 (s.dmcCh c).cand t.point).testBit i).getD 7 + 1
  let ins := (List.range 24).filter t.live.testBit
  let step := ins.foldl (fun m c => min m (want c)) 8
  if 7 < step then
    let s := ins.foldl (fun s c => (s.wr Reg.DMC_CHSTAT_STATE 3 c).wr Reg.DMC_TRNCTL_STEP 0 c) s
    let s := ({ s with dmc := { s.dmc with train := none } }).powerRefresh
    if t.good = t.sel then s.complete t.key stOk else s.complete t.key stAborted 0x30 t.good
  else
    let s := ins.foldl (fun s c => ((s.wr Reg.DMC_CHSTAT_STATE 2 c).wr Reg.DMC_TRNCTL_STEP (if want c = step then step else 0) c).wr
      Reg.DMC_TRNCTL_TRNPOINT t.point c) s
    let s := ins.foldl (fun s c => s.wr Reg.DMC_TRNCTL_PASSED (tget 0 (s.dmcCh c).cand t.point) c) s
    ({ s with dmc := { s.dmc with train := some { t with step := step } } }).powerRefresh

/-- A switch begins: every request is held until it ends. -/
def State.switchBegin (s : State) : State := if s.dmc.points = [] then s else s.allDmc fun s c => s.wr Reg.DMC_CHSTAT_STATE 4 c

def chkDramSetPoint : OpChk := fun s _ p =>
  let pt := fld p 0 1
  orElse (firstBad [(3 < pt || !s.trainedAll pt, badAt 0), (nz p 1 3, badAt 1)]) fun _ =>
  match s.lowestRunning with
  | some n => some { status := stRefused, detail := n }
  | none => if 8 * dramLimitAt pt < s.dramLoad8 64 then some (cap 7 (cdiv (s.dramLoad8 64) 8) (dramLimitAt pt)) else none

/-- The switch starts at once, or when the running step of training or an earlier switch ends. -/
def runDramSetPoint : OpRun := fun c p s =>
  let busy := s.dmc.train.isSome
  let first := s.dmc.points.isEmpty
  let s := { s with dmc := { s.dmc with points := s.dmc.points ++ [(fld p 0 1, c.key)] } }
  (if busy || !first then s else s.switchBegin, .later busy)

def execOpDramSetPoint (h : Hdr) (p : Bytes) (s : State) : Host.Outcome State Fault Refusal :=
  finish (s.hostCmd (.opDramSetPoint h p) 0x0810 h p chkDramSetPoint runDramSetPoint)

def chkDramTrain : OpChk := fun s _ p =>
  orElse (firstBad [(3 < fld p 0 1, badAt 0), (nz p 1 3, badAt 1), (decide (2 ^ 24 ≤ fld p 4 4), badAt 4),
    (s.dmc.train.isSome, { status := stBusy, detail := 2 })]) fun _ =>
  match s.lowestRunning with
  | some n => some { status := stRefused, detail := n }
  | none => none

/-- Training begins; a candidate record that is whole is begun afresh. A switch in progress ends first. With no channel selected every selected
channel has passed. -/
def runDramTrain : OpRun := fun c p s =>
  let pt := fld p 0 1
  let m := fld p 4 4
  if m = 0 then (s, .accDone stOk 0 0 0) else
  let s := s.forEach ((List.range 24).filter m.testBit) fun s c =>
    let x := s.dmcCh c
    if tget 0 x.cand pt = 127 then s.setDmcCh c { x with cand := tset 0 x.cand pt 0 } else s
  let t : Train := { point := pt, sel := m, live := m, good := 0, step := 0, key := c.key }
  (if s.dmc.points = [] then s.trainStep t else { s with dmc := { s.dmc with train := some t } }, .later false)

def execOpDramTrain (h : Hdr) (p : Bytes) (s : State) : Host.Outcome State Fault Refusal :=
  finish (s.hostCmd (.opDramTrain h p) 0x0811 h p chkDramTrain runDramTrain)

/-- The result of a step on one channel of it. -/
def State.trainedStep (s : State) (t : Train) (c : Nat) (pass : Bool) : Train × State :=
  let x := s.dmcCh c
  if s.rd Reg.DMC_TRNCTL_STEP c ≠ t.step then (t, s)
  else if !pass then
    ({ t with live := t.live ^^^ 2 ^ c }, ((s.wr Reg.DMC_CHSTAT_STATE 3 c).wr Reg.DMC_TRNCTL_STEP 0 c).dmcStatus c 4)
  else
    let m := tget 0 x.cand t.point ||| 2 ^ (t.step - 1)
    let s := (s.setDmcCh c { x with cand := tset 0 x.cand t.point m }).wr Reg.DMC_TRNCTL_PASSED m c
    if t.step = 7 then
      ({ t with good := t.good ||| 2 ^ c }, (s.wr Reg.DMC_CHSTAT_TRAINED (s.rd Reg.DMC_CHSTAT_TRAINED c ||| 2 ^ t.point) c).dmcStatus c 3)
    else (t, s)

def runDramStatus : OpRun := fun _ _ s =>
  let pt := s.rd Reg.DMC_CHSTAT_POINT
  let m := (List.range 24).foldl (fun m c => if (s.rd Reg.DMC_CHSTAT_TRAINED c).testBit pt then m + 2 ^ c else m) 0
  (s, ok2 (pt + 4 * bit s.dmc.train.isSome + 8 * bit (decide (1 ≤ s.refRate))) m)

def execOpDramStatus (h : Hdr) (p : Bytes) (s : State) : Host.Outcome State Fault Refusal :=
  finish (s.hostCmd (.opDramStatus h p) 0x0812 h p noChk runDramStatus)

end Sys2Proof.Machine
end

