-- ==== Sys2Proof/Machine/Lines.lean ====
section
/-! DEFINITION. Reads that meet an uncorrectable line, in the Central Store or in DRAM (R197, R198, R395). -/

namespace Sys2Proof.Machine

/-- What the read of a line at an internal address finds for the first time: `kind` 0 to 2, as in LASTERR, damage that stays until the line is written; of a store
line, 3 a corrected word, 4 a second read that passed, 5 the same after a failed check of right data. -/
def State.lineDamage (s : State) (a kind : Nat) : State :=
  if s.badLine a then s else
  match s.space a with
  | (0, o) => if kind = 3 then s.csCorrected 1 else if kind = 4 ∨ kind = 5 then s.csReread (kind = 5) else s.csDamage (o / 64) kind
  | (1, o) => s.dramDamage (o / 64) false
  | _ => s

/-- A damaged line is delivered to a consumer marked uncorrectable: counted, recorded and reported by the memory that holds it. -/
def State.lineRead (s : State) (a port : Nat) : State :=
  match s.space a with
  | (0, o) => if s.csBad (o / 64) then s.csUncorr (o / 64 * 64) port (s.csFound (o / 64)).kind else s
  | (1, o) => if tget 0 s.mem.dramBad (o / 64) = 0 then s else s.dramUncorr (o / 64) (tget 0 s.mem.dramBad (o / 64) = 2) false
  | _ => s

/-- Both: a line that a read found uncorrectable. -/
def State.lineFail (s : State) (a port kind : Nat) : State := (s.lineDamage a kind).lineRead a port

/-- Internal addresses of the lines that hold `n` bytes from an internal address. -/
def linesAt (a n : Nat) : List Nat := if n = 0 then [] else (List.range ((a + n - 1) / 64 + 1 - a / 64)).map fun i => 64 * (a / 64 + i)

/-- The internal address of a store line. -/
def storeLine (l : Nat) : Nat := Config.csBase + 64 * (l % 8388608)

end Sys2Proof.Machine
end

