-- ==== Sys2Proof/Machine/Shaper.lean ====
section
/-! DEFINITION. Shaper arithmetic, the frames a shaper holds, windows and release (R294 to R296, R299, R305 to R312). -/

namespace Sys2Proof.Machine

/-! ### Arithmetic (R306, R308) -/

/-- A change that waits for its base: base, rate, burst, overhead, reset mode, and whether the rate follows R_min. -/
abbrev ShChange := Nat × Nat × Nat × Nat × Nat × Bool

/-- The credit a reset mode gives, in 2^-16 byte. -/
def creditOf (mode burst : Nat) : Int := if mode = 1 then (burst * 65536 : Nat) else 0

/-- A change comes into the arithmetic at its base: the debt is forgiven. -/
def Shaper.change (x : Shaper) (ch : ShChange) : Shaper :=
  let (b, r, bu, o, m, _) := ch
  { x with rate := r, burst := bu, ovh := o, mode := m, c := creditOf m bu, tau := b, applied := x.applied ++ [ch] }

/-- The changes due at a base. -/
def Shaper.due (x : Shaper) (base : Nat) : Shaper :=
  (x.pend.filter fun c => c.1 ≤ base).foldl Shaper.change { x with pend := x.pend.filter fun c => !(c.1 ≤ base) }

/-- The credit set afresh before the first frame of a start. -/
def Shaper.freshen (x : Shaper) (base : Nat) : Shaper :=
  if x.fresh then { x with fresh := false, c := creditOf x.mode x.burst, tau := base, lastE := 0 } else x

/-- The launch time and charged size of the next frame, of `len` Ethernet bytes, in a unit of base `base`. -/
def Shaper.launch (x : Shaper) (base len : Nat) : Nat × Nat × Shaper :=
  let x := (x.due base).freshen base
  let k := len + x.ovh
  let t := max base x.lastE
  let rate := x.rate * 1000
  let c : Int := min ((x.burst * 65536 : Nat) : Int) (x.c + (rate * (t - x.tau) * 65536 / 8000000000 : Nat))
  let (t, c) : Nat × Int := if c < 0 then (t + cdiv ((-c).toNat * 8000000000) (max 1 rate * 65536), 0) else (t, c)
  (t, k, { x with lastE := t, tau := t, c := c - (k * 65536 : Nat) })

/-! ### Frames (R299) -/

/-- Bytes of a frame from destination address to FCS, with `n` payload bytes on a network. -/
def frameLen (v4 : Bool) (n : Nat) : Nat := max 64 (n + headBytes v4)

/-- The ones-complement sum of 16-bit words. -/
def sum16 : Bytes → Nat
  | [] => 0
  | [a] => a.toNat * 256
  | a :: b :: r => a.toNat * 256 + b.toNat + sum16 r

/-- The internet checksum field. -/
def inetSum (p : Bytes) : Nat := 65535 - (let s := sum16 p; if s = 0 then 0 else (s - 1) % 65535 + 1)

/-- The mapped Ethernet address of a multicast group (RFC 1112, RFC 2464). -/
def groupMac (a : Nat) : Nat := if isV4 a then 0x01005E000000 + a % 2 ^ 23 else 0x333300000000 + a % 2 ^ 32

/-- A group address. -/
def isGroup (a : Nat) : Bool := if isV4 a then decide (a / 2 ^ 28 % 16 = 14) else decide (a / 2 ^ 120 = 255)

/-- An IPv4 address as a register holds it, in network order. -/
def State.ip4 (s : State) (m : Nat) : Nat := s.rd Reg.NET_IP4_ADDR (m / 4) (m % 4)
/-- An IPv6 address out of its four words, most significant first. -/
def State.ip6 (s : State) (m : Nat) : Nat :=
  ((s.rd Reg.NET_IP6_WORD0 (m / 4) (m % 4) * 2 ^ 32 + s.rd Reg.NET_IP6_WORD1 (m / 4) (m % 4)) * 2 ^ 32 +
    s.rd Reg.NET_IP6_WORD2 (m / 4) (m % 4)) * 2 ^ 32 + s.rd Reg.NET_IP6_WORD3 (m / 4) (m % 4)
def State.macAddr (s : State) (m : Nat) : Nat := s.rd Reg.NET_MACADDR_ADDR (m / 4) (m % 4)

/-- The next hop of a unicast destination: itself on the link; off it the IPv4 gateway, or the advertised IPv6 router (R271). -/
def State.hop (s : State) (m a : Nat) : Nat :=
  let own := if isV4 a then s.ip4 m + 0xFFFF * 2 ^ 32 else s.ip6 m
  let plen := if isV4 a then 96 + s.rd Reg.NET_IPPFX_LEN4 (m / 4) (m % 4) else s.rd Reg.NET_IPPFX_LEN6 (m / 4) (m % 4)
  let onLink := decide (a / 2 ^ (128 - min 128 plen) = own / 2 ^ (128 - min 128 plen)) || (!isV4 a && decide (a / 2 ^ 118 = 0x3FA))
  if onLink then a else if isV4 a then s.rd Reg.NET_GW4_ADDR (m / 4) (m % 4) + 0xFFFF * 2 ^ 32 else tget 0 s.inp.router m

/-- The Ethernet address of a destination: the mapped group address, or what a MAC's neighbour table resolves (R299). -/
def State.dstMac (s : State) (m a : Nat) : Option Nat :=
  if isGroup a then some (groupMac a) else
  (s.inp.neigh.find? fun e => e.1 = m ∧ e.2.1 = s.hop m a).map (·.2.2)

/-- An Ethernet frame: header, data padded to 46 bytes, FCS. -/
def etherFrame (dst src typ : Nat) (body : Bytes) : Bytes :=
  let p := toBe 6 dst ++ toBe 6 src ++ toBe 2 typ ++ body ++ List.replicate (46 - body.length) 0
  p ++ toLe 4 (crc32 p)

/-- An ARP packet: operation, sender and target. -/
def arpBody (op sha spa tha tpa : Nat) : Bytes :=
  toBe 2 1 ++ toBe 2 0x0800 ++ [6, 4] ++ toBe 2 op ++ toBe 6 sha ++ toBe 4 spa ++ toBe 6 tha ++ toBe 4 tpa

/-- An ICMPv6 message in IPv6, its checksum filled in. -/
def icmp6 (src dst hops : Nat) (msg : Bytes) : Bytes :=
  let pseudo := toBe 16 src ++ toBe 16 dst ++ toBe 4 msg.length ++ toBe 4 58
  let ck := inetSum (pseudo ++ msg.take 2 ++ toBe 2 0 ++ msg.drop 4)
  toBe 4 0x60000000 ++ toBe 2 msg.length ++ [58] ++ toBe 1 hops ++ toBe 16 src ++ toBe 16 dst ++ msg.take 2 ++ toBe 2 ck ++ msg.drop 4

/-- The IPv6 link-local address of a MAC, by modified EUI-64 (R271). -/
def State.linkLocal (s : State) (m : Nat) : Nat :=
  let a := s.macAddr m
  0xFE80 * 2 ^ 112 + (((a / 2 ^ 24 * 2 ^ 16 + 0xFFFE) * 2 ^ 24 + a % 2 ^ 24) ^^^ 2 ^ 57)

/-- The firmware asks for an unresolved neighbour, by ARP or neighbour solicitation (R299; log entry 30). -/
def State.solicit (s : State) (m a : Nat) : State :=
  let s' := s.incWrap Reg.NET_TXFRAMES_COUNT 1 (m / 4) (m % 4)
  if isV4 a then s'.emit (.frame m s.ns (etherFrame 0xFFFFFFFFFFFF (s.macAddr m) 0x0806 (arpBody 1 (s.macAddr m) (s.ip4 m) 0 (a % 2 ^ 32))))
  else
    let dst := 0xFF02 * 2 ^ 112 + 0x1FF * 2 ^ 24 + a % 2 ^ 24
    s'.emit (.frame m s.ns (etherFrame (groupMac dst) (s.macAddr m) 0x86DD
      (icmp6 (s.linkLocal m) dst 255 ([135, 0, 0, 0, 0, 0, 0, 0] ++ toBe 16 a ++ [1, 1] ++ toBe 6 (s.macAddr m)))))

/-- A UDP datagram in IP. IPv4 has identification 0 and DF; IPv6 has flow label 0 (R299). -/
def ipUdp (src dst dscp ttl sport dport : Nat) (body : Bytes) : Bytes :=
  let ulen := 8 + body.length
  let uh (ck : Nat) := toBe 2 sport ++ toBe 2 dport ++ toBe 2 ulen ++ toBe 2 ck
  if isV4 dst then
    let pseudo := toBe 4 src ++ toBe 4 dst ++ toBe 2 17 ++ toBe 2 ulen
    let ck := inetSum (pseudo ++ uh 0 ++ body)
    let ih (c : Nat) := toBe 1 0x45 ++ toBe 1 (dscp * 4) ++ toBe 2 (20 + ulen) ++ toBe 2 0 ++ toBe 2 0x4000 ++ toBe 1 ttl ++
      toBe 1 17 ++ toBe 2 c ++ toBe 4 src ++ toBe 4 dst
    ih (inetSum (ih 0)) ++ uh (if ck = 0 then 65535 else ck) ++ body
  else
    let pseudo := toBe 16 src ++ toBe 16 dst ++ toBe 4 ulen ++ toBe 4 17
    let ck := inetSum (pseudo ++ uh 0 ++ body)
    toBe 4 (0x60000000 + dscp * 2 ^ 22) ++ toBe 2 ulen ++ toBe 1 17 ++ toBe 1 ttl ++ toBe 16 src ++ toBe 16 dst ++
      uh (if ck = 0 then 65535 else ck) ++ body

/-- The RTP header (R299). -/
def rtpHeader (pt seq ts ssrc : Nat) (marker : Bool) : Bytes :=
  toBe 1 0x80 ++ toBe 1 (pt % 128 + 128 * bit marker) ++ toBe 2 seq ++ toBe 4 ts ++ toBe 4 ssrc

/-- The RTP sequence number of a stream: counts continue from INIT_SEQ (R298). -/
def Prog.seqNo (p : Prog) (n : Nat) : Nat := (p.initSeq + n) % 65536

/-- The RTP header of a frame. -/
def Prog.rtpOf (p : Prog) (f : QFrame) : Bytes :=
  rtpHeader (if f.audio then p.audPt else p.pt) (p.seqNo f.seq) f.ts ((p.ssrc + bit f.audio) % 2 ^ 32) f.marker

/-- The whole frame as it leaves a MAC. -/
def State.wireFrame (s : State) (p : Prog) (net m dmac : Nat) (f : QFrame) (payload : Bytes) : Bytes :=
  let dst := p.dst net
  let v4 := isV4 dst
  let body := ipUdp (if v4 then s.ip4 m else s.ip6 m) dst p.dscp p.ttl p.sport (if f.audio then p.audPort else p.dport) (p.rtpOf f ++ payload)
  etherFrame dmac (s.macAddr m) (if v4 then 0x0800 else 0x86DD) body

/-! ### Windows (R311) -/

/-- A window: enabled, with its cycle, start and length in ns. -/
def State.winOf (s : State) (m w : Nat) : Bool × Nat × Nat × Nat :=
  (s.rd Reg.SHP_WINVIEW_ENABLE (16 * m + w) = 1, s.rd Reg.SHP_WINVIEW_CYCLE_NS (16 * m + w), s.rd Reg.SHP_WINVIEW_START_NS (16 * m + w),
    s.rd Reg.SHP_WINVIEW_LEN_NS (16 * m + w))

/-- The enabled windows of a MAC. -/
def State.windows (s : State) (m : Nat) : List (Nat × Nat × Nat) :=
  (List.range 16).filterMap fun w => let (e, r) := s.winOf m w; if e then some r else none

/-- Time into a window's cycle. -/
def winPhase (t : Nat) (w : Nat × Nat × Nat) : Nat := (t + w.1 - w.2.1 % w.1) % w.1

/-- Some enabled window is open at `t` and stays open for `need` ns. -/
def winFits (ws : List (Nat × Nat × Nat)) (t need : Nat) : Bool := ws.any fun w => decide (winPhase t w + need ≤ w.2.2)

/-- Some window that opened at `due` or later is open at `t`. -/
def winOpened (ws : List (Nat × Nat × Nat)) (due t : Nat) : Bool :=
  ws.any fun w => decide (winPhase t w < w.2.2) && decide (due + winPhase t w ≤ t)

/-- The frame is longer than every window. -/
def winOver (ws : List (Nat × Nat × Nat)) (need : Nat) : Bool := ws.all fun w => decide (w.2.2 < need)

/-- D_MAC of a MAC in ns (R309). -/
def State.dMac (s : State) (m : Nat) : Nat := s.rd Reg.SHP_MACSTAT_DMAC 0 m

/-! ### Release (R296, R299, R309, R311, R312, R199) -/

/-- A program drives a shaper: one of its networks, and the main stream or one it has. -/
def Prog.drives (p : Prog) (i : Nat) : Bool := p.netList.contains (i / 2 % 2) && p.streams.contains (i % 2)

/-- The shapers of a flow launched now show it. -/
def State.launchShow (s : State) (g : Nat) : State :=
  match s.prog g with
  | none => s
  | some p => s.forEach p.netList fun s net => s.forEach p.streams fun s x =>
      s.wr Reg.SHP_SHAPER_LAUNCHING (bit (s.launches net s.ns)) 0 (shaperOf g net x)

/-- The payload that stands in for an uncorrectable one (R199): seven null TS packets, or one filler-data NAL unit. -/
def nullTs : Bytes := toBe 4 0x471FFF10 ++ List.replicate 184 255
def filler (codec n : Nat) : Bytes :=
  (if codec = 0 then toBe 2 (38 * 512 + 1) else toBe 2 (23 * 8 + 1)) ++ List.replicate (n - 3) 255 ++ (if n < 3 then [] else [0x80])

def State.pkr (s : State) (g : Nat) : Pkr := tget {} s.pkrs g
def State.setPkr (s : State) (g : Nat) (v : Pkr) : State := { s with pkrs := tset {} s.pkrs g v }

/-- The lines of a payload are read: `bad` names what this read finds for the first time, each with its kind. Answers
whether some line is uncorrectable; each that is gets counted, recorded and reported (R197). -/
def State.readPayload (s : State) (lines : List Nat) (bad : List (Nat × Nat)) : Bool × State :=
  let new := bad.filter fun b => lines.any fun l => storeLine l = b.1 / 64 * 64
  let s := new.foldl (fun (s : State) b => s.lineDamage b.1 b.2) s
  (lines.any s.csBad, s.forEach lines fun s l => s.lineRead (storeLine l) 43)

/-- The first gather of a payload: 0 good, 1 replaced, 2 withheld (R199). -/
def State.gather (s : State) (g : Nat) (f : QFrame) (bad : List (Nat × Nat)) : Nat × State :=
  if f.audio then (0, s) else
  match (s.pkr g).decided.find? fun e => e.1 = f.seq with
  | some e => (e.2, s)
  | none =>
    let (uncorr, s) := s.readPayload f.lines bad
    let k := s.pkr g
    if !uncorr then (0, s.setPkr g { k with decided := k.decided ++ [(f.seq, 0)] }) else
    let withhold := s.role = 2 || (s.role = 1 && s.partnerGood)
    let s := s.setPkr g { k with decided := k.decided ++ [(f.seq, if withhold then 2 else 1)] }
    let s := (s.incSat Reg.PKT_REPLCNT_COUNT).incSat Reg.PKT_PROG_ERR_REPLACED 1 0 g
    let s := s.ev (evPkt 4)
    if s.role = 2 then (2, s.mute 4 (2 ^ g) f.base)
    else if withhold then (2, s) else (1, s.askSweep g false)

/-- A released frame's late mark, once per unit (R312). -/
def State.lateMark (s : State) (i m t : Nat) (f : QFrame) : State :=
  if t ≤ f.e + s.rd Reg.SHP_MACSTAT_LATETOL 0 m then s else
  let s := (s.incSat Reg.SHP_SHAPER_LATE 1 0 i).incSat Reg.SHP_MACSTAT_LATE 1 0 m
  let x := s.shp i
  if x.lateUnit = some (f.frame, f.row) then s
  else (s.setShp i { x with lateUnit := some (f.frame, f.row) }).ev (evPkt 0)

/-- The head of a shaper's queue is released or discarded; the packer counts the last number released (R298). -/
def State.released (s : State) (i t : Nat) (f : QFrame) : State :=
  let x := s.shp i
  let s := s.setShp i { x with queue := x.queue.drop 1, lastRel := t, lastSeq := some f.seq }
  let g := i / 4
  let left := [4 * g, 4 * g + 2].any fun j => (s.shp j).queue.any fun y => y.frame = f.frame && y.row = f.row
  let s := if f.audio || left then s else s.dropRecs g f.frame f.row
  let k := s.pkr g
  if f.audio then s.setPkr g { k with audRel := some (max f.seq (k.audRel.getD 0)) }
  else s.setPkr g { k with rel := some (max f.seq (k.rel.getD 0)) }

/-- A frame that a window holds, counted once (R311). -/
def State.winHold (s : State) (i m : Nat) (f : QFrame) : State :=
  if f.held then s else
  let x := s.shp i
  (s.setShp i { x with queue := { f with held := true } :: x.queue.drop 1 }).incSat Reg.SHP_MACSTAT_WINHOLD 1 0 m

/-- A frame whose unicast destination is unresolved is discarded: counted, reported once a second, asked for (R299). -/
def State.noAddr (s : State) (g m t : Nat) (p : Prog) (noIp : Bool) (net : Nat) : State :=
  let s := s.incSat Reg.PKT_PROG_ERR_NOADDR 1 0 g
  let k := s.pkr g
  if (match k.noAddrAt with | some a => decide (t < a + 1000000000) | none => false) then s else
  let s := (s.setPkr g { k with noAddrAt := some t }).ev (evPkt 5)
  if noIp ∨ !s.macUp m then s else s.solicit m (s.hop m (p.dst net))

/-- A frame past its window goes to the transmit arbiter, with its payload or what stands in for it (R199, R299, R309). -/
def State.sendFrame (s : State) (i m t : Nat) (p : Prog) (f : QFrame) (bad : List (Nat × Nat)) : State :=
  let g := i / 4
  let net := i / 2 % 2
  let noIp := if isV4 (p.dst net) then s.ip4 m = 0 else s.ip6 m = 0
  match (if noIp then none else s.dstMac m (p.dst net)) with
  | none => s.noAddr g m t p noIp net
  | some dm =>
    let (how, s) := s.gather g f bad
    if how = 2 then s else
    let pl := if how = 0 then f.payload
      else if p.mode = 0 then (List.replicate 7 nullTs).flatten else filler (s.chan g).coding.codec f.payload.length
    let s := s.cvuItem (576 + i) (p.rtpOf f ++ pl) none (some (p.seqNo f.seq))
    (s.txRelease m i f.k (s.wireFrame p net m dm f pl)).lateMark i m t f

/-- A frame is released from its shaper queue at internal time `t`, not before its launch time and in queue order
(R309). A window may hold it (R311): one longer than every window waits for the next opening and overruns it. A frame the
role does not launch is discarded and counted (R296), and so is one whose destination is unresolved (R299). `bad`: the
lines of its payload that this gather finds uncorrectable, each with its kind. -/
def execFrameLaunch (sh : Fin 256) (t : Nat) (bad : List (Nat × Nat)) (s : State) : Host.Outcome State Fault Refusal :=
  finish (
    let i := sh.val
    let g := i / 4
    match (s.shp i).queue, s.prog g with
    | f :: _, some p =>
      let t := max t s.ns
      if t < f.e ∨ s.chSt g = 6 ∨ !s.fclk then s else
      let due := max f.e (s.shp i).lastRel
      let s := (s.at t).txDue.checksDue
      let m := s.rd Reg.SHP_SHAPER_MAC 0 i
      if !s.launches (i / 2 % 2) f.base then
        ((s.cvuItem (576 + i) (p.rtpOf f ++ f.payload) none (some (p.seqNo f.seq))).released i t f).incWrap Reg.SHP_MACSTAT_SUPPRESS 1 0 m
      else
      let ws := s.windows m
      let need := s.dMac m + s.wireNs m f.k
      let ovr := ws ≠ [] && winOver ws need
      if ws ≠ [] ∧ !(winFits ws t need) ∧ !(ovr && winOpened ws due t) then s.winHold i m f
      else ((if ovr then (s.incSat Reg.SHP_MACSTAT_WINOVER 1 0 m).ev (evPkt 1) else s).released i t f).sendFrame i m t p f bad
    | _, _ => s)

/-- A flow whose MAC is down moves to another up MAC of its network (R295); the command comes at the flow's next unit base.
The launch times stay. -/
def execFlowMove (g : Fin 64) (net : Fin 2) (s : State) : Host.Outcome State Fault Refusal :=
  finish (
    match s.prog g with
    | none => s
    | some p =>
      if !p.nets.testBit net ∨ !s.admitted g then s else
      let i := shaperOf g net 0
      let old := s.rd Reg.SHP_SHAPER_MAC 0 i
      let m := s.pickMac 64 net
      if s.macUp old ∨ !s.macUp m then s else
      let s := s.forEach p.streams fun s x => s.wr Reg.SHP_SHAPER_MAC m 0 (shaperOf g net x)
      s.macCounts.ev (evPkt 2))

/-- A change of a shaper takes effect at its base (R308): what its registers show, and EV_SHP_RATE_APPLIED; an AUTO
change raises it only when the rate differs. -/
def execShaperChangeApply (sh : Fin 256) (s : State) : Host.Outcome State Fault Refusal :=
  finish (
    let i := sh.val
    let x := s.shp i
    match x.applied ++ x.pend with
    | [] => s
    | (b, r, bu, o, m, auto) :: _ =>
      if s.ns < b then s else
      let x := if x.applied = [] then x.due b else x
      let s := s.setShp i { x with applied := x.applied.drop 1 }
      let old := s.rd Reg.SHP_SHAPER_RATE 0 i
      let wasAuto := s.rd Reg.SHP_SHAPER_AUTO 0 i = 1
      let s := ((s.wr Reg.SHP_SHAPER_RATE r 0 i).wr Reg.SHP_SHPVIEW_BURST bu i).wr Reg.SHP_SHPVIEW_OVERHEAD o i
      let s := ((s.wr Reg.SHP_SHAPER_RESET_MODE m 0 i).wr Reg.SHP_SHAPER_AUTO (bit auto) 0 i).macCounts
      if auto && wasAuto && old = r then s else s.ev (evPkt 3))

end Sys2Proof.Machine
end

