-- ==== Sys2Proof/Machine/Packer.lean ====
section
/-! DEFINITION. The packer: transport-stream and direct-RTP packets, units, audio, sequence numbers (R297, R298, R300 to
R304, R378). -/

namespace Sys2Proof.Machine

/-- A byte with the store line it was read from. -/
abbrev TByte := Byte × Option Nat

def plain (p : Bytes) : List TByte := p.map fun b => (b, none)
def tagLines (l : List TByte) : List Nat := (l.filterMap (·.2)).eraseDups

/-! ### Transport stream (R300 to R302) -/

/-- A TS packet of up to 184 data bytes; adaptation-field stuffing fills it, with the PCR where there is one. -/
def tsPacket (pid cc : Nat) (pusi : Bool) (pcr : Option Nat) (data : List TByte) : List TByte :=
  let room := 184 - data.length
  let afc := if room = 0 then 1 else if data = [] then 2 else 3
  let clock := match pcr with
    | some t => toBe 6 ((t / 300 % 2 ^ 33) * 2 ^ 15 + 63 * 512 + t % 300)
    | none => []
  let af := if room = 0 then [] else if room = 1 then [0]
    else toBe 1 (room - 1) ++ toBe 1 (if pcr.isSome then 16 else 0) ++ clock ++ List.replicate (room - 2 - clock.length) 255
  plain (toBe 1 0x47 ++ toBe 2 (pid + 0x4000 * bit pusi) ++ toBe 1 (afc * 16 + cc % 16) ++ af) ++ data

/-- Cut data into TS packets, the last one stuffed. Answers the packets and the next counter. -/
def tsCut : Nat → Nat → Nat → Bool → Option Nat → List TByte → List (List TByte) × Nat
  | 0, _, cc, _, _, _ => ([], cc)
  | n + 1, pid, cc, pusi, pcr, data =>
    let k := if pcr.isSome then 176 else 184
    let (l, cc') := if data.length ≤ k then ([], cc + 1) else tsCut n pid (cc + 1) false none (data.drop k)
    (tsPacket pid cc pusi pcr (data.take k) :: l, cc')

def tsStream (pid cc : Nat) (pusi : Bool) (pcr : Option Nat) (data : List TByte) : List (List TByte) × Nat :=
  tsCut (data.length / 176 + 1) pid cc pusi pcr data

/-- CRC-32 of PSI sections. -/
def crcPsi (p : Bytes) : Nat := p.foldl (fun c b => crcMsbBits 32 0x04C11DB7 8 (c ^^^ (b.toNat * 2 ^ 24))) 0xFFFFFFFF

/-- A PSI section in one packet: pointer, section, CRC, fill. -/
def psiPacket (pid cc : Nat) (sec : Bytes) : List TByte :=
  let body := toBe 1 0 ++ sec ++ toBe 4 (crcPsi sec)
  tsPacket pid cc true none (plain (body ++ List.replicate (184 - body.length) 255))

/-- A section with its length field: table, bytes after the length. -/
def psiSection (table : Nat) (body : Bytes) : Bytes := toBe 1 table ++ toBe 2 (0xB000 + body.length + 4) ++ body

/-- Transport stream id and version number, which the spec does not give (log entry 2). -/
def tsId : Nat := Config.freeValue 0 % 65536
def psiVersion : Nat := Config.freeValue 1 % 32

/-- ST 302M streams of a program: index and pairs (R302). -/
def State.audStreams (s : State) (g : Nat) : List (Nat × Nat) :=
  [0, 1].filterMap fun i =>
    match ((List.range 4).filter fun k => (s.slotRoute g (4 * i + k)).isSome).getLast? with
    | some k => some (i, k + 1)
    | none => none

def patSection (p : Prog) : Bytes :=
  psiSection 0 (toBe 2 tsId ++ toBe 1 (0xC1 + 2 * psiVersion) ++ toBe 2 0 ++ toBe 2 p.progNum ++ toBe 2 (0xE000 + p.pmtPid))

/-- The PMT: the video stream, and each audio stream with registration descriptor 'BSSD'. -/
def pmtSection (p : Prog) (codec : Nat) (auds : List (Nat × Nat)) : Bytes :=
  psiSection 2 (toBe 2 p.progNum ++ toBe 1 (0xC1 + 2 * psiVersion) ++ toBe 2 0 ++ toBe 2 (0xE000 + p.vidPid) ++ toBe 2 0xF000 ++
    toBe 1 (if codec = 0 then 0x24 else 0x33) ++ toBe 2 (0xE000 + p.vidPid) ++ toBe 2 0xF000 ++
    auds.flatMap fun a => toBe 1 6 ++ toBe 2 (0xE000 + p.audPid + a.1) ++ toBe 2 0xF006 ++ toBe 6 0x050442535344)

/-- A PES header with PTS only, 14 bytes. -/
def pesHeader (sid len pts : Nat) : Bytes :=
  toBe 3 1 ++ toBe 1 sid ++ toBe 2 len ++ toBe 3 0x848005 ++
    toBe 1 (0x21 + pts / 2 ^ 30 % 8 * 2) ++ toBe 2 (pts / 2 ^ 15 % 2 ^ 15 * 2 + 1) ++ toBe 2 (pts % 2 ^ 15 * 2 + 1)

/-- The lowest `w` bits of a number in reverse order. -/
def revBits : Nat → Nat → Nat
  | 0, _ => 0
  | w + 1, v => v % 2 * 2 ^ w + revBits w (v / 2)

/-- Seven bytes of ST 302M for one pair: 24 reversed bits and V, U, C, F for each (log entry 20). -/
def pair302 (l r : Int) (f : Bool) : Bytes :=
  toBe 7 ((revBits 24 (toTwos 24 l) * 16 + bit f) * 2 ^ 28 + revBits 24 (toTwos 24 r) * 16)

/-- First 48 kHz count at or after a time. -/
def countAt (rate t : Nat) : Nat := cdiv (t * rate) 1000000000

/-- The first 48 kHz count of a picture and of the next (R302). -/
def State.picCounts (s : State) (n frame : Nat) : Nat × Nat :=
  (countAt 48000 (s.refNs n frame 0), countAt 48000 (s.refNs n (frame + 1) 0))

/-- The PES of an ST 302M stream for a picture: the AES3 header and the samples. -/
def State.audioPes (s : State) (n frame i pairs : Nat) : Bytes :=
  let c := s.chan n
  let (a, b) := s.picCounts n frame
  let a0 := (s.pkr n).aud0.getD a
  let body := (List.range (b - a)).flatMap fun j => (List.range pairs).flatMap fun k =>
    let x := s.slot48 n (4 * i + k) ((a + j : Nat) : Int)
    pair302 x.1 x.2 ((a + j - a0) % 192 = 0)
  let t := a * 1000000000 / 48000
  let pts := 90 * (t + periodNs c.rate + c.tRow + s.latNs n) / 1000000 % 2 ^ 33
  let hdr := toBe 2 body.length ++ toBe 2 (((pairs - 1) * 2 ^ 14) + 2 * 16)
  pesHeader 0xBD (8 + 4 + body.length) pts ++ hdr ++ body

/-- The bytes of a record, each with its line. -/
def Chan.tagRec (c : Chan) (r : RingRec) : List TByte := r.nal.zipIdx.map fun (b, i) => (b, some (c.ringAddr (r.off + 32 + i) / 64))

/-- Counters of a program, by 0 PAT, 1 PMT, 2 video, 3 and 4 audio. -/
def Prog.ccOf (p : Prog) (k : Nat) : Nat := tget 0 p.cc k

/-- The TS packets of a unit, and the counters after it. -/
def State.tsUnit (s : State) (n frame row : Nat) (p : Prog) : List (List TByte) × Prog :=
  let c := s.chan n
  let recs := c.recsOf frame row
  let lastRow := row + 1 = c.rows
  let auds := if lastRow then s.audStreams n else []
  if recs = [] ∧ auds = [] then ([], p) else
  let b := s.refNs n frame row + s.latNs n
  let t27 := b * 27 / 1000
  let psi := if row = 0 then
    [psiPacket 0 (p.ccOf 0) (patSection p), psiPacket p.pmtPid (p.ccOf 1) (pmtSection p c.coding.codec (s.audStreams n))] else []
  let p := if row = 0 then { p with cc := tset 0 (tset 0 p.cc 0 ((p.ccOf 0 + 1) % 16)) 1 ((p.ccOf 1 + 1) % 16) } else p
  let pts := 90 * (s.refNs n frame 0 + periodNs c.rate + c.tRow + s.latNs n) / 1000000 % 2 ^ 33
  let pre := (recs.filter (·.typ = 0)).flatMap c.tagRec
  let pics := recs.filter (·.typ ≠ 0)
  let (vid, cc, _) := pics.foldl (fun (acc : List (List TByte) × Nat × Bool) r =>
    let (l, cc, first) := acc
    let data := (if first && row = 0 then plain (pesHeader 0xE0 0 pts) ++ pre else []) ++ c.tagRec r
    let (x, cc) := tsStream p.vidPid cc (first && row = 0) (if first then some t27 else none) data
    (l ++ x, cc, false)) ([], p.ccOf 2, true)
  let vid := if pics = [] then [tsPacket p.vidPid (p.ccOf 2 + 15) false (some t27) []] else vid
  let p := { p with cc := tset 0 p.cc 2 (cc % 16) }
  let (aud, p) := auds.foldl (fun (acc : List (List TByte) × Prog) a =>
    let (l, p) := acc
    let (x, cc) := tsStream (p.audPid + a.1) (p.ccOf (3 + a.1)) true none (plain (s.audioPes n frame a.1 a.2))
    (l ++ x, { p with cc := tset 0 p.cc (3 + a.1) (cc % 16) })) ([], p)
  (psi ++ vid ++ aud, p)

/-- Datagrams of seven packets, the last completed with null packets. -/
def datagrams : Nat → List (List TByte) → List (List TByte)
  | 0, _ => []
  | n + 1, l => match l with
    | [] => []
    | l => ((l.take 7).flatten ++ (List.replicate (7 - l.length) (plain nullTs)).flatten) :: datagrams n (l.drop 7)

/-! ### Direct RTP (R303) -/

/-- The NAL units of a byte stream, without their start codes. -/
def nalSplit : Nat → List TByte → List TByte → List (List TByte)
  | 0, cur, _ => [cur]
  | n + 1, cur, l =>
    match l with
    | [] => [cur]
    | x :: r =>
      if (l.take 4).map (·.1) = [0, 0, 0, 1] then cur :: nalSplit n [] (l.drop 4) else nalSplit n (cur ++ [x]) r

def nalUnits (l : List TByte) : List (List TByte) := (nalSplit (l.length + 1) [] l).filter (· ≠ [])

/-- Fragments of NAL data, 1,397 bytes each. -/
def chunks (k : Nat) : Nat → List TByte → List (List TByte)
  | 0, _ => []
  | n + 1, l => if l = [] then [] else l.take k :: chunks k n (l.drop k)

/-- The RTP payloads of a NAL unit; `last` marks the last NAL unit of a picture. -/
def rtpPayloads (codec : Nat) (last : Bool) (nal : List TByte) : List (List TByte) :=
  if nal.length ≤ 1400 then [nal] else
  let h0 := ((nal.headD (0, none)).1).toNat
  let h1 := ((nal.drop 1).headD (0, none)).1.toNat
  let fs := chunks 1397 nal.length (nal.drop 2)
  fs.zipIdx.map fun (f, i) =>
    let st := bit (i = 0) * 128 + bit (i + 1 = fs.length) * 64
    let head := if codec = 0 then toBe 2 ((h0 / 128 * 128 + 49 * 2 + h0 % 2) * 256 + h1) ++ toBe 1 (st + h0 / 2 % 64)
      else toBe 2 (h0 * 256 + 29 * 8 + h1 % 8) ++ toBe 1 (st + 32 * bit (last && i + 1 = fs.length) + h1 / 8)
    plain head ++ f

/-- The payloads of a unit in direct-RTP mode. -/
def State.rtpUnit (s : State) (n frame row : Nat) : List (List TByte) :=
  let c := s.chan n
  let nals := (c.recsOf frame row).flatMap fun r => nalUnits (c.tagRec r)
  let blank := frame = c.startFrame
  nals.zipIdx.flatMap fun (x, i) => rtpPayloads c.coding.codec ((blank || row + 1 = c.rows) && i + 1 = nals.length) x

/-! ### Forming frames (R298, R378) -/

/-- Put formed frames on the shapers of the program's flows. -/
def State.enqueue (s : State) (g sidx : Nat) (p : Prog) (fs : List QFrame) : State :=
  s.forEach p.netList fun s net =>
    let i := shaperOf g net sidx
    let x := fs.foldl (fun x f =>
      let (e, k, x) := x.launch f.base (frameLen (isV4 (p.dst net)) f.payload.length)
      { x with queue := x.queue ++ [{ f with e, k }] }) (s.shp i)
    (s.setShp i x).wr Reg.SHP_SHPVIEW_CREDIT (toTwos 64 x.c) i

/-- The check of a unit (R378). -/
def unitCheck (p : Prog) (fs : List QFrame) : Nat := crc64 (fs.flatMap fun f => p.rtpOf f ++ f.payload)

/-- A RESYNC device takes the first sequence number from the partner's record (R384). -/
def State.takeSeq (s : State) (g stream row frame own : Nat) (p : Prog) : Nat × Option CheckRec :=
  if s.role ≠ 3 then (own, none) else
  match s.pair.theirs.find? fun c => c.ch = g && c.stream = stream && c.row = row && c.frame = frame with
  | some c => ((c.seq + 65536 - p.initSeq % 65536) % 65536 + own / 65536 * 65536, some c)
  | none => (own, none)

/-- Counters of a record's CC field. -/
def ccField (p : Prog) : Nat := p.ccOf 0 + 16 * p.ccOf 1 + 256 * p.ccOf 2 + 4096 * p.ccOf 3 + 65536 * p.ccOf 4
def ccOfField (v : Nat) : Tab Nat := (List.range 5).foldl (fun t k => tset 0 t k (v / 16 ^ k % 16)) []

/-- Counters before a unit so that they end as the partner's do. -/
def ccBack (start after theirs : Tab Nat) : Tab Nat :=
  (List.range 5).foldl (fun t k => tset 0 t k ((tget 0 theirs k + 16 + tget 0 start k - tget 0 after k) % 16)) []

/-- Frames formed are counted, and the unit's check goes out (R313, R378). -/
def State.unitFormed (s : State) (g stream row frame deadline : Nat) (p : Prog) (fs : List QFrame) : State :=
  let s := (s.incWrap Reg.PKT_UNITCNT_COUNT).incWrap Reg.PKT_PROG_FRAMES_COUNT fs.length g
  let s := s.enqueue g stream p fs
  let first := fs.headD { seq := 0, base := 0, e := 0, k := 0, ts := 0, marker := false, payload := [], lines := [], frame := 0, row := 0, audio := false }
  s.checkFormed { ch := g, stream, row, frames := fs.length % 65536, seq := p.seqNo first.seq, frame,
                  cc := if p.mode = 0 then ccField p else 0, check := unitCheck p fs } first.base deadline

/-- Form the main unit of a row slot. -/
def State.formMain (s : State) (g frame row : Nat) (p : Prog) : State :=
  let c := s.chan g
  let s := match (s.pkr g).aud0 with
    | some _ => s
    | none => s.setPkr g { s.pkr g with aud0 := some (s.picCounts g frame).1 }
  let b := s.refNs g frame row + s.latNs g
  let k := s.pkr g
  let (seq0, partner) := s.takeSeq g 0 row frame k.seq p
  let (pays, p) : List (List TByte) × Prog := if p.mode = 0 then
      let (l, p1) := s.tsUnit g frame row p
      let (l, p1) := match partner with
        | some t => s.tsUnit g frame row { p with cc := ccBack p.cc p1.cc (ccOfField t.cc) }
        | none => (l, p1)
      (datagrams (l.length + 1) l, p1)
    else (s.rtpUnit g frame row, p)
  if pays = [] then s else
  let ts := if p.mode = 0 then 90 * b / 1000000 % 2 ^ 32
    else
      let t := (c.gridBase + (frame - c.startFrame)) * (period c.rate).1 * 90000 / (period c.rate).2
      t % 2 ^ 32
  let lastUnit := p.mode = 1 && (frame = c.startFrame || row + 1 = c.rows)
  let fs : List QFrame := pays.zipIdx.map fun (x, i) =>
    { seq := seq0 + i, base := b, e := 0, k := 0, ts, marker := lastUnit && i + 1 = pays.length, payload := x.map (·.1),
      lines := tagLines x, frame, row, audio := false }
  let s := s.setPkr g { k with seq := seq0 + pays.length }
  let s := (s.setProg g (some p)).wr Reg.PKT_PROG_SEQ_NEXT (p.seqNo (seq0 + pays.length)) g
  s.unitFormed g 0 row frame (s.refNs g frame row + s.lMinOf g) p fs

/-- Form one audio packet of a direct-RTP program: its first count (R304). -/
def State.formAudio (s : State) (g : Nat) (p : Prog) (first : Nat) : State :=
  let r96 := s.audRate96 g
  let rate := if r96 then 96000 else 48000
  let n := s.audPkt g * (rate / 1000) / 1000000
  let pairs := s.audChans g / 2
  let body := (List.range n).flatMap fun j => (List.range pairs).flatMap fun k =>
    let x := if r96 then s.slotRaw g k ((first + j : Nat) : Int) else s.slot48 g k ((first + j : Nat) : Int)
    toBe 3 (toTwos 24 x.1) ++ toBe 3 (toTwos 24 x.2)
  let done := (first + n) * 1000000000 / rate
  let k := s.pkr g
  let (seq, _) := s.takeSeq g 1 65535 first k.audSeq p
  let f : QFrame := { seq, base := done + s.latNs g, e := 0, k := 0, ts := first % 2 ^ 32, marker := false, payload := body,
                      lines := [], frame := first, row := 65535, audio := true }
  let s := s.setPkr g { k with audSeq := seq + 1, audNext := some (first + n) }
  let s := s.wr Reg.PKT_PROG_SEQ_AUDNEXT (p.seqNo (seq + 1)) g
  s.unitFormed g 1 65535 first (done + 300000) p [f]

/-- The audio packets whose last period ends by `until`. -/
def audioFuel : Nat → Nat → Prog → Nat → State → State
  | 0, _, _, _, s => s
  | m + 1, g, p, t, s =>
    let rate := if s.audRate96 g then 96000 else 48000
    let n := s.audPkt g * (rate / 1000) / 1000000
    let first := (s.pkr g).audNext.getD 0
    if t < (first + n) * 1000000000 / rate then s else audioFuel m g p t (s.formAudio g p first)

/-- The audio stream of a direct-RTP program advances with each packed row slot (log entry 21). -/
def State.packAudio (s : State) (g frame row : Nat) (p : Prog) : State :=
  if p.mode = 0 ∨ s.slots g = [] then s else
  let c := s.chan g
  let rate := if s.audRate96 g then 96000 else 48000
  let n := s.audPkt g * (rate / 1000) / 1000000
  let t0 := s.refNs g frame row
  let s := match (s.pkr g).audNext with
    | some _ => s
    | none => s.setPkr g { s.pkr g with audNext := some (cdiv (countAt rate t0) n * n) }
  audioFuel 4000 g p (t0 + rowDelta c.raster c.rate c.coding.codec row) s

/-- A PACK task forms the units of a row slot; without a program the records are dropped (R297). -/
def State.packRow (s : State) (n frame row : Nat) : State :=
  let acc := s.routes
  let s := match s.prog n with
    | none => s.dropRecs n frame row
    | some p => { (((s.actView).formMain n frame row p).packAudio n frame row p) with routes := acc }
  let c := s.chan n
  let s := if (s.prog n).isNone ∧ row + 1 = c.rows ∧ s.role ≠ 0 then s.setRun n (c.matchRun + 1) else s
  if row + 1 = c.rows ∨ (frame = c.startFrame ∧ s.prog n = none) then s.setChan n { s.chan n with packed := some frame } else s

/-- Sequence numbers after a reset of a channel: one past the last frame released (R298). -/
def State.pkrReset (s : State) (g : Nat) : State :=
  let k := s.pkr g
  let seq := match k.rel with | some r => r + 1 | none => 0
  let aud := match k.audRel with | some r => r + 1 | none => 0
  let s := s.setPkr g { k with seq := seq, audSeq := aud, decided := k.decided.filter fun e => e.1 < seq, audNext := none }
  let s := s.forEach [4 * g, 4 * g + 1, 4 * g + 2, 4 * g + 3] fun s i => s.setShp i { s.shp i with queue := [], fresh := true }
  match s.prog g with
  | none => s
  | some p => (s.wr Reg.PKT_PROG_SEQ_NEXT (p.seqNo seq) g).wr Reg.PKT_PROG_SEQ_AUDNEXT (p.seqNo aud) g

/-- At a start each shaper sets its credit afresh, and an AUTO shaper takes R_min as it is (R306, R308). -/
def State.shapersStart (s : State) (g : Nat) : State :=
  let s := s.refreshRmin g
  let s := s.setPkr g { s.pkr g with aud0 := none, audNext := none }
  match s.prog g with
  | none => s
  | some p => (s.forEach p.netList fun s net => s.forEach p.streams fun s sx =>
      let i := shaperOf g net sx
      let rm := s.rd Reg.SHP_SHPVIEW_RMIN i
      let s := if s.rd Reg.SHP_SHAPER_AUTO 0 i = 1 then s.wr Reg.SHP_SHAPER_RATE rm 0 i else s
      s.setShp i { s.shp i with rate := s.rd Reg.SHP_SHAPER_RATE 0 i, burst := s.rd Reg.SHP_SHPVIEW_BURST i, ovh := s.rd Reg.SHP_SHPVIEW_OVERHEAD i, mode := s.rd Reg.SHP_SHAPER_RESET_MODE 0 i, fresh := true, pend := [], applied := [] }).launchShow g

/-- A change of a shaper's settings takes its base, or effect at once on a channel that does not run (R308). -/
def State.shaperChange (s : State) (g net sidx : Nat) (at? : Option Nat) (rate burst ovh mode : Nat) (auto : Bool) : State :=
  let i := shaperOf g net sidx
  match at? with
  | some b => s.setShp i { s.shp i with pend := (s.shp i).pend ++ [(b, rate, burst, ovh, mode, auto)] }
  | none =>
    let s := s.setShp i { s.shp i with rate, burst, ovh, mode, c := creditOf mode burst, tau := s.ns }
    let s := ((s.wr Reg.SHP_SHAPER_RATE rate 0 i).wr Reg.SHP_SHPVIEW_BURST burst i).wr Reg.SHP_SHPVIEW_OVERHEAD ovh i
    (((s.wr Reg.SHP_SHAPER_RESET_MODE mode 0 i).wr Reg.SHP_SHAPER_AUTO (bit auto) 0 i).macCounts).ev (evPkt 3)

/-- The AUTO shapers of a channel follow a changed R_min from a base on (R308). -/
def State.autoFollow (s : State) (g base : Nat) : State :=
  match s.prog g with
  | none => s
  | some p => s.forEach p.netList fun s net => s.forEach p.streams fun s sx =>
      let i := shaperOf g net sx
      let (r, o, auto) := s.shAcc g net sx
      let rm := s.rMin g net sx p o
      let s := s.wr Reg.SHP_SHPVIEW_RMIN rm i
      if !auto then s else
      let x := s.shp i
      let (bu, m) := match (x.applied ++ x.pend).getLast? with
        | some (_, _, bu, _, m, _) => (bu, m)
        | none => (s.rd Reg.SHP_SHPVIEW_BURST i, s.rd Reg.SHP_SHAPER_RESET_MODE 0 i)
      if r = rm then s else s.shaperChange g net sx (some base) rm bu o m true

end Sys2Proof.Machine
end

