-- ==== Sys2Proof/Machine/InCore.lean ====
section
/-! DEFINITION. Input flows: meters, the path merge, input rings, latches and concealment, audio and ancillary packets
(R275 to R289). -/

namespace Sys2Proof.Machine

/-! ### Grid of a flow (R44, R276) -/

def FlowFmt.periodNs (m : FlowFmt) : Nat := Machine.periodNs m.rate
/-- Reference time of a line of grid frame `gf`. -/
def FlowFmt.lineNs (m : FlowFmt) (gf line : Nat) : Nat := m.phase + gridNs m.raster m.rate (gf * totalLines m.raster + line)
/-- The grid frame whose reference time is the last one not after `t`. -/
def FlowFmt.frameAt (m : FlowFmt) (t : Nat) : Nat := (t - m.phase) * (period m.rate).2 / ((period m.rate).1 * 1000000000)
/-- The aligned time of a grid frame in the 90 kHz clock modulo 2^32. -/
def FlowFmt.stamp (m : FlowFmt) (gf : Nat) : Nat := gf * (period m.rate).1 * 90000 / (period m.rate).2 % 2 ^ 32

/-- Pixels and bytes of a pgroup. -/
def pgroup (infmt : Nat) : Nat × Nat := if infmt = 0 then (2, 5) else if infmt = 1 then (2, 6) else (4, 15)

/-! ### Events of a flow (R293) -/

/-- The frame period of a flow; 10 ms for audio and ancillary flows. -/
def InFlow.framePeriod (x : InFlow) : Nat := match x.fmt with | some m => m.periodNs | none => 10000000

/-- Raise an INP event of a flow. -/
def State.inpEv (s : State) (k f : Nat) : State := ((s.wr Reg.INP_LASTEV_FLOW f).wr Reg.INP_LASTEV_K k).ev (evInp k) 255 f

/-- Raise a "per frame" event of a flow. -/
def State.inpEvFrame (s : State) (k f : Nat) : State :=
  match s.flowIn f with
  | none => s
  | some x =>
    let last := tget 0 x.lastEv k
    if last ≠ 0 ∧ s.ns < last + x.framePeriod then s
    else (s.setFlowIn f (some { x with lastEv := tset 0 x.lastEv k s.ns })).inpEv k f

/-! ### Meters (R278 to R280) -/

def State.meter (s : State) (k : Nat) : Meter := tget {} s.inp.meters k
def State.setMeter (s : State) (k : Nat) (v : Meter) : State := { s with inp := { s.inp with meters := tset {} s.inp.meters k v } }

/-- Colour a packet of `b` bytes: 0 green, 1 yellow, 2 red. Buckets are kept in 2^-16 byte. -/
def State.colour (s : State) (k net b : Nat) : Nat × State :=
  if 512 ≤ k then (0, s) else
  let x := s.meter k
  let i := 512 * net + k
  let note (s : State) (r p : Row) : State := (s.incWrap r 1 i).incWrap p b i
  if !x.set then (0, note s Reg.INP_GREEN_PKTS Reg.INP_GREEN_BYTES) else
  let dt := s.ns - tget 0 x.last net
  let tc := min (x.cbs * 65536) (tget 0 x.tc net + x.cir * 1000 * dt * 65536 / 8000000000)
  let tp := min (x.pbs * 65536) (tget 0 x.tp net + x.pir * 1000 * dt * 65536 / 8000000000)
  let b' := b * 65536
  let put (tc tp : Nat) (x : Meter) : Meter := { x with tc := tset 0 x.tc net tc, tp := tset 0 x.tp net tp, last := tset 0 x.last net s.ns }
  if tp < b' then
    let due := match x.red with | some t => decide (t + 1000000000 ≤ s.ns) | none => true
    let s := s.setMeter k (put tc tp (if due then { x with red := some s.ns } else x))
    (2, note s Reg.INP_RED_PKTS Reg.INP_RED_BYTES)
  else if tc < b' then (1, note (s.setMeter k (put tc (tp - b') x)) Reg.INP_YELLOW_PKTS Reg.INP_YELLOW_BYTES)
  else (0, note (s.setMeter k (put (tc - b') (tp - b') x)) Reg.INP_GREEN_PKTS Reg.INP_GREEN_BYTES)

/-! ### Path merge (R281 to R283) -/

/-- Sequence numbers the window holds. -/
def mergeLen : Nat := 16384

/-- A sequence leaves the window (R283). -/
def State.seqLeaves (s : State) (f q : Nat) : State :=
  match s.flowIn f with
  | none => s
  | some x =>
    let e := tget ({} : SeqSt) x.win q
    let s := s.setFlowIn f (some { x with win := tdel x.win q, due := tdel x.due q })
    if e.a && e.b then s
    else if e.a then (if x.nets = 3 then s.incSat Reg.INP_MISS_B_COUNT 1 f else s)
    else if e.b then (if x.nets = 3 then s.incSat Reg.INP_MISS_A_COUNT 1 f else s)
    else if e.rep then (s.incSat Reg.INP_REPAIRED_COUNT 1 f).inpEvFrame 9 f
    else (s.incSat Reg.INP_LOST_COUNT 1 f).inpEvFrame 0 f

/-- Move the top of the window to `q`: what leaves is counted, what was skipped waits for MERGE_WIN. -/
def State.winMove (s : State) (f q : Nat) : State :=
  match s.flowIn f with
  | none => s
  | some x =>
    match x.hi with
    | none => s.setFlowIn f (some { x with hi := some q, first := q })
    | some h =>
      let oldB := max x.first (h + 1 - mergeLen)
      let newB := max x.first (q + 1 - mergeLen)
      let gone := min (newB - oldB) (h + 1 - oldB)
      let s := s.forEach ((List.range gone).map (· + oldB)) fun s m => s.seqLeaves f m
      let never := newB - (max oldB (h + 1))
      let s := if never = 0 then s else (s.incSat Reg.INP_LOST_COUNT never f).inpEvFrame 0 f
      match s.flowIn f with
      | none => s
      | some x =>
        let lo := max (h + 1) newB
        let due := (List.range (q - lo)).foldl (fun t i => tset 0 t (lo + i) (s.ns + s.rd Reg.INP_MERGECTL_WIN_US * 1000)) x.due
        s.setFlowIn f (some { x with hi := some q, due := due })

/-- A packet from before the first one that came, still inside the window: what lies between is missing (log entry 43). -/
def State.winBack (s : State) (f q : Nat) : State :=
  match s.flowIn f with
  | none => s
  | some x =>
    let due := (List.range (x.first - (q + 1))).foldl (fun t i => tset 0 t (q + 1 + i) (s.ns + s.rd Reg.INP_MERGECTL_WIN_US * 1000)) x.due
    s.setFlowIn f (some { x with first := q, due })

/-- What the merge says of a packet: accepted, or discarded. -/
def State.merge (s : State) (f net q : Nat) : Bool × State :=
  match s.flowIn f with
  | none => (false, s)
  | some x =>
    let base := match x.hi with | some h => h + 1 - mergeLen | none => 0
    if q < base then (false, (s.incSat Reg.INP_LATE_COUNT 1 f).inpEvFrame 4 f) else
    let e := tget ({} : SeqSt) x.win q
    let got := e.a || e.b || e.rep
    let mark (e : SeqSt) : SeqSt := if net = 0 then { e with a := true } else { e with b := true }
    if got then
      let s := s.setFlowIn f (some { x with win := tset {} x.win q (mark e) })
      (false, s.incSat Reg.INP_DUP_COUNT 1 f)
    else
      let s := if (match x.hi with | some h => decide (h < q) | none => true) then s.winMove f q else if q < x.first then s.winBack f q else s
      match s.flowIn f with
      | none => (false, s)
      | some x =>
        let e := tget ({} : SeqSt) x.win q
        let s := s.setFlowIn f (some { x with win := tset {} x.win q (mark e), due := tdel x.due q })
        let s := s.incWrap (if net = 0 then Reg.INP_PKT_A_COUNT else Reg.INP_PKT_B_COUNT) 1 f
        (true, if e.decl then s.incSat Reg.INP_LATEOK_COUNT 1 f else s)

/-- A packet came on a path: the path is up (R283). -/
def State.pathSeen (s : State) (f net : Nat) : State :=
  match s.flowIn f with
  | none => s
  | some x =>
    let s := s.setFlowIn f (some { x with pathAt := tset 0 x.pathAt net s.ns })
    let r := if net = 0 then Reg.INP_FLOWVIEW_UP_A else Reg.INP_FLOWVIEW_UP_B
    if s.rd r f = 1 then s else (s.wr r 1 f).inpEv 3 f

/-! ### Rings (R284, R285) -/

/-- The store lines of a ring slot that is written anew carry good checks from then on (R27). -/
def inFresh (x : InFlow) (slot : Nat) (m : Mem) : Mem :=
  { m with csFlip := ((List.range (x.bytes / 64)).map fun i => x.addr slot (64 * i) / 64).foldl (fun t l => tset [] t l []) m.csFlip }

/-- A pgroup-aligned pixel is written in a line. -/
def RLine.has (l : RLine) (px : Nat) : Bool := l.px.any fun e => decide (e.1 ≤ px ∧ px < e.1 + e.2)

/-- What a ring slot holds of a line of grid frame `gf`; a slot that holds another line begins it anew. -/
def InFlow.openLine (x : InFlow) (gf line : Nat) (m : Mem) : RLine × Mem :=
  let slot := line % max 1 x.lines
  let new : RLine := { frame := gf, line, px := [], latched := false }
  match tget none x.ring slot with
  | some l => if l.frame = gf ∧ l.line = line then (l, m) else (new, inFresh x slot m)
  | none => (new, inFresh x slot m)

/-- A line of grid frame `gf` is latched. -/
def InFlow.latched (x : InFlow) (gf line : Nat) : Bool :=
  match x.latNext with
  | some (f, l) => decide (gf < f) || (decide (gf = f) && decide (line < l))
  | none => false

/-- The row data headers of a video payload: length, field bit, line, offset; at most `n` of them. -/
def srdHeaders : Nat → Bytes → List (Nat × Bool × Nat × Nat) × Bool
  | 0, _ => ([], true)
  | n + 1, p =>
    let l := nfld p 0 2
    let ln := nfld p 2 2
    let off := nfld p 4 2
    let h := (l, decide (2 ^ 15 ≤ ln), ln % 2 ^ 15, off % 2 ^ 15)
    if 2 ^ 15 ≤ off then (let (r, bad) := srdHeaders n (p.drop 6); (h :: r, bad)) else ([h], false)

/-- A packet of a flow breaks its format (R276). -/
def State.fmtErr (s : State) (f : Nat) : State := (s.incSat Reg.INP_ERR_FMTERR 1 f).inpEvFrame 7 f

/-- The latch time of the group that holds a line. -/
def InFlow.latchNs (x : InFlow) (m : FlowFmt) (gf line : Nat) : Nat :=
  let h := max 1 x.hmin
  m.lineNs gf (line / h * h) + h * (period m.rate).1 * 1000000000 / ((period m.rate).2 * totalLines m.raster)

/-- Keep the smallest margin, signed (R286). -/
def State.margin (s : State) (f : Nat) (v : Int) : State :=
  if v < ofTwos 32 (s.rd Reg.INP_MINMARGIN_NS f) then s.wr Reg.INP_MINMARGIN_NS (toTwos 32 v) f else s

/-- The packets kept for repair requests of the partner (R380): the newest 2,048 of a flow. -/
def InFlow.keep (x : InFlow) (q : Nat) (hdr pl : Bytes) : InFlow := { x with answer := (x.answer ++ [(q, hdr, pl)]).reverse.take 2048 |>.reverse }

/-- Write the rows of an accepted video packet (R285); late and early ones are discarded and counted. -/
def State.videoWrite (s : State) (f gf : Nat) (m : FlowFmt) (hs : List (Nat × Bool × Nat × Nat)) (data : Bytes) : State :=
  match s.flowIn f with
  | none => s
  | some x =>
    if x.lines = 0 then s else
    let (ppx, pby) := pgroup m.infmt
    if hs.any fun h => x.latched gf h.2.2.1 then (s.incSat Reg.INP_LATE_COUNT 1 f).inpEvFrame 4 f
    else if hs.any fun h => (match tget none x.ring (h.2.2.1 % x.lines) with
        | some l => !l.latched && !(l.frame = gf && l.line = h.2.2.1)
        | none => false) then (s.incSat Reg.INP_EARLY_COUNT 1 f).inpEvFrame 5 f
    else
      let (x, mem, _) := hs.foldl (fun (acc : InFlow × Mem × Bytes) h =>
        let (x, mem, d) := acc
        let line := h.2.2.1
        let slot := line % x.lines
        let px := h.1 / pby * ppx
        let (old, mem) := x.openLine gf line mem
        let mem := inStore x slot (h.2.2.2 / ppx * pby) (d.take h.1) mem
        ({ x with ring := tset none x.ring slot (some { old with px := old.px ++ [(h.2.2.2, px)] }) }, mem, d.drop h.1)) (x, s.mem, data)
      let s := { (s.setFlowIn f (some x)) with mem := mem }
      hs.foldl (fun s h => s.margin f ((x.latchNs m gf h.2.2.1 : Int) - s.ns)) s

/-- A matched video packet's RTP payload after the extended sequence number: checks of R276 and the write. A flow that nobody reads has no format: its packets are
merged, and written nowhere. The current frame is the one whose reference time came last (DESIGN CHOICE: log entry 108). -/
def State.videoIn (s : State) (f net q ts : Nat) (hdr p : Bytes) (repair : Bool) : State :=
  match s.flowIn f with
  | none => s
  | some x =>
    match x.fmt with
    | none => if repair then s else (s.merge f net q).2
    | some m =>
      let (ppx, pby) := pgroup m.infmt
      let (hs, more) := srdHeaders 3 (p.drop 2)
      let data := p.drop (2 + 6 * hs.length)
      let bad := more || hs.any (fun h => h.2.1 || h.1 % pby ≠ 0 || h.1 = 0 || h.2.2.2 % ppx ≠ 0 || height m.raster ≤ h.2.2.1 ||
        width m.raster < h.2.2.2 + h.1 / pby * ppx) || data.length < (hs.map (·.1)).sum
      if bad then s.fmtErr f else
      let g0 := m.frameAt s.ns
      match [g0, g0 + 1, g0 + 2].find? fun g => m.stamp g = ts with
      | none => (s.incSat Reg.INP_ERR_TSERR 1 f).inpEvFrame 6 f
      | some gf =>
        let (ok, s) := if repair then (true, s) else s.merge f net q
        if !ok then s else
        let s := s.cvuItem f p none (some (q % 2 ^ 32))
        let s := match s.flowIn f with | some x => s.setFlowIn f (some (x.keep q hdr p)) | none => s
        s.videoWrite f gf m hs data

/-! ### Latch and concealment (R286, R287) -/

/-- The black pgroup of a format. -/
def blackGroup (infmt : Nat) : Bytes :=
  if infmt = 0 then toBe 5 (((512 * 1024 + 64) * 1024 + 512) * 1024 + 64)
  else if infmt = 1 then toBe 6 (((2048 * 4096 + 256) * 4096 + 2048) * 4096 + 256) else List.replicate 15 0

/-- Conceal the pgroups of a line that are not written; answers the memory and whether any was. -/
def concealLine (x : InFlow) (m : FlowFmt) (gf line : Nat) (mem : Mem) : Mem × Bool :=
  let (ppx, pby) := pgroup m.infmt
  let slot := line % max 1 x.lines
  let (cur, mem) := x.openLine gf line mem
  let up := (line - 1) % max 1 x.lines
  let above := line ≠ 0 && (match tget none x.ring up with | some l => l.frame = gf && l.line = line - 1 | none => false)
  (List.range (width m.raster / ppx)).foldl (fun (acc : Mem × Bool) g =>
    if cur.has (g * ppx) then acc else
    let src := if above then (List.range pby).map fun i => csRead acc.1 (x.addr up (g * pby + i)) else blackGroup m.infmt
    (inStore x slot (g * pby) src acc.1, true)) (mem, false)

/-- Latch the lines of a group from `line` to `last`, top down. -/
def latchLines : Nat → Nat → FlowFmt → Nat → Nat → State → Nat × State
  | 0, _, _, _, _, s => (0, s)
  | n + 1, f, m, gf, line, s =>
    match s.flowIn f with
    | none => (0, s)
    | some x =>
      let slot := line % max 1 x.lines
      let taken := match tget none x.ring slot with | some l => !l.latched && !(l.frame = gf && l.line = line) | none => false
      let (mem, any) := if taken then (s.mem, true) else concealLine x m gf line s.mem
      let x := if taken then x else { x with ring := tset none x.ring slot (some { frame := gf, line := line, px := [(0, width m.raster)], latched := true }) }
      let (k, s) := latchLines n f m gf (line + 1) { (s.setFlowIn f (some x)) with mem := mem }
      (k + bit any, s)

/-- The group that latches next: as counted, or the one whose boundary is the last not after now. -/
def State.nextGroup (s : State) (x : InFlow) (m : FlowFmt) : Nat × Nat :=
  match x.latNext with
  | some g => g
  | none =>
    let h := max 1 x.hmin
    let gf := m.frameAt s.ns
    let groups := cdiv (height m.raster) h
    match ((List.range groups).filter fun k => decide (x.latchNs m gf (k * h) ≤ s.ns)).getLast? with
    | some k => (gf, k * h)
    | none => (gf - 1, (groups - 1) * h)

/-- The group of a flow that is due is latched: missing pixels are concealed and counted. -/
def execGroupLatch (f : Fin 384) (s : State) : Host.Outcome State Fault Refusal :=
  finish (
    match s.flowIn f with
    | none => s
    | some x =>
      match x.fmt with
      | none => s
      | some m =>
        if x.lines = 0 then s else
        let (gf, line) := s.nextGroup x m
        if s.ns < x.latchNs m gf line then s else
        let h := max 1 x.hmin
        let n := min h (height m.raster - line)
        let (k, s) := latchLines n f m gf line (s.setFlowIn f (some { x with latNext := some (gf, line) }))
        let nxt := if height m.raster ≤ line + h then (gf + 1, 0) else (gf, line + h)
        let s := match s.flowIn f with | some x => s.setFlowIn f (some { x with latNext := some nxt }) | none => s
        let s := if nxt.2 = 0 ∧ !s.cvuMs f then s.cvuEnd f else s
        if k = 0 then s else (s.incSat Reg.INP_CONCEAL_LINES k f).inpEvFrame 1 f)

/-- Internal addresses of the store lines that hold ring line `line`. -/
def InFlow.lineAddrs (x : InFlow) (line : Nat) : List Nat :=
  (List.range (x.bytes / 64)).map fun i => Config.csBase + x.addr (line % max 1 x.lines) (64 * i) / 64 * 64

/-- A pgroup of a latched ring line; nothing where a store line that it touches is uncorrectable. -/
def State.ringRead (s : State) (x : InFlow) (m : FlowFmt) (gf g line : Nat) : Option Bytes :=
  let pby := (pgroup m.infmt).2
  let slot := line % max 1 x.lines
  let here := match tget none x.ring slot with | some l => l.frame = gf && l.line = line && l.latched | none => false
  if !here then some (blackGroup m.infmt)
  else if (List.range pby).any fun i => s.badLine (Config.csBase + x.addr slot (g * pby + i)) then none
  else some ((List.range pby).map fun i => csRead s.mem (x.addr slot (g * pby + i)))

/-- A pgroup as composition reads it: an unreadable one takes the value of the line above as read, or black at the first line of a frame (R289). -/
def State.ringGroup (s : State) (x : InFlow) (m : FlowFmt) (gf g : Nat) : Nat → Bytes
  | 0 => (s.ringRead x m gf g 0).getD (blackGroup m.infmt)
  | k + 1 => (s.ringRead x m gf g (k + 1)).getD (s.ringGroup x m gf g k)

/-- Components of a pixel of a ring line, at the depth received: (Y or R, Cb or G, Cr or B). -/
def State.ringPx (s : State) (x : InFlow) (m : FlowFmt) (gf line px : Nat) : Nat × Nat × Nat :=
  let v := beNat (s.ringGroup x m gf (px / (pgroup m.infmt).1) line)
  let w := if m.infmt = 1 then 12 else 10
  if m.infmt = 2 then
    let k := 3 - px % 4
    (v >>> (k * 30 + 20) % 1024, v >>> (k * 30 + 10) % 1024, v >>> (k * 30) % 1024)
  else
    let y := if px % 2 = 0 then v >>> (2 * w) else v
    (y % 2 ^ w, v >>> (3 * w) % 2 ^ w, v >>> w % 2 ^ w)

/-! ### Audio and ancillary packets (R275, R288) -/

/-- The media-clock count nearest the present that agrees with a 32-bit timestamp. -/
def stampNear (rate now ts : Nat) : Nat :=
  let n := now * rate / 1000000000
  let b := n / 2 ^ 32 * 2 ^ 32 + ts
  if n + 2 ^ 31 < b then b - 2 ^ 32 else if b + 2 ^ 31 ≤ n then b + 2 ^ 32 else b

/-- A sequence number extended beyond its `n` values by the wraps counted: the one nearest the highest so far (R275). The first stands at 2^32 and up, so that numbers
before it exist. -/
def seqExtend (n : Nat) (hi : Option Nat) (q : Nat) : Nat :=
  match hi with
  | none => 2 ^ 32 + q
  | some h =>
    let b := h / n * n + q
    if h + n / 2 < b then b - n else if b + n / 2 ≤ h then b + n else b

/-- The sequence that a 32-bit extended number names. -/
def InFlow.seqAt (x : InFlow) (ext : Nat) : Nat := seqExtend (2 ^ 32) x.hi (ext % 2 ^ 32)

/-- Store the samples of an audio packet: `w` bytes a sample, `ch` channels, `rate` (log entry 16). -/
def State.audioIn (s : State) (f net q ts w ch rate : Nat) (hdr p : Bytes) (repair : Bool) : State :=
  match s.flowIn f with
  | none => s
  | some x =>
    let n := p.length / max 1 (w * ch)
    let ok := (w = 2 ∨ w = 3) ∧ 1 ≤ ch ∧ ch ≤ 8 ∧ (rate = 48000 ∨ rate = 96000) ∧ p.length = n * w * ch ∧ (n = rate / 1000 ∨ n = rate / 8000)
    if !ok then s.fmtErr f else
    let (acc, s) := if repair then (true, s) else s.merge f net q
    if !acc then s else
    let s := s.cvuItem f p none (some (q % 2 ^ 32))
    match s.flowIn f with
    | none => s
    | some x' =>
      let first := stampNear rate s.ns ts
      let samp (j c : Nat) : Int := let v := ofTwos (8 * w) (nfld p ((j * ch + c) * w) w); if w = 2 then v * 256 else v
      let aud := (List.range n).foldl (fun t j => tset [] t (first + j) ((List.range ch).map fun c => samp j c)) x'.aud
      let hi := max x.audHi (first + n)
      s.setFlowIn f (some { (x'.keep q hdr p) with audRate := rate, audHi := hi, aud := aud.filter fun e => decide (hi ≤ e.1 + 4096) })

/-- A 10-bit word at bit `o` of a payload. -/
def word10 (p : Bytes) (o : Nat) : Nat := nfld p (o / 8) 3 >>> (14 - o % 8) % 1024

/-- The ANC packets of an RFC 8331 payload from byte `o`: DID, SDID and user data words. -/
def ancPackets : Nat → Nat → Bytes → List (Nat × Nat × List Nat)
  | 0, _, _ => []
  | n + 1, o, p =>
    let b := 8 * o + 32
    let dc := word10 p (b + 20) % 256
    let udw := (List.range dc).map fun i => word10 p (b + 30 + 10 * i) % 256
    let bits := 32 + 30 + 10 * dc + 10
    (word10 p b % 256, word10 p (b + 10) % 256, udw) :: ancPackets n (o + cdiv bits 32 * 4) p

/-- Store the caption packets of an ancillary packet; others are counted. -/
def State.ancIn (s : State) (f net q ts : Nat) (hdr p : Bytes) (repair : Bool) : State :=
  match s.flowIn f with
  | none => s
  | some _ =>
    if p.length < 8 then s.fmtErr f else
    let (acc, s) := if repair then (true, s) else s.merge f net q
    if !acc then s else
    let s := s.cvuItem f p none (some (q % 2 ^ 32))
    let l := ancPackets (nfld p 4 1) 8 p
    let caps := l.filter fun a => a.1 = 0x61 ∧ a.2.1 = 1
    let s := s.incSat Reg.INP_OTHERANC_COUNT (l.length - caps.length) f
    match s.flowIn f with
    | none => s
    | some x => s.setFlowIn f (some { (x.keep q hdr p) with caps := (x.caps ++ caps.map fun c => (ts, c.2.2)).reverse.take 64 |>.reverse })

/-- An RTP packet of a flow copy, after metering: version 2, no CSRC, no padding; a header extension is skipped. -/
def State.rtpIn (s : State) (f net : Nat) (rtp : Bytes) (w ch rate : Nat) : State :=
  match s.flowIn f with
  | none => s
  | some x =>
    let b0 := nfld rtp 0 1
    if b0 / 64 ≠ 2 ∨ b0 / 32 % 2 = 1 ∨ b0 % 16 ≠ 0 ∨ rtp.length < 12 then s.fmtErr f else
    let o := if b0 / 16 % 2 = 1 then 16 + 4 * nfld rtp 14 2 else 12
    let p := rtp.drop o
    let hdr := rtp.take 12
    let seq := nfld rtp 2 2
    let ts := nfld rtp 4 4
    let s := s.pathSeen f net
    if x.kind = 0 then s.videoIn f net (x.seqAt (nfld p 0 2 * 65536 + seq)) ts hdr p false
    else if x.kind = 1 then s.audioIn f net (seqExtend 65536 x.hi seq) ts w ch rate hdr p false
    else s.ancIn f net (seqExtend 65536 x.hi seq) ts hdr p false

/-! ### Time-driven effects of the merge -/

/-- A missing sequence is declared lost MERGE_WIN after a higher one arrived; a paired device asks its partner (R282). -/
def execLossDeclare (f : Fin 384) (ext : Nat) (s : State) : Host.Outcome State Fault Refusal :=
  finish (
    match s.flowIn f with
    | none => s
    | some x =>
      let q := x.seqAt ext
      let e := tget ({} : SeqSt) x.win q
      let due := tget 0 x.due q
      if due = 0 ∨ s.ns < due ∨ e.a ∨ e.b ∨ e.rep ∨ e.decl then s else
      let s := s.setFlowIn f (some { x with win := tset {} x.win q { e with decl := true }, due := tdel x.due q })
      if s.role = 0 ∨ s.rd Reg.PAIR_PAIRSTAT_LINKUP = 0 then s else
      let s := (s.linkSend 2 (.repairReq f (q % 2 ^ 32))).incSat Reg.PAIR_REPAIRREQ_COUNT
      s.setPair { s.pair with repairs := s.pair.repairs ++ [(f.val, q, s.ns)] })

/-- A path has delivered nothing for two frame periods, or 10 ms for audio and ancillary flows (R283). -/
def execFlowPathDown (f : Fin 384) (net : Fin 2) (s : State) : Host.Outcome State Fault Refusal :=
  finish (
    match s.flowIn f with
    | none => s
    | some x =>
      let r := if net = 0 then Reg.INP_FLOWVIEW_UP_A else Reg.INP_FLOWVIEW_UP_B
      let limit := match x.fmt with | some m => 2 * m.periodNs | none => 10000000
      if s.rd r f = 1 ∧ tget 0 x.pathAt net + limit ≤ s.ns then (s.wr r 0 f).inpEv 2 f else s)

end Sys2Proof.Machine
end

