-- ==== Sys2Proof/Machine/Picture.lean ====
section
/-! DEFINITION. Pictures as samples: packed sample strings, padding at the picture edges, the units of a stored reconstruction and
their check (R41, R86, R103). -/

namespace Sys2Proof.Machine

/-! ### Packed samples -/

/-- Samples of `w` bits in a row, the first in the low bits. -/
def packNat (w : Nat) : List Nat → Nat
  | [] => 0
  | v :: r => v % 2 ^ w + 2 ^ w * packNat w r

/-- Samples of `w` bits as bytes. That samples lie packed, the first in the low bits, is a DESIGN CHOICE (log entry 85): the spec gives
the bits per sample and not their order. -/
def packSamples (w : Nat) (l : List Nat) : Bytes := toLe (cdiv (w * l.length) 8) (packNat w l)

/-- Sample `i` of a packed string of samples of at most 10 bits, read byte by byte. -/
def unpackAt (w : Nat) (rd : Nat → Byte) (i : Nat) : Nat :=
  ((rd (w * i / 8)).toNat + 256 * (rd (w * i / 8 + 1)).toNat) / 2 ^ (w * i % 8) % 2 ^ w

/-- Bits of a sample in the Central Store: the bytes per pixel of R41 over the samples per pixel. -/
def contBits (c : Coding) : Nat := if c.chroma = 1 ∨ c.depth = 1 then 10 else 8

/-- Bits of a sample (R72). -/
def depthBits (c : Coding) : Nat := if c.depth = 0 then 8 else 10

/-- The mid level 2^(bit depth − 1) (R67). -/
def midLevel (c : Coding) : Nat := 2 ^ (depthBits c - 1)

/-! ### Planes -/

/-- Horizontal and vertical chroma subsampling (R122). -/
def subW (_ : Coding) : Nat := 2
def subH (c : Coding) : Nat := if c.chroma = 1 then 1 else 2

/-- Width and height of a plane: component 0 is luma. -/
def planeW (raster comp : Nat) : Nat := if comp = 0 then width raster else width raster / 2
def planeH (raster : Nat) (c : Coding) (comp : Nat) : Nat := if comp = 0 then height raster else height raster / subH c

/-- The lines of a plane in CTU row `row`: the first, and how many. -/
def planeRows (raster : Nat) (c : Coding) (comp row : Nat) : Nat × Nat :=
  let hc := if comp = 0 then ctuH c.codec else ctuH c.codec / subH c
  (row * hc, min hc (planeH raster c comp - row * hc))

/-- The columns of a plane in slice column `col`: the first, and how many (R64). -/
def planeCols (raster : Nat) (comp col : Nat) : Nat × Nat :=
  let w := planeW raster comp / sliceCols raster
  (col * w, w)

/-- A plane of a row's samples. -/
def RowPix.plane (p : RowPix) (comp : Nat) : List Nat := if comp = 0 then p.y else if comp = 1 then p.cb else p.cr

/-- A row's samples from a function of component, column and line; the ranges are those of slice column `col` of CTU row `row`. -/
def regionOf (raster : Nat) (c : Coding) (row col : Nat) (f : Nat → Nat → Nat → Nat) : RowPix :=
  let pl (comp : Nat) : List Nat :=
    let (y0, h) := planeRows raster c comp row
    let (x0, w) := planeCols raster comp col
    (List.range h).flatMap fun j => (List.range w).map fun i => f comp (x0 + i) (y0 + j)
  { y := pl 0, cb := pl 1, cr := pl 2 }

/-- A sample of such a region, by its place in the picture. -/
def RowPix.at (p : RowPix) (raster : Nat) (c : Coding) (row col comp x y : Nat) : Nat :=
  let (y0, _) := planeRows raster c comp row
  let (x0, w) := planeCols raster comp col
  (p.plane comp).getD ((y - y0) * w + (x - x0)) 0

/-- Samples as a region holds them: as many as it has, and of the channel's depth. -/
def RowPix.fit (p : RowPix) (raster : Nat) (c : Coding) (row col : Nat) : RowPix :=
  regionOf raster c row col fun comp x y => p.at raster c row col comp x y % 2 ^ depthBits c

/-- A region at one level. -/
def flatRegion (raster : Nat) (c : Coding) (row col v : Nat) : RowPix := regionOf raster c row col fun _ _ _ => v

/-- A coordinate moved to the nearest one inside the picture: samples outside repeat the nearest edge sample (R86). -/
def padTo (z : Int) (n : Nat) : Nat := min (n - 1) z.toNat

/-! ### Units (R103) -/

/-- The samples of a unit in raster order, padded at the right and bottom edge of a plane of `w` × `h` samples. -/
def unitSamples (w h ux uy : Nat) (f : Nat → Nat → Nat) : List Nat :=
  (List.range 8).flatMap fun j => (List.range 64).map fun i => f (min (64 * ux + i) (w - 1)) (min (8 * uy + j) (h - 1))

/-- One symbol of `n` bits enters a CRC of `w` bits, most significant bit first. -/
def crcSym (w poly : Nat) : Nat → Nat → Nat → Nat
  | 0, c, _ => c
  | n + 1, c, v => crcSym w poly n (((c * 2) % 2 ^ w) ^^^ (if c.testBit (w - 1) != v.testBit n then poly else 0)) v

/-- UCHECK: CRC-12 over the decoded samples in raster order, from bits [17:6] of the unit's address. That a sample enters as a number
of the bit depth, most significant bit first, is a DESIGN CHOICE (log entry 85). -/
def ucheck (depth addr : Nat) (l : List Nat) : Nat := l.foldl (fun c v => crcSym 12 0x80F depth c v) (bitsOf addr 17 6)

/-- The coded form of a unit, internal to the device, from the bit depth and the samples (R103): a free value (log entry 86). -/
opaque Config.unitCode : Nat → List Nat → Bytes

/-- What the device reads out of a coded form that no unit of its own has (R103): a free value (log entry 86). -/
opaque Config.unitJunk : Nat → Bytes → List Nat

/-- A unit as stored: LINES and its bytes. A coded form that would not be shorter than raw gives way to the raw one. -/
def unitStored (c : Coding) (l : List Nat) : Nat × Bytes :=
  let code := Config.unitCode (depthBits c) l
  let k := max 1 (cdiv code.length 64)
  if k < rawLines c then (k, code ++ List.replicate (64 * k - code.length) 0) else (rawLines c, packSamples (depthBits c) l)

/-- The samples read out of a stored unit of `k` lines; `l` are those that were stored last. A raw unit is its samples; the coding is lossless, so
an intact coded form gives back what it codes. -/
def unitRead (c : Coding) (k : Nat) (p : Bytes) (l : List Nat) : List Nat :=
  if k = rawLines c then (List.range 512).map (unpackAt (depthBits c) fun i => p.getD i 0)
  else if unitStored c l = (k, p) then l
  else (List.range 512).map fun i => (Config.unitJunk (depthBits c) p).getD i 0 % 2 ^ depthBits c

end Sys2Proof.Machine
end

