-- ==== Sys2Proof/Machine/Search.lean ====
section
/-! DEFINITION. Motion search (R85 to R92): the quarter-resolution plane, the rough-out, the refinement, costs and ties, and the window
cache's geometry and fetches. All of it is a function of the CTU's samples and of the padded samples of one reference. -/

namespace Sys2Proof.Machine

/-! ### Window geometry (R90 to R92) -/

/-- The full-resolution window around a CTU: samples left of x0, samples right of it, lines above y0, lines below it. -/
def winReach (codec : Nat) : Int × Int × Int × Int := if codec = 0 then (544, 607, 224, 287) else (512, 639, 192, 319)

/-- Luma lines fetched for an entering column, and the first of them above y0 (R90). -/
def fetchLines (codec : Nat) : Nat := if codec = 0 then 576 else 640
def fetchUp (_ : Nat) : Nat := 256

/-- Bytes of the window cache for one reference: 10-bit containers, and one byte for each rough-out sample (R90). -/
def winBytes (codec : Nat) : Nat := 1152 * 512 * 5 / 4 + (if codec = 0 then 272 * 144 else 288 * 160)

/-- A vector in quarter samples is allowed for a block when every sample that its prediction reads lies in the window of the CTU at
(x0, y0), the taps of the filter counted (R91). -/
def inWindow (codec : Nat) (x0 y0 bx by' bw bh : Nat) (mx my : Int) : Bool :=
  let (l, r, u, d) := winReach codec
  let ix := mx.fdiv 4
  let iy := my.fdiv 4
  decide ((x0 : Int) - l ≤ bx + ix - 3 ∧ (bx + bw - 1 : Int) + ix + 4 ≤ x0 + r ∧
          (y0 : Int) - u ≤ by' + iy - 3 ∧ (by' + bh - 1 : Int) + iy + 4 ≤ y0 + d)

/-- The nearest allowed integer position for a block that covers the CTU (R91), in luma samples. -/
def clampCand (codec : Nat) (mx my : Int) : Int × Int :=
  let n : Int := ctuH codec
  let (l, r, u, d) := winReach codec
  (max (3 - l) (min (r - 4 - (n - 1)) mx), max (3 - u) (min (d - 4 - (n - 1)) my))

/-- Columns of a window range that lie inside the picture. -/
def inPicture (w : Nat) (lo hi : Int) : Nat := (min hi ((w : Int) - 1) + 1 - max lo 0).toNat

/-- 64-byte lines that a column range fetches for one reference: 1.25 bytes a sample (R90, R92). -/
def fetchBytes (codec cols : Nat) : Nat := cols * fetchLines codec * 5 / 4
def fetch64 (codec cols : Nat) : Nat := cdiv (fetchBytes codec cols) 64

/-- Lines fetched for one reference at CTU column `c` of the picture: the whole window at the first CTU of the slice, the entering
columns at any other; columns outside the picture are generated and not fetched (R92). -/
def fetchAt (raster codec : Nat) (first : Bool) (c : Nat) : Nat :=
  let x0 : Int := c * ctuH codec
  let (l, r, _, _) := winReach codec
  fetch64 codec (inPicture (width raster) (if first then x0 - l else x0 + r - (ctuH codec - 1)) (x0 + r))

/-! ### Costs and ties (R89) -/

/-- A vector with its cost. -/
structure MvCost where
  cost : Nat
  x : Int
  y : Int
deriving DecidableEq, Repr

/-- Lowest cost, then smaller |vertical|, smaller |horizontal|, smaller vertical, smaller horizontal (R89). -/
def MvCost.before (a b : MvCost) : Bool :=
  decide (a.cost < b.cost ∨ (a.cost = b.cost ∧ (a.y.natAbs < b.y.natAbs ∨ (a.y.natAbs = b.y.natAbs ∧ (a.x.natAbs < b.x.natAbs ∨
    (a.x.natAbs = b.x.natAbs ∧ (a.y < b.y ∨ (a.y = b.y ∧ a.x < b.x))))))))

/-- The best of a list. -/
def bestOf : List MvCost → Option MvCost
  | [] => none
  | a :: r => some (r.foldl (fun b x => if x.before b then x else b) a)

/-- LAMBDA_ME = round(16 × 0.755 × 2^((QP − 12) / 6)) for QP from 0 (R89). -/
def lambdaRom : List Nat :=
  [3, 3, 4, 4, 5, 5, 6, 7, 8, 9, 10, 11, 12, 14, 15, 17, 19, 22, 24, 27, 30, 34, 38, 43, 48, 54, 61, 68, 77, 86, 97, 108] ++
  [122, 137, 153, 172, 193, 217, 244, 273, 307, 344, 387, 434, 487, 547, 614, 689, 773, 868, 974, 1093, 1227, 1378, 1546, 1736, 1948, 2187, 2455, 2755, 3092, 3471, 3896, 4373]

/-- Bits of the order-0 signed Exp-Golomb code of a number. -/
def seBits (z : Int) : Nat := 2 * Nat.log2 ((if 0 < z then 2 * z.natAbs - 1 else 2 * z.natAbs) + 1) + 1

/-- The cost of a vector beside its distortion (R89). -/
def mvCost (qp : Nat) (dist : Nat) (x y px py : Int) : MvCost :=
  { cost := dist + (lambdaRom.getD qp 0 * (seBits (x - px) + seBits (y - py)) + 8) / 16, x, y }

/-! ### Distortion (R86, R88) -/

/-- A sample of the quarter-resolution plane (R86). -/
def qSample (depth : Nat) (f : Int → Int → Nat) (u v : Int) : Nat :=
  (((List.range 16).foldl (fun a i => a + f (4 * u + (i % 4 : Nat)) (4 * v + (i / 4 : Nat))) 0) + 8) >>> (4 + depth - 8)

def absDiff (a b : Nat) : Nat := (a - b) + (b - a)

/-- The sum of absolute differences of a `w` × `h` block. -/
def sad (w h : Nat) (f g : Nat → Nat → Nat) : Nat :=
  (List.range h).foldl (fun a j => (List.range w).foldl (fun a i => a + absDiff (f i j) (g i j)) a) 0

/-- An 8-point Hadamard transform. -/
def had8 (l : List Int) : List Int :=
  (List.range 8).map fun k => (List.range 8).foldl (fun a i =>
    if (bitsOf (k &&& i) 0 0 + bitsOf (k &&& i) 1 1 + bitsOf (k &&& i) 2 2) % 2 = 0 then a + l.getD i 0 else a - l.getD i 0) 0

/-- How the absolute coefficients of one 8×8 Hadamard block scale to its SATD, which the spec does not give: a free value (log entry 87). -/
opaque Config.satdScale : Nat → Nat

/-- SATD of a block of 8×8 Hadamard blocks. -/
def satd (w h : Nat) (f g : Nat → Nat → Nat) : Nat :=
  (List.range (h / 8)).foldl (fun a bj => (List.range (w / 8)).foldl (fun a bi =>
    let rows := (List.range 8).map fun j => had8 ((List.range 8).map fun i => (f (8 * bi + i) (8 * bj + j) : Int) - g (8 * bi + i) (8 * bj + j))
    let cols := (List.range 8).map fun i => had8 (rows.map fun r => r.getD i 0)
    a + Config.satdScale ((cols.map fun c => (c.map Int.natAbs).sum).sum)) a) 0

/-! ### Interpolation (R88). The luma filter of both standards at quarter positions (PRESUMED: log entry 88). -/

def lumaTaps : Nat → List Int
  | 0 => [0, 0, 0, 64, 0, 0, 0, 0]
  | 1 => [-1, 4, -10, 58, 17, -5, 1, 0]
  | 2 => [-1, 4, -11, 40, 40, -11, 4, -1]
  | _ => [0, 1, -5, 17, 58, -10, 4, -1]

/-- Eight taps around a position. -/
def tap8 (fr : Nat) (f : Int → Int) (p : Int) : Int := (List.range 8).foldl (fun a t => a + (lumaTaps fr).getD t 0 * f (p - 3 + (t : Nat))) 0

/-- The predicted luma sample at a place and a vector in quarter samples: rows, then columns, at 14 bits. -/
def lumaPred (depth : Nat) (f : Int → Int → Nat) (x y : Nat) (mx my : Int) : Nat :=
  let px : Int := x + mx.fdiv 4
  let py : Int := y + my.fdiv 4
  let fx := (mx.fmod 4).toNat
  let fy := (my.fmod 4).toNat
  let hor (j : Int) : Int := if fx = 0 then (f px j : Int) * 2 ^ (14 - depth) else (tap8 fx (fun i => (f i j : Int)) px).fdiv (2 ^ (depth - 8))
  let v : Int := if fy = 0 then hor py else if fx = 0 then (tap8 fy (fun j => (f px j : Int)) py).fdiv (2 ^ (depth - 8)) else (tap8 fy hor py).fdiv 64
  min (2 ^ depth - 1) ((v + 2 ^ (13 - depth)).fdiv (2 ^ (14 - depth))).toNat

/-! ### The search of one reference (R85, R87, R88) -/

/-- A CTU to be searched: its place and size, the bit depth, its QP, and its luma samples by place in the picture. -/
structure SrchIn where
  codec : Nat
  depth : Nat
  x0 : Nat
  y0 : Nat
  qp : Nat
  src : Int → Int → Nat

/-- What the search of one reference gives: the candidates, how many of them were clamped, the best vector of each block and candidate
as (x, y, size, candidate, vector), and the refined vector of each quadrant. -/
structure Found where
  cands : List (Int × Int) := []
  clipped : Nat := 0
  vecs : List (Nat × Nat × Nat × Nat × MvCost) := []
  quad : List (Int × Int) := []
deriving DecidableEq, Repr

/-- Distinct members, first places kept. -/
def distinct (l : List (Int × Int)) : List (Int × Int) := l.foldl (fun a x => if a.contains x then a else a ++ [x]) []

/-- The kept displacement of quadrant `q` in the rough-out (R87, R89). That the CTU is brought to quarter resolution as the reference
is, is DEDUCED (log entry 87). -/
def roughOut (i : SrchIn) (ref : Int → Int → Nat) (q : Nat) (pred : Int × Int) : Option MvCost :=
  let n := ctuH i.codec / 8
  let bx := i.x0 / 4 + q % 2 * n
  let by' := i.y0 / 4 + q / 2 * n
  let pu := pred.1.tdiv 16
  let pv := pred.2.tdiv 16
  bestOf ((List.range 129).flatMap fun jv => (List.range 257).map fun ju =>
    let u : Int := (ju : Int) - 128
    let v : Int := (jv : Int) - 64
    let d := sad n n (fun a b => qSample i.depth i.src (bx + a : Nat) (by' + b : Nat)) (fun a b => qSample i.depth ref ((bx + a : Nat) + u) ((by' + b : Nat) + v))
    { cost := d + 4 * ((u - pu).natAbs + (v - pv).natAbs), x := u, y := v })

/-- The square blocks of a CTU from 8×8 up, as (x, y, size) from its corner. -/
def squareBlocks (codec : Nat) : List (Nat × Nat × Nat) :=
  [8, 16, 32, 64, 128].flatMap fun n => if ctuH codec < n then [] else
    (List.range (ctuH codec / n)).flatMap fun j => (List.range (ctuH codec / n)).map fun i => (n * i, n * j, n)

/-- The quadrant of a CTU that holds a block's top-left sample. -/
def quadOf (codec : Nat) (b : Nat × Nat × Nat) : Nat := (if ctuH codec / 2 ≤ b.1 then 1 else 0) + (if ctuH codec / 2 ≤ b.2.1 then 2 else 0)

/-- The positions of a refinement stage around a start, in quarter samples (R88); the start stands among them. -/
def stagePos : Nat → List (Int × Int)
  | 1 => (List.range 33).flatMap fun j => (List.range 65).map fun i => (4 * (2 * (i : Int) - 64), 4 * (2 * (j : Int) - 32))
  | k =>
    let st : Int := if k = 2 then 4 else if k = 3 then 2 else 1
    (List.range 9).map fun i => (st * ((i % 3 : Nat) - 1), st * ((i / 3 : Nat) - 1))

/-- One stage: the best allowed position; with none allowed the start stays. -/
def refineStage (i : SrchIn) (ref : Int → Int → Nat) (b : Nat × Nat × Nat) (pred : Int × Int) (k : Nat) (start : MvCost) : MvCost :=
  let bx := i.x0 + b.1
  let by' := i.y0 + b.2.1
  let n := b.2.2
  let src (x y : Nat) := i.src (bx + x : Nat) (by' + y : Nat)
  let one (mx my : Int) : MvCost :=
    let pr (x y : Nat) := lumaPred i.depth ref (bx + x) (by' + y) mx my
    mvCost i.qp (if k ≤ 2 then sad n n src pr else satd n n src pr) mx my pred.1 pred.2
  (bestOf (((stagePos k).map fun d => (start.x + d.1, start.y + d.2)).filterMap fun m =>
    if inWindow i.codec i.x0 i.y0 bx by' n n m.1 m.2 then some (one m.1 m.2) else none)).getD start

/-- The four stages of a candidate for a block. -/
def refine (i : SrchIn) (ref : Int → Int → Nat) (b : Nat × Nat × Nat) (pred : Int × Int) (cand : Int × Int) : MvCost :=
  [1, 2, 3, 4].foldl (fun m k => refineStage i ref b pred k m) { cost := 0, x := 4 * cand.1, y := 4 * cand.2 }

/-- The search of one reference; `prev` are the refined vectors of the quadrants of the preceding CTU of the slice, none at the first
(R87 to R91). -/
def searchRef (i : SrchIn) (ref : Int → Int → Nat) (prev : List (Int × Int)) : Found :=
  let pred (q : Nat) := prev.getD q (0, 0)
  let kept := [0, 1, 2, 3].filterMap fun q => (roughOut i ref q (pred q)).map fun m => (4 * m.x, 4 * m.y)
  let cands := distinct kept
  let starts := cands.map fun c => clampCand i.codec c.1 c.2
  let vecs := (squareBlocks i.codec).flatMap fun b => starts.zipIdx.map fun (c, k) => (b.1, b.2.1, b.2.2, k, refine i ref b (pred (quadOf i.codec b)) c)
  let half := ctuH i.codec / 2
  let quad := [0, 1, 2, 3].map fun q =>
    match bestOf ((vecs.filter fun v => v.1 = q % 2 * half && v.2.1 = q / 2 * half && v.2.2.1 = half).map (·.2.2.2.2)) with
    | some m => (m.x, m.y)
    | none => (0, 0)
  { cands, clipped := ((cands.zip starts).filter fun e => e.1 ≠ e.2).length, vecs, quad }

end Sys2Proof.Machine
end

