-- ==== Sys2Proof/Machine/Coder.lean ====
section
/-! DEFINITION. What an engine makes of a slice (R63, R65, R75, R85, R105, R112, R117, R118, R122, R123, R126): a function of the inputs
R75 lists and of nothing else. The choices that the spec leaves to the device (mode decision, arithmetic of transform and filters,
entropy coding) are free values of those inputs, kept inside the rules the spec gives. -/

namespace Sys2Proof.Machine

/-! ### Coding units (R63) -/

/-- A prediction from the lists: one or two pairs of reference index and vector in quarter samples. -/
abbrev Motion := List (Nat × Int × Int)

/-- The mode of a coding unit. `how`: 0 intra, 1 skip, 2 merge, 3 AMVP. `luma` and `line` are the intra mode and reference line, `cclm` a chroma
mode from luma (0 none, 1 both sides, 2 above with above-right, 3 left); `part` the HEVC partition (0 2N×2N, 1 2N×N, 2 N×2N, 3 to 6
AMP) with one prediction for each part. -/
structure CuMode where
  how  : Nat := 0
  luma : Nat := 1
  line : Nat := 0
  cclm : Nat := 0
  part : Nat := 0
  mots : List Motion := []
deriving DecidableEq, Repr, Inhabited

/-- The partition of a CTU: quad splits, and in VVC binary and ternary ones. -/
inductive CuTree where
  | leaf (m : CuMode)
  | quad (a b c d : CuTree)
  | bin (hor : Bool) (a b : CuTree)
  | tri (hor : Bool) (a b c : CuTree)
deriving DecidableEq, Repr, Inhabited

/-- A coding unit at its place, in luma samples of the picture. -/
structure Cu where
  x : Nat
  y : Nat
  w : Nat
  h : Nat
  m : CuMode
deriving DecidableEq, Repr

/-- The coding units of a tree over a block: a split that R63 does not allow is not made. `mt` counts binary and ternary
splits, after which no quad split follows. -/
def CuTree.units (codec : Nat) : CuTree → Nat → Nat → Nat → Nat → Nat → List Cu
  | .leaf m, _, x, y, w, h => [{ x, y, w, h, m }]
  | .quad a b c d, mt, x, y, w, h =>
    if mt = 0 ∧ 16 ≤ w ∧ w = h then
      a.units codec 0 x y (w / 2) (h / 2) ++ b.units codec 0 (x + w / 2) y (w / 2) (h / 2) ++
        c.units codec 0 x (y + h / 2) (w / 2) (h / 2) ++ d.units codec 0 (x + w / 2) (y + h / 2) (w / 2) (h / 2)
    else [{ x, y, w, h, m := {} }]
  | .bin hor a b, mt, x, y, w, h =>
    if codec = 0 ∨ 2 ≤ mt ∨ (if hor then h else w) < 16 then [{ x, y, w, h, m := {} }]
    else if hor then a.units codec (mt + 1) x y w (h / 2) ++ b.units codec (mt + 1) x (y + h / 2) w (h / 2)
    else a.units codec (mt + 1) x y (w / 2) h ++ b.units codec (mt + 1) (x + w / 2) y (w / 2) h
  | .tri hor a b c, mt, x, y, w, h =>
    if codec = 0 ∨ 2 ≤ mt ∨ (if hor then h else w) < 32 then [{ x, y, w, h, m := {} }]
    else if hor then a.units codec (mt + 1) x y w (h / 4) ++ b.units codec (mt + 1) x (y + h / 4) w (h / 2) ++ c.units codec (mt + 1) x (y + h / 4 * 3) w (h / 4)
    else a.units codec (mt + 1) x y (w / 4) h ++ b.units codec (mt + 1) (x + w / 4) y (w / 2) h ++ c.units codec (mt + 1) (x + w / 4 * 3) y (w / 4) h

/-- The parts of a coding unit that are predicted apart, as (x, y, w, h) from its corner (R63). -/
def puParts (codec : Nat) (part w h : Nat) : List (Nat × Nat × Nat × Nat) :=
  if codec ≠ 0 then [(0, 0, w, h)] else
  match part with
  | 1 => [(0, 0, w, h / 2), (0, h / 2, w, h / 2)]
  | 2 => [(0, 0, w / 2, h), (w / 2, 0, w / 2, h)]
  | 3 => [(0, 0, w, h / 4), (0, h / 4, w, h - h / 4)]
  | 4 => [(0, 0, w, h - h / 4), (0, h - h / 4, w, h / 4)]
  | 5 => [(0, 0, w / 4, h), (w / 4, 0, w - w / 4, h)]
  | 6 => [(0, 0, w - w / 4, h), (w - w / 4, 0, w / 4, h)]
  | _ => [(0, 0, w, h)]

/-! ### The inputs of a slice (R75) -/

/-- A reference picture of list 0: its frame count, whether it is LONG, whether it was not MISSING at the dispatch, its padded samples by component and place,
and its motion field. -/
structure RefIn where
  frame : Nat
  long  : Bool
  live  : Bool
  px    : Nat → Int → Int → Nat
  mf    : Bytes

/-- What the bits and the reconstruction of a slice depend on (R75): the composed samples; the references and marks; the coding
parameters; the rate-control inputs of its task (cap, QP, settings, floor forms, refresh units, running sweeps); and frame count, picture order count, row and
column. -/
structure SliceIn where
  raster : Nat
  coding : Coding
  cur    : Nat → Int → Int → Nat
  refs   : List RefIn
  allIntra : Bool
  set    : RcSet
  cap    : Nat
  qp     : Nat
  forms  : List Bool
  units  : List Nat
  sweeps : List Sweep
  frame  : Nat
  poc    : Nat
  row    : Nat
  col    : Nat

namespace SliceIn

def codec (i : SliceIn) : Nat := i.coding.codec
/-- CTUs of the slice, and the picture column of CTU `c`. -/
def ctus (i : SliceIn) : Nat := sliceCtus i.raster i.codec
def ctuCol (i : SliceIn) (c : Nat) : Nat := i.col * i.ctus + c
/-- A CTU of a refresh unit (R121): units are numbered 2 × column, or 2 × row + 1. -/
def refreshed (i : SliceIn) (c : Nat) : Bool := i.units.contains (2 * i.ctuCol c) || i.units.contains (2 * i.row + 1)
/-- TMVP is off where the collocated picture precedes the start of a running sweep (R123), and where there is none. -/
def tmvp (i : SliceIn) : Bool :=
  match i.refs with
  | [] => false
  | r :: _ => i.sweeps.all fun w => decide (w.start ≤ r.frame)

end SliceIn

/-! ### What a clean coding unit may read (R122, R123) -/

/-- The clean area of a sweep in picture `frame`: units 0 to its answer − 1; none before its start. -/
def Sweep.cleanUnits (w : Sweep) (frame : Nat) : Nat := if frame < w.start then 0 else min w.units ((frame - w.start + 1) * w.k)

/-- A coding unit lies in the clean area of a sweep in the current picture. -/
def Sweep.holds (w : Sweep) (codec frame : Nat) (u : Cu) : Bool :=
  decide ((if w.rowMode then u.y else u.x) / ctuH codec < w.cleanUnits frame)

/-- The last sample of a block along one axis that a prediction reads: taps count where the vector has a fraction. -/
def reads (p n : Nat) (v : Int) (unit taps : Nat) : Int := (p + n : Nat) - 1 + v.fdiv unit + (if v.fmod unit = 0 then 0 else (taps / 2 : Nat))

/-- One vector of a block keeps the bounds of R122 for a sweep. -/
def Sweep.allows (w : Sweep) (i : SliceIn) (x y bw bh : Nat) (m : Nat × Int × Int) : Bool :=
  match i.refs[m.1]? with
  | none => false
  | some r =>
    if r.frame < w.start then false else
    let b := w.cleanUnits r.frame * ctuH i.codec
    if w.rowMode then
      decide (height i.raster ≤ b) ||
        (decide (reads y bh m.2.2 4 8 ≤ (b : Int) - 1) && decide (reads (y / subH i.coding) (bh / subH i.coding) m.2.2 (4 * subH i.coding) 4 ≤ (b / subH i.coding : Nat) - 1))
    else
      decide (width i.raster ≤ b) ||
        (decide (reads x bw m.2.1 4 8 ≤ (b : Int) - (if i.codec = 0 then 5 else 12)) &&
          decide (reads (x / 2) (bw / 2) m.2.1 8 4 ≤ (b / 2 : Nat) - (if i.codec = 0 then 3 else 5)))

/-- Intra modes that read nothing beyond the unit's width on the row above, the filtering of references counted (R123; PRESUMED from the
two standards: log entry 88): DC; in HEVC the modes predicted from the left alone, and the vertical ones where no reference is filtered; in VVC the modes predicted from the left that wide angles do
not replace, and vertical. -/
def narrowMode (codec w h mode line : Nat) : Bool :=
  line = 0 && (mode = 1 ||
    (if codec = 0 then (2 ≤ mode && mode ≤ 10) || (mode = 26 && w ≤ 32)
     else ((if w ≤ h then 2 else 8 + 2 * (Nat.log2 w - Nat.log2 h)) ≤ mode && mode ≤ 18) || mode = 50))

/-- The above-right samples of a unit in a clean area lie outside it, inside the picture and the slice. -/
def Sweep.rightOut (w : Sweep) (i : SliceIn) (u : Cu) : Bool :=
  let b := w.cleanUnits i.frame * ctuH i.codec
  !w.rowMode && decide (u.y % ctuH i.codec ≠ 0) && decide (b < width i.raster) && decide (b < u.x + 2 * u.w)

/-- A mode keeps the rules of a sweep for a unit in its clean area. -/
def Sweep.keeps (w : Sweep) (i : SliceIn) (u : Cu) : Bool :=
  !w.holds i.codec i.frame u ||
    (if u.m.how = 0 then !w.rightOut i u || (narrowMode i.codec u.w u.h u.m.luma u.m.line && u.m.cclm ≠ 2)
     else ((puParts i.codec u.m.part u.w u.h).zip u.m.mots).all fun (p, ms) => ms.all fun m => w.allows i (u.x + p.1) (u.y + p.2.1) p.2.2.1 p.2.2.2 m)

/-- A prediction of a part: one or two vectors, each on a reference that is not MISSING, inside the window of the CTU (R63, R91, R105). -/
def motionOk (i : SliceIn) (x0 y0 x y w h : Nat) (ms : Motion) : Bool :=
  (ms.length = 1 || ms.length = 2) && ms.all fun m =>
    (match i.refs[m.1]? with | some r => r.live | none => false) && inWindow i.codec x0 y0 x y w h m.2.1 m.2.2

/-- A unit's mode is one that R63, R91, R105 and R121 to R123 allow in CTU `c`. -/
def cuOk (i : SliceIn) (c : Nat) (u : Cu) : Bool :=
  let n := ctuH i.codec
  (if u.m.how = 0 then decide (u.m.luma < (if i.codec = 0 then 35 else 67)) && decide (u.m.line ≤ (if i.codec = 0 then 0 else 2)) && decide (u.m.cclm ≤ (if i.codec = 0 then 0 else 3))
   else !i.allIntra && !i.refreshed c && decide (u.m.how ≤ 3) &&
     (let ps := puParts i.codec u.m.part u.w u.h
      ps.length = u.m.mots.length && (ps.zip u.m.mots).all fun (p, ms) =>
        motionOk i (i.ctuCol c * n) (i.row * n) (u.x + p.1) (u.y + p.2.1) p.2.2.1 p.2.2.2 ms)) &&
  i.sweeps.all fun w => w.keeps i u

/-! ### One CTU -/

/-- A coded CTU: its QP, units, whether R118 forced its floor form, its bound, and what its search found for each list
position, none for a MISSING reference. -/
structure CtuOut where
  c      : Nat
  qp     : Nat
  cus    : List Cu
  forced : Bool
  floor  : Bool
  bound  : Nat
  found  : List (Option Found)
deriving DecidableEq, Repr

/-- The mode decision (R63, R88): a free value of the slice's inputs, the CTU, its QP, what the search found, and the CTUs before it (log entry 86). -/
opaque Config.decide : SliceIn → Nat → Nat → List (Option Found) → List CtuOut → CuTree

/-- Bypass and regular bins of a CTU's coding (R110): a free value (log entry 86). -/
opaque Config.bins : SliceIn → Nat → Nat → List Cu → List CtuOut → Nat × Nat

/-- Header bits of a slice (R118), at most the header bound of R112: a free value (log entry 86). -/
opaque Config.headerBits : SliceIn → Nat

def hdrBits (i : SliceIn) : Nat := min 512 (Config.headerBits i)

/-- The bound of a CTU's chosen coding (R110, R112): bypass bins, 6 or 7 bits for each regular bin, and 8 bits. -/
def binBound (codec : Nat) (b : Nat × Nat) : Nat := b.1 + (if codec = 0 then 6 else 7) * b.2 + 8

/-- A CTU's place and height inside the picture. -/
def SliceIn.ctuBox (i : SliceIn) (c : Nat) : Nat × Nat × Nat × Nat :=
  let n := ctuH i.codec
  (i.ctuCol c * n, i.row * n, n, min n (height i.raster - i.row * n))

/-- The zero-motion copy of the lowest reference index that is not MISSING (R106, R112). -/
def SliceIn.zeroMotion (i : SliceIn) : Motion :=
  match i.refs.findIdx? (·.live) with | some k => [(k, 0, 0), (k, 0, 0)] | none => []

/-- The floor form of CTU `c`: the intra form, or the skip form (R112). -/
def SliceIn.floorCus (i : SliceIn) (c : Nat) : List Cu :=
  let (x, y, w, h) := i.ctuBox c
  [{ x, y, w, h, m := if i.forms.getD c true then {} else { how := 1, mots := [i.zeroMotion] } }]

/-- The chosen units of CTU `c`: those of the decision, with intra DC in place of a unit that no rule allows. Units beyond the picture's
bottom are cut to it. -/
def SliceIn.chosen (i : SliceIn) (c qp : Nat) (found : List (Option Found)) (done : List CtuOut) : List Cu :=
  let (x, y, w, h) := i.ctuBox c
  let tree := Config.decide i c qp found done
  ((tree.units i.codec 0 x y w w).filterMap fun u =>
    if y + h ≤ u.y then none else some { u with h := min u.h (y + h - u.y) }).map fun u => if cuOk i c u then u else { u with m := {} }

/-- The QP of CTU `c` (R117, R126): `q` is 3/2 of the bounds before it, rounded up. -/
def SliceIn.ctuQp (i : SliceIn) (c sum : Nat) : Nat :=
  let clamp (z : Int) : Nat := max i.set.qmin (min i.set.qmax z.toNat)
  let base : Nat := if i.refreshed c then clamp (i.qp + i.set.ofs) else i.qp
  let pace := i.cap * c / max 1 i.ctus
  let ovr : Int := (cdiv (3 * sum) 2 : Nat) - pace
  let dqp : Nat := if ovr ≤ 0 then 0 else min i.set.dqp (1 + (8 * ovr).toNat / max 1 i.cap)
  clamp (base + dqp : Nat)

/-- The floor bounds of the CTUs after CTU `c`, each in its floor form (R118). -/
def SliceIn.floorRest (i : SliceIn) (c : Nat) : Nat :=
  (((List.range i.ctus).filter (c < ·)).map fun k => floorCtu i.codec (i.forms.getD k true)).sum

/-- The search of CTU `c` on each list position that was not MISSING at the dispatch (R85). -/
def SliceIn.search (i : SliceIn) (c qp : Nat) (prev : List (Option Found)) : List (Option Found) :=
  let (x0, y0, _, _) := i.ctuBox c
  i.refs.zipIdx.map fun (r, k) =>
    if !r.live then none else
    some (searchRef { codec := i.codec, depth := depthBits i.coding, x0, y0, qp, src := i.cur 0 } (r.px 0) (((prev.getD k none).map (·.quad)).getD []))

/-- CTU `c` after the CTUs `done`, oldest first (R85, R117, R118): once one CTU is forced, all later ones are. -/
def SliceIn.code (i : SliceIn) (done : List CtuOut) (c : Nat) : CtuOut :=
  let sum := (done.map (·.bound)).sum
  let qp := i.ctuQp c sum
  let found := i.search c qp ((done.getLast?.map (·.found)).getD [])
  let floor := i.floorCus c
  let fb := floorCtu i.codec (i.forms.getD c true)
  let cus := i.chosen c qp found done
  let bound := if cus = floor then fb else binBound i.codec (Config.bins i c qp cus done)
  if (done.getLast?.map (·.forced)).getD false ∨ i.cap < sliceCharge (hdrBits i + sum + bound + i.floorRest c) then
    { c, qp, cus := floor, forced := true, floor := true, bound := fb, found }
  else { c, qp, cus, forced := false, floor := cus = floor, bound, found }

/-- The first `n` CTUs of a slice. -/
def SliceIn.codeTo (i : SliceIn) : Nat → List CtuOut
  | 0 => []
  | n + 1 => let d := i.codeTo n; d ++ [i.code d n]

/-! ### The coded slice (R75, R118) -/

/-- The slice data and header as the entropy coder settles them, before emulation prevention: a free value of the inputs and the CTUs (log entry 86). -/
opaque Config.sliceBits : SliceIn → List (String × Int) → List CtuOut → Bytes

/-- The reconstruction after the loop filters, inside the slice (R65): a free value of the inputs and the CTUs (log entry 86). -/
opaque Config.recon : SliceIn → List CtuOut → RowPix

/-- The motion field of the slice's 16×16 blocks (R99): a free value (log entry 86). -/
opaque Config.motion : SliceIn → List CtuOut → Bytes

/-- Emulation prevention: a byte 3 before a byte of at most 3 that follows two zero bytes. `z` counts the zeros just written. -/
def escape : Nat → Bytes → Bytes
  | _, [] => []
  | z, b :: r =>
    if z = 2 ∧ b.toNat ≤ 3 then 3 :: b :: escape (if b = 0 then 1 else 0) r
    else b :: escape (if b = 0 then z + 1 else 0) r

/-- The two-byte NAL unit header: layer 0, TemporalId 0 (R66; PRESUMED from the two standards: log entry 88). -/
def nalHeader (codec typ : Nat) : Bytes :=
  if codec = 0 then [BitVec.ofNat 8 (2 * typ), 1] else [0, BitVec.ofNat 8 (8 * typ + 1)]

/-- A NAL unit after its start code (R73). -/
def nalUnit (codec typ : Nat) (rbsp : Bytes) : Bytes := [0, 0, 0, 1] ++ nalHeader codec typ ++ escape 0 rbsp

/-- What coding a slice gives. -/
structure SliceOut where
  ctus  : List CtuOut
  bits  : Nat
  nal   : Bytes
  recon : RowPix
  mf    : Bytes

/-- NAL unit types (PRESUMED from the two standards: log entry 88). -/
def natTrail (codec : Nat) : Nat := if codec = 0 then 1 else 0
def natIdr (codec : Nat) : Nat := if codec = 0 then 20 else 8
def natGdr : Nat := 10

/-- The NAL unit type of a picture's slices (R66): IDR_N_LP for the first picture, GDR_NUT for the VVC picture in which a sweep begins, else a trailing picture. -/
def picNal (codec : Nat) (first sweep : Bool) : Nat := if first then natIdr codec else if codec = 1 && sweep then natGdr else natTrail codec

/-- The syntax elements of a slice header that the rules fix (R63 to R66, R79, R102, R105, R112, R123, R124): list 1 equals list 0, which is the held set.
`filters`: deblocking and SAO (and ALF) run. -/
def SliceIn.header (i : SliceIn) (nalType : Nat) (filters : Bool) : List (String × Int) :=
  let n := i.refs.length
  let addr : Nat := if i.codec = 0 then i.row * ctuCols i.raster i.codec + i.col * i.ctus else i.row * sliceCols i.raster + i.col
  [("nal_unit_type", (nalType : Int)), ("slice_address", (addr : Int)), ("slice_type", if nalType = natIdr i.codec then 2 else 0),
   ("pic_order_cnt_lsb", (i.poc : Int)), ("num_ref_idx_l0_active", (n : Int)), ("num_ref_idx_l1_active", (n : Int)),
   ("temporal_mvp_enabled_flag", (bit i.tmvp : Int)), ("collocated_ref_idx", 0), ("slice_qp", (i.qp : Int)),
   ("deblocking_filter_disabled_flag", (bit (!filters) : Int)), ("sao_flags", (bit filters : Int)), ("alf_enabled_flag", (bit (filters && i.codec = 1) : Int)),
   ("loop_filter_across_slices_enabled_flag", 0)] ++
  (match i.sweeps.find? fun w => w.start = i.frame with
    | some w => if i.codec = 1 then [("ph_recovery_poc_cnt", (w.len : Int) - 1)] else []
    | none => []) ++
  ["0_", "1_"].flatMap fun l => i.refs.zipIdx.flatMap fun (r, k) =>
    [("ref_pic_list" ++ l ++ toString k ++ "_delta_poc", (r.frame : Int) - i.frame), ("ref_pic_list" ++ l ++ toString k ++ "_long_term_flag", (bit r.long : Int))]

/-- A slice (R75). Its BITS are the slice charge of R110 (DEDUCED: log entry 89), which its bytes do not exceed (R118): the coder's bytes before
emulation prevention are no more than the header bits and the bounds. -/
def codeSlice (i : SliceIn) (nalType : Nat) : SliceOut :=
  let ctus := i.codeTo i.ctus
  let sum := hdrBits i + (ctus.map (·.bound)).sum
  let body := (Config.sliceBits i (i.header nalType true) ctus).take (sum / 8) ++ [0x80]
  { ctus, bits := sliceCharge sum, nal := nalUnit i.codec nalType body,
    recon := (Config.recon i ctus).fit i.raster i.coding i.row i.col, mf := Config.motion i ctus }

/-- A substitute slice (R79, R106): every CTU one skip unit with zero motion on the lowest reference index that is not MISSING, filters
off, zero residual; or intra DC with none. Its region is an exact copy, or mid level. -/
def substSlice (i : SliceIn) (nalType : Nat) : SliceOut :=
  let zm := i.zeroMotion
  let ctus := (List.range i.ctus).map fun c =>
    let (x, y, w, h) := i.ctuBox c
    let m : CuMode := if zm = [] then {} else { how := 1, mots := [zm] }
    { c, qp := i.qp, cus := [{ x, y, w, h, m }], forced := false, floor := true, bound := floorCtu i.codec (zm = []), found := [] : CtuOut }
  let sum := hdrBits i + (ctus.map (·.bound)).sum
  let body := (Config.sliceBits i (i.header nalType false) ctus).take (sum / 8) ++ [0x80]
  { ctus, bits := sliceCharge sum, nal := nalUnit i.codec nalType body,
    recon := regionOf i.raster i.coding i.row i.col fun comp x y =>
      match zm with
      | (k, _, _) :: _ => (match i.refs[k]? with | some r => r.px comp x y | none => midLevel i.coding)
      | [] => midLevel i.coding
    mf := Config.motion i ctus }

end Sys2Proof.Machine
end

