-- ==== Sys2Proof/Machine/Sets.lean ====
section
/-! DEFINITION. What the header unit writes beside slices (R61 to R71, R124): profile, level and tier, HRD, VUI, tool flags, the parameter sets and SEI
messages of an access unit, and the blank picture. A set or message is the list of the syntax elements that the spec fixes, by their
names in the standards; how a list becomes bits is the standards' (a free value: log entry 86). -/

namespace Sys2Proof.Machine

/-- Syntax elements by name. -/
abbrev Elems := List (String × Int)

/-! ### Profile and level (R61, R62) -/

/-- The profile indication (R61). -/
def profileIdc (c : Coding) : Nat :=
  if c.codec = 0 then (if c.chroma = 1 then 4 else if c.depth = 0 then 1 else 2) else if c.chroma = 1 then 33 else 1

/-- The constraint flags of Main 4:2:2 10 (R61; PRESUMED from H.265: log entry 88). -/
def profileFlags (c : Coding) : Elems :=
  if c.codec = 0 ∧ c.chroma = 1 then
    [("general_max_12bit_constraint_flag", 1), ("general_max_10bit_constraint_flag", 1), ("general_max_8bit_constraint_flag", 0),
     ("general_max_422chroma_constraint_flag", 1), ("general_max_420chroma_constraint_flag", 0), ("general_max_monochrome_constraint_flag", 0),
     ("general_intra_constraint_flag", 0), ("general_one_picture_only_constraint_flag", 0), ("general_lower_bit_rate_constraint_flag", 1)]
  else []

/-- The level and tier pairs from the base level, in the order in which they are tried: (level, tier, bit rate) (R62). -/
def levelPairs (raster rate : Nat) (c : Coding) : List (Nat × Nat × Nat) :=
  ((List.range 9).filter (baseLevel raster rate ≤ ·)).flatMap fun l =>
    let (m, h) := levelRates c.codec l
    (l, 0, m * profileFactor c) :: (if h = 0 then [] else [(l, 1, h * profileFactor c)])

/-- The signalled level and tier: the first pair that admits `rate` bit/s (R62). -/
def levelPick (raster rate : Nat) (c : Coding) (bits : Nat) : Nat × Nat :=
  match (levelPairs raster rate c).find? fun p => decide (bits ≤ p.2.2) with
  | some p => (p.1, p.2.1)
  | none => (8, 1)

/-- The number of a level, ten times as it is written. -/
def levelNo (l : Nat) : Nat := [31, 40, 41, 50, 51, 52, 60, 61, 62].getD l 62

/-- general_level_idc (PRESUMED from the two standards: log entry 88). -/
def levelIdc (codec l : Nat) : Nat := if codec = 0 then 3 * levelNo l else 16 * (levelNo l / 10) + 3 * (levelNo l % 10)

/-! ### HRD and VUI (R70, R71) -/

/-- num_units_in_tick and time_scale (R70). -/
def tickOf (rate : Nat) : Nat × Nat := (if rate = 0 ∨ rate = 3 ∨ rate = 6 ∨ rate = 9 then 1001 else 1000, 1000 * chargedRate rate)

/-- The initial CPB removal delay in the 90 kHz clock (R70). -/
def initialDelay (slackNs : Nat) : Nat := slackNs * 90000 / 1000000000

/-- The HRD: one CPB (R70). `c` is C in bit/s and `cpb` B_cpb in bytes. -/
def hrdElems (rate c cpb : Nat) : Elems :=
  [("cpb_cnt_minus1", 0), ("bit_rate", c), ("cbr_flag", 0), ("cpb_size", 8 * cpb), ("num_units_in_tick", (tickOf rate).1), ("time_scale", (tickOf rate).2)]

/-- Colour code points: primaries, transfer, matrix (R71). -/
def colourPoints (c : Coding) : Nat × Nat × Nat :=
  match c.colour with
  | 0 => (1, 1, 1)
  | 1 => (9, if c.depth = 0 then 1 else 14, 9)
  | 2 => (9, 16, 9)
  | 3 => (9, 18, 9)
  | _ => (9, 14, 9)

/-- The VUI (R71). -/
def vuiElems (c : Coding) : Elems :=
  let (p, t, m) := colourPoints c
  ([("video_full_range_flag", 0), ("aspect_ratio_idc", 1), ("colour_primaries", p), ("transfer_characteristics", t), ("matrix_coeffs", m)] : Elems) ++
  (if c.chroma = 0 then [("chroma_loc_info_present_flag", 1), ("chroma_sample_loc_type_top_field", c.loc), ("chroma_sample_loc_type_bottom_field", c.loc)]
  else [("chroma_loc_info_present_flag", 0)] : Elems)

/-! ### Parameter sets (R61 to R71) -/

/-- The flags of the tools (R63, R65): those not used are 0. -/
def toolElems (codec : Nat) : Elems :=
  if codec = 0 then
    [("log2_ctb_size", 6), ("log2_min_cb_size", 3), ("log2_min_tb_size", 2), ("log2_max_tb_size", 5), ("max_transform_hierarchy_depth", 2),
     ("amp_enabled_flag", 1), ("strong_intra_smoothing_enabled_flag", 1), ("transform_skip_enabled_flag", 1), ("log2_max_transform_skip_size", 2),
     ("sign_data_hiding_enabled_flag", 1), ("scaling_list_enabled_flag", 0), ("cu_qp_delta_enabled_flag", 1), ("diff_cu_qp_delta_depth", 0),
     ("max_num_merge_cand", 5), ("sps_temporal_mvp_enabled_flag", 1), ("weighted_pred_flag", 0), ("weighted_bipred_flag", 0),
     ("sample_adaptive_offset_enabled_flag", 1), ("tiles_enabled_flag", 0), ("entropy_coding_sync_enabled_flag", 0),
     ("dependent_slice_segments_enabled_flag", 0), ("pcm_enabled_flag", 0), ("transquant_bypass_enabled_flag", 0), ("sps_range_extension_flag", 0),
     ("pps_range_extension_flag", 0), ("pps_loop_filter_across_slices_enabled_flag", 0)]
  else
    [("log2_ctu_size", 7), ("log2_min_cb_size", 3), ("max_mtt_hierarchy_depth", 2), ("qtbtt_dual_tree_intra_flag", 0), ("log2_max_tb_size", 6),
     ("sps_mrl_enabled_flag", 1), ("sps_cclm_enabled_flag", 1), ("sps_isp_enabled_flag", 0), ("sps_mip_enabled_flag", 0), ("sps_bdpcm_enabled_flag", 0),
     ("sps_mts_enabled_flag", 0), ("sps_lfnst_enabled_flag", 0), ("sps_sbt_enabled_flag", 0), ("sps_transform_skip_enabled_flag", 1),
     ("log2_transform_skip_max_size", 3), ("sps_dep_quant_enabled_flag", 1), ("sps_joint_cbcr_enabled_flag", 1), ("sps_sign_data_hiding_enabled_flag", 0),
     ("sps_explicit_scaling_list_enabled_flag", 0), ("max_num_merge_cand", 6), ("sps_mmvd_enabled_flag", 1), ("sps_gpm_enabled_flag", 0),
     ("sps_temporal_mvp_enabled_flag", 1), ("sps_sbtmvp_enabled_flag", 0), ("sps_amvr_enabled_flag", 0), ("sps_affine_enabled_flag", 0),
     ("sps_bcw_enabled_flag", 0), ("sps_ciip_enabled_flag", 0), ("sps_dmvr_enabled_flag", 0), ("sps_bdof_enabled_flag", 0), ("sps_prof_enabled_flag", 0),
     ("sps_weighted_pred_flag", 0), ("sps_weighted_bipred_flag", 0), ("sps_sao_enabled_flag", 1), ("sps_alf_enabled_flag", 1), ("sps_ccalf_enabled_flag", 0),
     ("sps_lmcs_enabled_flag", 0), ("sps_entropy_coding_sync_enabled_flag", 0), ("sps_palette_enabled_flag", 0), ("sps_ibc_enabled_flag", 0),
     ("sps_act_enabled_flag", 0), ("sps_subpic_info_present_flag", 0), ("sps_ref_pic_resampling_enabled_flag", 0), ("sps_virtual_boundaries_enabled_flag", 0),
     ("sps_gdr_enabled_flag", 1), ("pps_loop_filter_across_tiles_enabled_flag", 0), ("pps_loop_filter_across_slices_enabled_flag", 0)]

/-- Tiles and slices as signalled (R64). -/
def layoutElems (raster codec : Nat) : Elems :=
  if codec = 0 then [("tiles_enabled_flag", 0)]
  else if raster = 3 then
    [("num_tile_columns", 4), ("tile_column_width", sliceCtus 3 1), ("num_tile_rows", ctuRows 3 1), ("tile_row_height", 1), ("rect_slice_flag", 1),
     ("num_slices_in_pic", 4 * ctuRows 3 1)]
  else [("num_tile_columns", 1), ("num_tile_rows", 1), ("rect_slice_flag", 1), ("slice_height", 1), ("num_slices_in_pic", ctuRows raster 1)]

/-- The sequence and video parameter sets' elements (R61, R62, R64, R66, R68, R70, R71). -/
def seqElems (raster rate refs : Nat) (c : Coding) (bits cpb : Nat) : Elems :=
  let (l, t) := levelPick raster rate c bits
  ([("vps_video_parameter_set_id", 0), ("sps_video_parameter_set_id", 0), ("sps_seq_parameter_set_id", 0),
    ("general_profile_idc", profileIdc c)] : Elems) ++
  profileFlags c ++
  ([("general_level_idc", levelIdc c.codec l), ("general_tier_flag", t), ("chroma_format_idc", (if c.chroma = 0 then 1 else 2 : Nat)),
   ("pic_width", width raster), ("pic_height", height raster), ("conformance_window_flag", 0), ("bit_depth_luma", depthBits c),
   ("bit_depth_chroma", depthBits c), ("log2_max_pic_order_cnt_lsb", 16), ("sps_max_num_reorder_pics", 0), ("sps_max_latency_increase_plus1", 0),
   ("max_sub_layers", 1), ("max_dec_pic_buffering", (refs + 1 : Nat))] : Elems) ++
  toolElems c.codec ++ vuiElems c ++ hrdElems rate bits cpb

/-- The picture parameter set's elements. -/
def picElems (raster : Nat) (c : Coding) : Elems :=
  [("pps_pic_parameter_set_id", 0), ("pps_seq_parameter_set_id", 0)] ++ layoutElems raster c.codec

/-! ### Access units (R66, R68, R69) -/

/-- The writer's bits of a parameter set or message: a free value of its kind, its elements and its data bytes (log entry 86). -/
opaque Config.rbsp : String → Elems → Bytes → Bytes

/-- A parameter set or SEI message: its name, elements and data. -/
structure AuUnit where
  kind  : String
  elems : Elems
  data  : Bytes := []
deriving DecidableEq, Repr

/-- NAL unit types of the header unit's units (PRESUMED from the two standards: log entry 88). -/
def unitNal (codec : Nat) (kind : String) : Nat :=
  if kind = "AUD" then (if codec = 0 then 35 else 20)
  else if kind = "VPS" then 32
  else if kind = "SPS" then (if codec = 0 then 33 else 15)
  else if kind = "PPS" then (if codec = 0 then 34 else 16)
  else if codec = 0 then 39 else 23

/-- The first picture, a multiple of the charged rate, or a picture in which a sweep begins (R69). -/
def Chan.psUnit (c : Chan) (frame : Nat) : Bool :=
  decide ((frame - c.startFrame) % chargedRate c.rate = 0) || (c.rc.sweeps.any fun w => w.start = frame)

/-- The access unit with a buffering period before picture `frame`. -/
def Chan.lastPs (c : Chan) (frame : Nat) : Nat :=
  let a := c.startFrame + (frame - 1 - c.startFrame) / chargedRate c.rate * chargedRate c.rate
  ((c.rc.sweeps.map (·.start)).filter (· < frame)).foldl max a

/-- The captions of a picture: those whose RTP timestamp falls in its frame period (R69). -/
def State.captionsOf (s : State) (n frame : Nat) : Bytes :=
  let c := s.chan n
  let (on, _, _, flow) := c.sei
  if on = 0 then [] else
  let at' (f : Nat) := (c.gridBase + (f - c.startFrame)) * (period c.rate).1 * 90000 / (period c.rate).2
  match s.flowIn flow with
  | none => []
  | some x => (x.caps.filter fun p => decide ((p.1 + 2 ^ 32 - at' frame % 2 ^ 32) % 2 ^ 32 < at' (frame + 1) - at' frame)).flatMap fun p => p.2.map (BitVec.ofNat 8)

/-- The units of a prefix record, in order (R68, R69). -/
def State.prefixUnits (s : State) (n frame : Nat) : List AuUnit :=
  let c := s.chan n
  let k := c.coding
  let ps := c.psUnit frame
  let slack := s.latNs n - c.lminStart
  let (_, mdcv, cll, _) := c.sei
  let sweep := c.rc.sweeps.find? fun w => w.start = frame
  let seq := seqElems c.raster c.rate c.refs k c.cRate (bCpb c.cRate slack 0)
  let caps := s.captionsOf n frame
  [{ kind := "AUD", elems := [] }] ++
  (if ps then
    (if k.codec = 0 then [{ kind := "VPS", elems := seq }] else []) ++ [{ kind := "SPS", elems := seq }, { kind := "PPS", elems := picElems c.raster k }] ++
      [{ kind := "SEI 0", elems := [("initial_cpb_removal_delay", initialDelay slack)] }]
   else []) ++
  [{ kind := "SEI 1", elems := [("cpb_removal_delay", if frame = c.startFrame then 0 else (frame : Int) - c.lastPs frame), ("dpb_output_delay", 0)] }] ++
  (match sweep with
    | some w => if k.codec = 0 then [{ kind := "SEI 6", elems := [("recovery_poc_cnt", (w.len : Int) - 1), ("exact_match_flag", 1), ("broken_link_flag", 0)] }] else []
    | none => []) ++
  (if ps ∧ mdcv.any (· ≠ 0) then [{ kind := "SEI 137", elems := [], data := mdcv }] else []) ++
  (if ps ∧ cll ≠ 0 then [{ kind := "SEI 144", elems := [], data := toLe 4 cll }] else []) ++
  (if ps ∧ k.colour = 4 then [{ kind := "SEI 147", elems := [("preferred_transfer_characteristics", 18)] }] else []) ++
  (if caps = [] then [] else [{ kind := "SEI 4", elems := [], data := caps }])

/-- The prefix record's NAL units. The header unit never writes more than 512 bytes (R111): of a longer record the rest is not written
(log entry 86). -/
def State.prefixNal (s : State) (n frame : Nat) : Bytes :=
  let codec := (s.chan n).coding.codec
  ((s.prefixUnits n frame).flatMap fun u => nalUnit codec (unitNal codec u.kind) (Config.rbsp u.kind u.elems u.data)).take 512

/-- The blank picture (R67): every slice of it intra DC with zero residual. -/
def Chan.blankNal (c : Chan) : Bytes :=
  (List.range c.rows).flatMap fun row => (List.range (sliceCols c.raster)).flatMap fun col =>
    let i : SliceIn := {
      raster := c.raster, coding := c.coding, cur := fun _ _ _ => midLevel c.coding, refs := [], allIntra := true, set := c.rc.set, cap := 0, qp := c.rc.set.tq,
      forms := [], units := [], sweeps := [], frame := c.startFrame, poc := 0, row, col }
    let ctus := (List.range i.ctus).map fun k =>
      { c := k, qp := i.qp, cus := i.floorCus k, forced := false, floor := true, bound := floorCtu i.codec true, found := [] : CtuOut }
    nalUnit c.coding.codec (natIdr c.coding.codec) ((Config.sliceBits i (i.header (natIdr c.coding.codec) false) ctus).take ((hdrBits i + (ctus.map (·.bound)).sum) / 8) ++ [0x80])

end Sys2Proof.Machine
end

