-- ==== Sys2Proof/Machine/Recon.lean ====
section
/-! DEFINITION. Pictures in the memories: composed rows and reference bands in the channel's Central Store pages (R26, R41, R93), and reconstructions
in their frame buffers as units with their size table (R99, R103, R104, R108). -/

namespace Sys2Proof.Machine

/-! ### Pages of a channel (R93, R194; the order of what they hold is a DESIGN CHOICE: log entry 85) -/

/-- The store address of a region's offset through its pages. -/
def pageAt (pages : List Nat) (o : Nat) : Nat := pages.getD (o / 4096) 0 * 4096 + o % 4096

/-- Store bytes of a region; lines written carry good checks. -/
def pageStore (pages : List Nat) : Nat → Bytes → Mem → Mem
  | _, [], m => m
  | o, b :: r, m =>
    let a := pageAt pages o
    pageStore pages (o + 1) r { csWrite m a b with csFlip := tset [] m.csFlip (a / 64) [] }

/-- Store lines of `n` bytes of a region. -/
def pageLines (pages : List Nat) (o n : Nat) : List Nat :=
  ((List.range (n / 64 + 2)).map fun i => pageAt pages (min (o + 64 * i) (o + n - 1)) / 64).dedup

/-- A channel's pages of composed rows, and of the band of a list position. -/
def Chan.compPages (c : Chan) : List Nat := ((c.adm.map (·.ringPages)).getD []).take (composedPages c.raster c.coding)
def Chan.bandRing (c : Chan) (pos : Nat) : List Nat :=
  (((c.adm.map (·.ringPages)).getD []).drop (composedPages c.raster c.coding + pos * bandPages c.raster c.coding)).take (bandPages c.raster c.coding)

/-- Bytes of one CTU row, and the offset of a plane in it. -/
def Chan.rowBytes (c : Chan) : Nat := ctuH c.coding.codec * width c.raster * dramBpp8 c.coding / 8
def Chan.planeOff (c : Chan) (comp : Nat) : Nat :=
  let w := contBits c.coding
  let n := ctuH c.coding.codec
  if comp = 0 then 0 else (n * width c.raster * w + (comp - 1) * (n / subH c.coding * (width c.raster / 2) * w)) / 8

/-- The number of a row slot since the channel's start; the ring slot it takes among `k`. -/
def Chan.slotNo (c : Chan) (frame row : Nat) : Nat := (frame - c.startFrame) * c.rows + row

/-- Offset of a sample's line segment in a row: component, line in the row, column. -/
def Chan.segOff (c : Chan) (comp line x : Nat) : Nat := c.planeOff comp + (line * planeW c.raster comp + x) * contBits c.coding / 8

/-- A stored sample of a row that begins at offset `base` of a region. -/
def State.rowSample (s : State) (c : Chan) (pages : List Nat) (base row comp x y : Nat) : Nat :=
  let (y0, _) := planeRows c.raster c.coding comp row
  unpackAt (contBits c.coding) (fun i => csRead s.mem (pageAt pages (base + c.planeOff comp + i))) ((y - y0) * planeW c.raster comp + x)

/-- Store columns `x0` to `x1` − 1 (of luma; chroma in step) of a row. -/
def State.rowStore (s : State) (c : Chan) (pages : List Nat) (base row x0 x1 : Nat) (f : Nat → Nat → Nat → Nat) : State :=
  let m := [0, 1, 2].foldl (fun m comp =>
    let (y0, h) := planeRows c.raster c.coding comp row
    let a := if comp = 0 then x0 else x0 / 2
    let b := if comp = 0 then x1 else x1 / 2
    (List.range h).foldl (fun m j =>
      pageStore pages (base + c.segOff comp j a) (packSamples (contBits c.coding) ((List.range (b - a)).map fun i => f comp (a + i) (y0 + j))) m) m) s.mem
  { s with mem := m }

/-- Store lines that hold columns `x0` to `x1` − 1 of a row. -/
def Chan.rowLines (c : Chan) (pages : List Nat) (base row x0 x1 : Nat) : List Nat :=
  [0, 1, 2].flatMap fun comp =>
    let (_, h) := planeRows c.raster c.coding comp row
    let a := if comp = 0 then x0 else x0 / 2
    let b := if comp = 0 then x1 else x1 / 2
    (List.range h).flatMap fun j => pageLines pages (base + c.segOff comp j a) ((b - a) * contBits c.coding / 8)

/-- The first damaged store line of a list. -/
def State.badAmong (s : State) (l : List Nat) : Option Nat := l.find? fun k => s.csBad k

/-! ### Composed rows -/

/-- Where a composed row begins in its pages: three row slots in turn (log entry 12). -/
def Chan.compBase (c : Chan) (frame row : Nat) : Nat := c.slotNo frame row % 3 * c.rowBytes

/-- A composed sample of a row. -/
def State.compSample (s : State) (n frame row comp x y : Nat) : Nat :=
  let c := s.chan n
  s.rowSample c c.compPages (c.compBase frame row) row comp x y

/-- The report times of a row's columns (R60). -/
def Chan.reports (c : Chan) (frame row : Nat) : List Nat := tget [] c.composed (frame * 1024 + row)

/-! ### Reference bands (R93, R94) -/

/-- CTU rows of a band. -/
def Chan.bandRows (c : Chan) : Nat := 2 * (256 / ctuH c.coding.codec) + 2

/-- The ring slot of row `row` staged for picture `frame`. -/
def Chan.bandSlot (c : Chan) (frame row : Nat) : Nat := c.slotNo frame row % c.bandRows

/-- What a list position's band holds for a row of a picture, once it is staged. -/
def Chan.bandAt (c : Chan) (pos frame row : Nat) : Option BandRow :=
  (c.bands.find? fun e => e.1 = 16 * pos + c.bandSlot frame row && e.2.frame = frame && e.2.row = row).map (·.2)

/-- A reference sample as an engine reads it: outside the picture the nearest edge sample (R86, R94). -/
def State.bandSample (s : State) (n pos frame comp : Nat) (x y : Int) : Nat :=
  let c := s.chan n
  let xx := padTo x (planeW c.raster comp)
  let yy := padTo y (planeH c.raster c.coding comp)
  let row := yy / (if comp = 0 then ctuH c.coding.codec else ctuH c.coding.codec / subH c.coding)
  s.rowSample c (c.bandRing pos) (c.bandSlot frame row * c.rowBytes) row comp xx yy

/-- The rows of a reference that the slices of CTU row `row` read (R90, R94). -/
def Chan.bandNeeds (c : Chan) (row : Nat) : List Nat :=
  let a := 256 / ctuH c.coding.codec
  (List.range c.rows).filter fun k => decide (row ≤ k + a) && decide (k ≤ row + a)

/-! ### Reconstructions (R103) -/

/-- Units of a plane across, and down. -/
def Chan.unitGrid (c : Chan) (comp : Nat) : Nat × Nat := (cdiv (planeW c.raster comp) 64, cdiv (planeH c.raster c.coding comp) 8)

/-- The number of a unit: luma units, then those of Cb, then those of Cr, each in raster order (DESIGN CHOICE: log entry 85). -/
def Chan.unitNo (c : Chan) (comp ux uy : Nat) : Nat :=
  let (w, h) := c.unitGrid comp
  (if comp = 0 then 0 else (c.unitGrid 0).1 * (c.unitGrid 0).2 + (comp - 1) * (w * h)) + uy * w + ux

/-- Address of a unit, and of its size-table entry, in a buffer at `a`. -/
def Chan.unitAddr (c : Chan) (a k : Nat) : Nat := a + k * rawLines c.coding * 64
def Chan.sizeAddr (c : Chan) (a k : Nat) : Nat := a + c.bufParts.1 + c.bufParts.2.1 + 2 * k

/-- The units of a CTU row, in slice column `col` (or the whole width for none), as (component, ux, uy). -/
def Chan.unitsOf (c : Chan) (row : Nat) (col : Option Nat) : List (Nat × Nat × Nat) :=
  [0, 1, 2].flatMap fun comp =>
    let (y0, h) := planeRows c.raster c.coding comp row
    let (x0, w) := match col with | some k => planeCols c.raster comp k | none => (0, planeW c.raster comp)
    (List.range (cdiv h 8)).flatMap fun j => (List.range (cdiv w 64)).map fun i => (comp, x0 / 64 + i, y0 / 8 + j)

/-- A sample of a picture as it was last written to a buffer. -/
def Ref.sample (r : Ref) (c : Chan) (comp x y : Nat) : Nat :=
  if r.const then midLevel c.coding else
  let hc := if comp = 0 then ctuH c.coding.codec else ctuH c.coding.codec / subH c.coding
  let row := y / hc
  let col := x / (planeW c.raster comp / sliceCols c.raster)
  (tget {} r.recon (4 * row + col)).at c.raster c.coding row col comp x y

/-- The samples of a unit out of a picture's. -/
def Chan.unitOf (c : Chan) (f : Nat → Nat → Nat → Nat) (u : Nat × Nat × Nat) : List Nat :=
  unitSamples (planeW c.raster u.1) (planeH c.raster c.coding u.1) u.2.1 u.2.2 (f u.1)

/-- Write one unit and its size-table entry; it is counted (R103, R108), and its lines pass the channel's check value unit (R426). -/
def State.unitWrite (s : State) (n : Nat) (c : Chan) (a : Nat) (f : Nat → Nat → Nat → Nat) (u : Nat × Nat × Nat) : State :=
  let k := c.unitNo u.1 u.2.1 u.2.2
  let l := c.unitOf f u
  let (lines, bytes) := unitStored c.coding l
  let s := s.putBytes (c.unitAddr a k) bytes
  let s := s.cvuLines (512 + n) ((List.range lines).map fun i => c.unitAddr a k + 64 * i)
  let s := s.setBytes (c.sizeAddr a k) (toLe 2 (lines + 16 * ucheck (depthBits c.coding) (c.unitAddr a k) l))
  let s := s.incWrap Reg.REF_COMPUNITS_UNITS
  if lines = rawLines c.coding then s.incWrap Reg.REF_COMPRAW_UNITS else s

/-- The reconstruction of slice column `col` of CTU row `row` is written to a descriptor's buffer, with its motion field (R99, R103). -/
def State.reconWrite (s : State) (n d row col : Nat) (px : RowPix) (mf : Bytes) : State :=
  let c := s.chan n
  let r := s.ref d
  let r' := { r with recon := tset {} r.recon (4 * row + col) px }
  let s := s.setRef d r'
  let s := (c.unitsOf row (some col)).foldl (fun s u => s.unitWrite n c r.addr (r'.sample c) u) s
  let whole (r : Ref) : Bool := (List.range (sliceCols c.raster)).all fun k => (keys r.recon).contains (4 * (c.rows - 1) + k)
  let s := if whole r' && !whole r then s.cvuEnd (512 + n) else s
  let (y0, h) := planeRows c.raster c.coding 0 row
  let (x0, w) := planeCols c.raster 0 col
  let bw := cdiv (width c.raster) 16
  let (lu, cu, tb) := c.bufParts
  (List.range (cdiv h 16)).foldl (fun s j =>
    s.setBytes (r.addr + lu + cu + tb + ((y0 / 16 + j) * bw + x0 / 16) * 8)
      ((List.range (cdiv w 16 * 8)).map fun i => mf.getD (j * (cdiv w 16 * 8) + i) 0)) s

/-- A unit as the band fill reads it: nothing where a line of it or of its table entry is uncorrectable, where LINES is reserved, or where UCHECK
fails (R103, R104). -/
def State.unitLoad (s : State) (c : Chan) (r : Ref) (u : Nat × Nat × Nat) : Option (List Nat) :=
  let k := c.unitNo u.1 u.2.1 u.2.2
  let e := leNat [s.byte (c.sizeAddr r.addr k), s.byte (c.sizeAddr r.addr k + 1)]
  let lines := e % 16
  let a := c.unitAddr r.addr k
  if s.badLine (c.sizeAddr r.addr k) || lines = 0 || rawLines c.coding < lines || (List.range lines).any (fun i => s.badLine (a + 64 * i)) then none else
  let l := unitRead c.coding lines ((List.range (64 * lines)).map fun i => s.byte (a + i)) (c.unitOf (r.sample c) u)
  if ucheck (depthBits c.coding) a l = e / 16 then some l else none

/-- Whether every unit of a CTU row of a picture reads well. -/
def State.rowGood (s : State) (n d row : Nat) : Bool :=
  let c := s.chan n
  let r := s.ref d
  r.const || (c.unitsOf row none).all fun u => (s.unitLoad c r u).isSome

/-- Stage a CTU row of a descriptor's picture in the band of a list position (R94). -/
def State.bandStage (s : State) (unit n pos frame row d : Nat) : State :=
  let c := s.chan n
  let r := s.ref d
  let f (comp x y : Nat) : Nat :=
    if r.const then midLevel c.coding else
    ((s.unitLoad c r (comp, x / 64, y / 8)).getD []).getD (y % 8 * 64 + x % 64) 0
  let s := s.rowStore c (c.bandRing pos) (c.bandSlot frame row * c.rowBytes) row 0 (width c.raster) f
  let s := s.cvuLines (920 + unit) ((c.rowLines (c.bandRing pos) (c.bandSlot frame row * c.rowBytes) row 0 (width c.raster)).map storeLine)
  let c := s.chan n
  s.setChan n { c with bands := tins c.bands (16 * pos + c.bandSlot frame row) { frame, row, desc := d, ns := s.ns } }

/-! ### The descriptor as it is read back (R108) -/

/-- A write of DESCSEL takes effect at once, and reads the 64 bytes of the descriptor from DRAM through the store's control port; an uncorrectable descriptor
marks its picture MISSING (R104, R108). -/
def State.descSel (s : State) (v : Nat) : State :=
  let s := s.wr Reg.REF_DESCSEL_INDEX v
  let idx := s.rd Reg.REF_DESCSEL_INDEX
  let a := s.descAddr idx
  if s.badLine a then (s.lineRead a 47).markMissing idx 2 else
  s.forEach (List.range 16) fun s k => s.wr Reg.REF_DESCWORD_DATA (leNat ((List.range 4).map fun i => s.byte (a + 4 * k + i))) 0 k

def execRefDescsel (idx : Fin 1024) (s : State) : Host.Outcome State Fault Refusal :=
  finish (
    let s := s.hostAccess Reg.REF_DESCSEL_INDEX
    if !s.fclk then s else s.descSel idx)

end Sys2Proof.Machine
end

