-- ==== Sys2Proof/Machine/Compose.lean ====
section
/-! DEFINITION. What a composed sample is: surfaces, scaling, colour matrix, blending, the emergency layer and output
conversion (R134, R137, R139, R142 to R149, R158, R159). -/

namespace Sys2Proof.Machine

/-- Four components of a sample: three colours and alpha. -/
structure Px where
  a : Nat := 0
  b : Nat := 0
  c : Nat := 0
  al : Nat := 0
deriving DecidableEq, Repr

/-! ### Surfaces (R134) -/

/-- Expand to 10 bits by bit replication. -/
def exp8 (v : Nat) : Nat := v * 4 + v / 64
def exp6 (v : Nat) : Nat := v * 16 + v / 4
def exp5 (v : Nat) : Nat := v * 32 + v

/-- A little-endian container at an internal address. -/
def State.word (s : State) (a n : Nat) : Nat := leNat ((List.range n).map fun i => s.byte (a + i))

/-- Bytes of a surface row's pixel span, per pixel; 0 for an input flow. -/
def bpp (fmt : Nat) : Nat := match fmt with | 0 => 4 | 1 => 1 | 2 => 2 | 3 => 4 | 4 => 4 | 5 => 3 | _ => 0

/-- A layer's flow for input, with the grid frame that the channel's frame reads. -/
def State.gridOf (s : State) (n frame : Nat) : Nat := (s.chan n).gridBase + (frame - (s.chan n).startFrame)

/-- 12-bit samples become 10-bit ones. -/
def to10 (infmt v : Nat) : Nat := if infmt = 1 then min 1023 ((v + 2) / 4) else v

/-- An input pixel at 10 bits. -/
def State.inputPx (s : State) (f gf line px : Nat) : Nat × Nat × Nat :=
  match s.flowIn f with
  | none => (64, 512, 512)
  | some x =>
    match x.fmt with
    | none => (64, 512, 512)
    | some m => let (a, b, c) := s.ringPx x m gf line px; (to10 m.infmt a, to10 m.infmt b, to10 m.infmt c)

/-- Whether a binding carries its chroma at half width, and at half height. -/
def State.subX (s : State) (b : LBind) : Bool :=
  b.fmt = 4 || b.fmt = 5 || (b.fmt = 6 && (match s.flowIn b.flow with | some x => (match x.fmt with | some m => m.infmt ≠ 2 | none => true) | none => true))
def subY (b : LBind) : Bool := b.fmt = 5

/-- A sample of a surface plane at plane coordinates, expanded to 10 bits: component 0 to 2, or 3 for alpha. -/
def State.surf (s : State) (b : LBind) (gf comp x y : Nat) : Nat :=
  let row := b.base + y * b.pitch
  if b.fmt = 0 ∨ b.fmt = 3 then
    let w := s.word (row + 4 * x) 4
    exp8 (if comp = 3 then w / 2 ^ 24 else w / 2 ^ (16 - 8 * comp) % 256)
  else if b.fmt = 1 then (if comp = 3 then exp8 (s.byte (row + x)).toNat else 0)
  else if b.fmt = 2 then
    let w := s.word (row + 2 * x) 2
    if comp = 0 then exp5 (w / 2048) else if comp = 1 then exp6 (w / 32 % 64) else if comp = 2 then exp5 (w % 32) else 1023
  else if b.fmt = 4 then
    if comp = 3 then 1023
    else if comp = 0 then s.word (row + x / 2 * 8 + 2 + x % 2 * 4) 2 % 1024
    else s.word (row + x * 8 + (comp - 1) * 4) 2 % 1024
  else if b.fmt = 5 then
    if comp = 3 then 1023
    else if comp = 0 then s.word (row + 2 * x) 2 % 1024
    else s.word (b.base + b.pitch * b.h + y * b.pitch + 4 * x + 2 * (comp - 1)) 2 % 1024
  else
    let sx := if s.subX b && comp ≠ 0 then 2 * x else x
    let (p, q, r) := s.inputPx b.flow gf y sx
    if comp = 0 then p else if comp = 1 then q else if comp = 2 then r else 1023

/-! ### Scaler (R139, R142) -/

/-- Clamp an integer index. -/
def clampI (z : Int) (hi : Nat) : Nat := min hi z.toNat

/-- The taps of a phase of an image's bank: 10-bit numbers that sum to 256, and the identity at phase 0 and where the image's taps break that
rule (R142). -/
def bootPhase (ocn bank dir phase : Nat) : List Int :=
  let n := if dir = 0 then 8 else 6
  let mid := if dir = 0 then 3 else 2
  let ident : List Int := (List.range n).map fun i => if i = mid then 256 else 0
  if phase = 0 then ident else
  let l := (List.range n).map fun i => ofTwos 10 (toTwos 10 (Config.bootTap ocn bank dir phase i))
  let m := 256 - ((l.sum : Int) - l.getD mid 0)
  if -512 ≤ m ∧ m ≤ 511 then l.set mid m else ident

/-- A bank of an image. -/
def bootBank (ocn bank : Nat) : Bank :=
  { h := (List.range 64).flatMap (bootPhase ocn bank 0), v := (List.range 64).flatMap (bootPhase ocn bank 1) }

/-- DEV_BOOT loads the banks of the active image (R142). -/
def State.loadBanks (s : State) : State :=
  { s with cmp := { s.cmp with banks := (List.range 4).foldl (fun t b => tins t b (bootBank s.actImg.ocn b)) [] } }

/-- A tap of a bank; there is none before the first boot. -/
def Bank.tap (bk : Option Bank) (dir phase t : Nat) : Int :=
  match bk with
  | none => 0
  | some b => if dir = 0 then b.h.getD (8 * phase + t) 0 else b.v.getD (6 * phase + t) 0

/-- The bank in effect on a channel. -/
def State.bankOf (s : State) (n bank : Nat) : Option Bank :=
  match s.cmp.chBank.find? fun e => e.1 = 4 * n + bank with
  | some (_, b) => b
  | none => (s.cmp.banks.find? fun e => e.1 = bank).map (·.2)

/-- The position of output sample `x` in 16.16 (R139). -/
def scalePos (src dst x : Nat) : Int :=
  let step := src * 65536 / max 1 dst
  (step / 2 : Nat) - 32768 + (x * step : Nat)

/-- A filter at a position: `n` taps from `ip - off`. -/
def filterAt (tap : Nat → Nat → Int) (n off : Nat) (hi : Nat) (pos : Int) (v : Nat → Nat) : Nat :=
  let ip := pos.fdiv 65536
  let phase := ((pos.fdiv 1024) % 64).toNat
  let acc := (List.range n).foldl (fun a t => a + tap phase t * (v (clampI (ip - off + t) hi) : Int)) 0
  clampI ((acc + 128).fdiv 256) 1023

/-- A scaled sample of a component of a layer at raster position (x, y). -/
def State.scaled (s : State) (n gf : Nat) (v : LSet) (b : LBind) (comp x y : Nat) : Nat :=
  let sx := v.src.getD 0 0
  let sy := v.src.getD 1 0
  let sw := v.src.getD 2 0
  let sh := v.src.getD 3 0
  let halfX := s.subX b && 1 ≤ comp && comp ≤ 2
  let halfY := subY b && 1 ≤ comp && comp ≤ 2
  let pw := if halfX then sw / 2 else sw
  let ph := if halfY then sh / 2 else sh
  let x0 := if halfX then sx / 2 else sx
  let y0 := if halfY then sy / 2 else sy
  let bk := s.bankOf n v.bank
  let dh := if v.predec then cdiv sh 2 else sh
  let dph := if v.predec then cdiv ph 2 else ph
  let px := scalePos sw (v.dst.getD 2 0) (x - v.dst.getD 0 0)
  let py := scalePos dh (v.dst.getD 3 0) (y - v.dst.getD 1 0)
  let hpos := if halfX then px.fdiv 2 else px
  let vpos := if halfY then (py - 32768).fdiv 2 else py
  let raw (i j : Nat) := s.surf b gf comp (x0 + i) (y0 + j)
  let line (i j : Nat) := if v.predec then (if 2 * j + 1 < ph then (raw i (2 * j) + raw i (2 * j + 1) + 1) / 2 else raw i (2 * j)) else raw i j
  let hs (j : Nat) := filterAt (Bank.tap bk 0) 8 3 (pw - 1) hpos fun i => line i j
  filterAt (Bank.tap bk 1) 6 2 (dph - 1) vpos hs

/-- Source lines of a plane that output line `y` of a layer reads: those under the taps of its vertical filter. -/
def srcLines (v : LSet) (b : LBind) (chroma : Bool) (y : Nat) : List Nat :=
  let sy := v.src.getD 1 0
  let sh := v.src.getD 3 0
  let half := subY b && chroma
  let ph := if half then sh / 2 else sh
  let y0 := if half then sy / 2 else sy
  let dh := if v.predec then cdiv sh 2 else sh
  let dph := if v.predec then cdiv ph 2 else ph
  let py := scalePos dh (v.dst.getD 3 0) (y - v.dst.getD 1 0)
  let pos := if half then (py - 32768).fdiv 2 else py
  ((List.range 6).flatMap fun t =>
    let j := clampI (pos.fdiv 65536 - 2 + (t : Nat)) (dph - 1)
    if !v.predec then [y0 + j] else if 2 * j + 1 < ph then [y0 + 2 * j, y0 + 2 * j + 1] else [y0 + 2 * j]).dedup

/-- Memory lines that a surface layer reads for output line `y`, over the width of its source rectangle. -/
def layerLines (v : LSet) (b : LBind) (y : Nat) : List Nat :=
  let sx := v.src.getD 0 0
  let sw := v.src.getD 2 0
  let seg (base row n w : Nat) : List Nat := linesAt (base + row * b.pitch + sx * n / 2) (sw * w / 2)
  match b.fmt with
  | 5 => (srcLines v b false y).flatMap (fun r => seg b.base r 4 4) ++ (srcLines v b true y).flatMap fun r => seg (b.base + b.pitch * b.h) r 4 4
  | 6 => []
  | f => (srcLines v b false y).flatMap fun r => seg b.base r (2 * bpp f) (2 * bpp f)

/-! ### Colour matrix (R143, R144) -/

/-- Coefficients, pre and post of a MATRIX. -/
def matrixOf (m : Nat) (coef pre post : List Int) : List Int × List Int × List Int :=
  match m with
  | 0 => ([4096, 0, 0, 0, 4096, 0, 0, 0, 4096], [0, 0, 0], [0, 0, 0])
  | 1 => ([1049, 2058, 400, -605, -1189, 1794, 1794, -1502, -292], [0, 0, 0], [64, 512, 512])
  | 2 => ([746, 2508, 253, -411, -1383, 1794, 1794, -1629, -165], [0, 0, 0], [64, 512, 512])
  | 3 => ([921, 2378, 208, -501, -1293, 1794, 1794, -1650, -144], [0, 0, 0], [64, 512, 512])
  | _ => (coef, pre, post)

def matrixOut (m : List Int × List Int × List Int) (i : Nat) (inp : List Nat) : Nat :=
  let sum := (List.range 3).foldl (fun a j => a + m.1.getD (3 * i + j) 0 * ((inp.getD j 0 : Int) - m.2.1.getD j 0)) 0
  clampI ((sum + 2048).fdiv 4096 + m.2.2.getD i 0) 1023

/-! ### Blending (R145 to R147) -/

def premul (v a : Nat) : Nat := (v * a + 511) / 1023

/-- `over(S, D)` (R146). -/
def blendOver (sp d : Px) : Px :=
  let f (x y : Nat) := x + (y * (1023 - sp.al) + 511) / 1023
  { a := f sp.a d.a, b := f sp.b d.b, c := f sp.c d.c, al := f sp.al d.al }

def inRect (r : List Nat) (x y : Nat) : Bool :=
  decide (r.getD 0 0 ≤ x ∧ x < r.getD 0 0 + r.getD 2 0 ∧ r.getD 1 0 ≤ y ∧ y < r.getD 1 0 + r.getD 3 0)

/-- The premultiplied sample of a layer; transparent outside its rectangle, with no frame, or on a bad line (R157). -/
def State.layerPx (s : State) (n gf k : Nat) (bad : List (Nat × Nat)) (x y : Nat) : Px :=
  let l := s.layer (4 * n + k)
  match l.bnd with
  | none => {}
  | some b =>
    let v := l.act
    if !v.enable || !inRect v.dst x y || bad.contains (k, y) then {} else
    let comp (i : Nat) := s.scaled n gf v b i x y
    let apix := if b.fmt = 0 ∨ b.fmt = 1 ∨ b.fmt = 3 then comp 3 else 1023
    let al := (apix * v.galpha + 511) / 1023
    let cols : List Nat := if b.fmt = 1 then [v.fill % 1024, v.fill / 1024 % 1024, v.fill / 2 ^ 20 % 1024]
      else (let i := [comp 0, comp 1, comp 2]; let m := matrixOf v.matrix v.coef v.pre v.post; [matrixOut m 0 i, matrixOut m 1 i, matrixOut m 2 i])
    { a := premul (cols.getD 0 0) al, b := premul (cols.getD 1 0) al, c := premul (cols.getD 2 0) al, al := al }

/-- The static run of a channel's four layers, given ENABLE and STATIC of each (R147). -/
def runOf (ls : List (Bool × Bool)) : List Nat :=
  let top := ((List.range 4).filter fun k => let (e, st) := ls.getD k (false, false); e && !st).getLast?
  (List.range 4).filter fun k => let (e, st) := ls.getD k (false, false); e && st && (match top with | some t => decide (t < k) | none => true)

def State.runAct (s : State) (n : Nat) : List Nat :=
  runOf ((List.range 4).map fun k => ((s.layer (4 * n + k)).act.enable, (s.layer (4 * n + k)).act.static))

/-- The static run's sample S, from its layers. -/
def State.runLive (s : State) (n gf : Nat) (bad : List (Nat × Nat)) (x y : Nat) : Px :=
  (s.runAct n).foldl (fun acc k => blendOver (s.layerPx n gf k bad x y) acc) {}

/-- The tile of a raster that holds a position, and the DRAM address of a place in the tile pool (R152). -/
def tileNo (raster x y : Nat) : Nat := y / 64 * cdiv (width raster) 64 + x / 64
def State.tileAddr (s : State) (slot : Nat) : Nat := s.rd Reg.CMP_TILEBASE_ADDR + 20480 * slot

/-- A line of a tile is uncorrectable. -/
def State.tileBad (s : State) (slot : Nat) : Bool := (linesAt (s.tileAddr slot) 20480).any s.badLine

/-- A tile's 20,480 bytes: for each sample of its 64 lines of 64, Y, Cb, Cr and a of 10 bits in five bytes. The order is a DESIGN CHOICE (log
entry 85): the spec leaves the layout to the device. -/
def tileBytes (f : Nat → Nat → Px) : Bytes :=
  (List.range 4096).flatMap fun i =>
    let p := f (i % 64) (i / 64)
    toLe 5 (p.a % 1024 + 1024 * (p.b % 1024) + 2 ^ 20 * (p.c % 1024) + 2 ^ 30 * (p.al % 1024))

/-- A sample of a stored tile. -/
def State.tilePx (s : State) (slot x y : Nat) : Px :=
  let w := s.word (s.tileAddr slot + 5 * (y % 64 * 64 + x % 64)) 5
  { a := w % 1024, b := w / 1024 % 1024, c := w / 2 ^ 20 % 1024, al := w / 2 ^ 30 % 1024 }

/-- The static run's sample S (R152, R153, R157): from the cache while it is valid, where a tile that is not occupied is transparent and a bad one gives way to
the layers; else from the layers. -/
def State.runPx (s : State) (n gf : Nat) (bad : List (Nat × Nat)) (x y : Nat) : Px :=
  if !(s.cache n).valid then s.runLive n gf bad x y else
  match (s.cache n).tiles.find? fun e => e.1 = tileNo (s.chan n).raster x y with
  | none => {}
  | some (_, slot) => if s.tileBad slot then s.runLive n gf bad x y else s.tilePx slot x y

def black : Px := { a := 64, b := 512, c := 512, al := 1023 }

/-- The stack before the emergency layer. -/
def State.stackPx (s : State) (n gf : Nat) (bad : List (Nat × Nat)) (x y : Nat) : Px :=
  let run := s.runAct n
  let d := ((List.range 4).filter fun k => !run.contains k).foldl (fun d k => blendOver (s.layerPx n gf k bad x y) d) black
  if run = [] then d else blendOver (s.runPx n gf bad x y) d

/-! ### Emergency layer (R158, R159) -/

/-- Stored width, replication and offset of a variant's class. -/
def emShape (cls : Nat) : Nat × Nat × Nat :=
  if cls = 0 then (1280, 1, 0) else if cls = 1 then (1920, 1, 0xE1000) else if cls = 2 then (1920, 2, 0x2DC000) else (3840, 2, 0x4D7000)
def emBytes (cls : Nat) : Nat := if cls = 0 then 921600 else if cls = 3 then 8294400 else 2073600

/-- Store offset of the emergency partition. -/
def State.emBase (s : State) : Nat := s.rd Reg.CMP_EMBASE_ADDR - Config.csBase

/-- A colour of 8-bit RGB in the channel's YCbCr. -/
def emColour (colour rgb : Nat) : List Nat :=
  let i := [exp8 (rgb / 65536 % 256), exp8 (rgb / 256 % 256), exp8 (rgb % 256)]
  let m := matrixOf (if colour = 0 then 2 else 3) [] [] []
  [matrixOut m 0 i, matrixOut m 1 i, matrixOut m 2 i]

def mix (bg fg v : Nat) : Nat := ((bg : Int) + ((((fg : Int) - bg) * v + 511).fdiv 1023)).toNat

/-- The emergency sample at a position; a bad line has coverage 0 (R198). -/
def State.emPx (s : State) (n : Nat) (bad : List (Nat × Nat)) (x y : Nat) : Px :=
  let c := s.chan n
  let cls := c.raster
  let (w, k, o) := emShape cls
  let valid := (s.rd Reg.CMP_EMVALID_VALID).testBit cls
  let v := if valid && !bad.contains (4, y) then exp8 (csRead s.mem (s.emBase + o + y / k * w + x / k)).toNat else 0
  let fg := emColour c.coding.colour (s.rd Reg.CMP_EMFG_RGB 0 cls)
  let bg := emColour c.coding.colour (s.rd Reg.CMP_EMBG_RGB 0 cls)
  let al := mix (s.rd Reg.CMP_EMALPHA_BGALPHA) (s.rd Reg.CMP_EMALPHA_FGALPHA) v
  let f (i : Nat) := premul (mix (bg.getD i 0) (fg.getD i 0) v) al
  { a := f 0, b := f 1, c := f 2, al := al }

/-- The working sample of a channel's stack. -/
def State.workPx (s : State) (n gf : Nat) (em : Bool) (bad : List (Nat × Nat)) (x y : Nat) : Px :=
  if !em then s.stackPx n gf bad x y
  else blendOver (s.emPx n bad x y) (if s.rd Reg.CMP_EMCTL_EMMODE = 1 then black else s.stackPx n gf bad x y)

/-! ### Output conversion (R148, R149) -/

/-- The bit-depth step. The spec states no clamp where (v + 2) >> 2 gives 256 for an 8-bit channel: 255 there is a DESIGN CHOICE (log entry 93). -/
def depthStep (depth v : Nat) : Nat := if depth = 0 then min 255 ((v + 2) / 4) else v

/-- Whether a working sample comes from L0 alone; in FULL mode of the emergency layer none does (R159). -/
def State.l0Alone (s : State) (n gf : Nat) (em : Bool) (bad : List (Nat × Nat)) (x y : Nat) : Bool :=
  inRect (s.layer (4 * n)).act.dst x y && !bad.contains (0, y) &&
    [1, 2, 3].all (fun k => (s.layerPx n gf k bad x y).al = 0) && (!em || (s.rd Reg.CMP_EMCTL_EMMODE = 0 && (s.emPx n bad x y).al = 0))

/-- L0 passes its own samples through: its layout is the channel's, unscaled, with MATRIX 0 and GALPHA 1,023. -/
def State.l0Same (s : State) (n : Nat) : Bool :=
  let l := s.layer (4 * n)
  let c := (s.chan n).coding
  match l.bnd with
  | none => false
  | some b =>
    let lay := if c.chroma = 1 then b.fmt = 4 || (b.fmt = 6 && s.subX b) else b.fmt = 5 && c.loc = 0
    l.act.enable && lay && l.act.matrix = 0 && l.act.galpha = 1023 && !l.act.predec &&
      l.act.src.getD 2 0 = l.act.dst.getD 2 0 && l.act.src.getD 3 0 = l.act.dst.getD 3 0

/-- A luma output sample. -/
def State.lumaOut (s : State) (n gf : Nat) (em : Bool) (bad : List (Nat × Nat)) (x y : Nat) : Nat :=
  let l := s.layer (4 * n)
  let v := if s.l0Same n && s.l0Alone n gf em bad x y then
      (match l.bnd with
        | some b => s.surf b gf 0 (l.act.src.getD 0 0 + (x - l.act.dst.getD 0 0)) (l.act.src.getD 1 0 + (y - l.act.dst.getD 1 0))
        | none => 0)
    else (s.workPx n gf em bad x y).a
  depthStep (s.chan n).coding.depth v

/-- Positions of the horizontal support of chroma output `i`, with weights (R148). -/
def supX (c : Coding) (i : Nat) : List (Int × Nat) :=
  if c.chroma = 0 ∧ c.loc % 2 = 1 then [((2 * i : Nat), 1), ((2 * i + 1 : Nat), 1)]
  else [((2 * i : Nat) - 1, 1), ((2 * i : Nat), 2), ((2 * i + 1 : Nat), 1)]
def supY (c : Coding) (j : Nat) : List (Int × Nat) :=
  if c.chroma = 1 then [((j : Nat), 1)]
  else if c.loc < 2 then [((2 * j : Nat), 1), ((2 * j + 1 : Nat), 1)]
  else if c.loc < 4 then [((2 * j : Nat) - 1, 1), ((2 * j : Nat), 2), ((2 * j + 1 : Nat), 1)]
  else [((2 * j : Nat), 1), ((2 * j + 1 : Nat), 2), ((2 * j + 2 : Nat), 1)]

/-- A rounded weighted mean: over 1, 2 or 4. -/
def meanOf (l : List (Nat × Nat)) : Nat :=
  let w := (l.map (·.2)).sum
  if w = 1 then (l.headD (0, 1)).1 else ((l.map fun e => e.1 * e.2).sum + w / 2) / w

/-- A chroma output sample: `comp` 1 or 2. Edge samples of the picture repeat (log entry 22). That an odd offset between L0's rectangles keeps the siting,
with the sample's place rounded down, is a DESIGN CHOICE (log entry 94): the spec does not say. -/
def State.chromaOut (s : State) (n gf : Nat) (em : Bool) (bad : List (Nat × Nat)) (comp i j : Nat) : Nat :=
  let c := s.chan n
  let xs := supX c.coding i
  let ys := supY c.coding j
  let cx (z : Int) := clampI z (width c.raster - 1)
  let cy (z : Int) := clampI z (height c.raster - 1)
  let alone := s.l0Same n && ys.all fun y => xs.all fun x => s.l0Alone n gf em bad (cx x.1) (cy y.1)
  let l := s.layer (4 * n)
  let v := if alone then
      (match l.bnd with
        | some b => s.surf b gf comp ((l.act.src.getD 0 0 + (2 * i - l.act.dst.getD 0 0)) / 2)
            (if c.coding.chroma = 1 then l.act.src.getD 1 0 + (j - l.act.dst.getD 1 0) else (l.act.src.getD 1 0 + (2 * j - l.act.dst.getD 1 0)) / 2)
        | none => 0)
    else
      let pick (p : Px) := if comp = 1 then p.b else p.c
      meanOf (ys.map fun y => (meanOf (xs.map fun x => (pick (s.workPx n gf em bad (cx x.1) (cy y.1)), x.2)), y.2))
  depthStep c.coding.depth v

/-! ### A composition task's view (R22, R56, R150) -/

/-- What the release of a row fixes for its composition. -/
def State.snapOf (s : State) (n : Nat) : CompSnap :=
  { acts := (List.range 4).map fun k => (s.layer (4 * n + k)).act, bnds := (List.range 4).map fun k => (s.layer (4 * n + k)).bnd,
    banks := (List.range 4).map (s.bankOf n), em := s.rd Reg.CMP_CHCMP_EMSEL 0 n = 1,
    tiles := if (s.cache n).valid then some (s.cache n).tiles else none }

/-- What its dispatch reads of the emergency variant (R22, R159). -/
def State.emvOf (s : State) (n : Nat) : List Nat :=
  let c := (s.chan n).raster
  [bit ((s.rd Reg.CMP_EMVALID_VALID).testBit c), s.rd Reg.CMP_EMFG_RGB 0 c, s.rd Reg.CMP_EMBG_RGB 0 c, s.rd Reg.CMP_EMALPHA_BGALPHA,
   s.rd Reg.CMP_EMALPHA_FGALPHA, s.rd Reg.CMP_EMCTL_EMMODE]

/-- The machine as a composition task sees it: the memories as they are, and everything else as the task has it. A cache that is no longer the one of
the task's frame is not used (R153). -/
def State.withSnap (s : State) (n : Nat) (p : CompSnap) : State :=
  let c := (s.chan n).raster
  let s := s.forEach (List.range 4) fun s k => s.setLayer (4 * n + k) { s.layer (4 * n + k) with act := p.acts.getD k {}, bnd := p.bnds.getD k none }
  let s := { s with cmp := { s.cmp with chBank := (List.range 4).foldl (fun t k => tins t (4 * n + k) (p.banks.getD k none)) s.cmp.chBank } }
  let s := s.setCache n { s.cache n with valid := (s.cache n).valid && p.tiles = some (s.cache n).tiles }
  let s := (s.wr Reg.CMP_CHCMP_EMSEL (bit p.em) 0 n).wr Reg.CMP_EMVALID_VALID (p.emv.getD 0 0 * 2 ^ c)
  let s := (s.wr Reg.CMP_EMFG_RGB (p.emv.getD 1 0) 0 c).wr Reg.CMP_EMBG_RGB (p.emv.getD 2 0) 0 c
  ((s.wr Reg.CMP_EMALPHA_BGALPHA (p.emv.getD 3 0)).wr Reg.CMP_EMALPHA_FGALPHA (p.emv.getD 4 0)).wr Reg.CMP_EMCTL_EMMODE (p.emv.getD 5 0)

/-- The emergency layer alone is composed: its selection in FULL mode (R159). -/
def State.emFull (s : State) (n : Nat) : Bool := s.rd Reg.CMP_CHCMP_EMSEL 0 n = 1 && s.rd Reg.CMP_EMCTL_EMMODE = 1

/-- Places of the pool that hold the tiles of rows `y0` to `y1` − 1. -/
def State.rowTiles (s : State) (n y0 y1 : Nat) : List Nat :=
  let tw := cdiv (width (s.chan n).raster) 64
  if !(s.cache n).valid || s.emFull n then [] else
  ((s.cache n).tiles.filter fun e => decide (y0 / 64 ≤ e.1 / tw) && decide (e.1 / tw ≤ (y1 - 1) / 64)).map (·.2)

/-- Lines of memory that layer `k` reads for output line `y`; 4 is the emergency variant. A layer of the run is read where no good cache stands for it. -/
def State.readLines (s : State) (n k y : Nat) : List Nat :=
  if k = 4 then
    let (w, f, o) := emShape (s.chan n).raster
    if s.rd Reg.CMP_CHCMP_EMSEL 0 n = 1 && (s.rd Reg.CMP_EMVALID_VALID).testBit (s.chan n).raster then linesAt (Config.csBase + s.emBase + o + y / f * w) w else []
  else if s.emFull n then [] else
  match (s.layer (4 * n + k)).bnd with
  | none => []
  | some b =>
    let v := (s.layer (4 * n + k)).act
    let cached := (s.runAct n).contains k && (s.cache n).valid && !(s.rowTiles n y (y + 1)).any s.tileBad
    if !v.enable || cached || !(decide (v.dst.getD 1 0 ≤ y) && decide (y < v.dst.getD 1 0 + v.dst.getD 3 0)) then [] else layerLines v b y

/-- The (layer, output line) pairs of rows `y0` to `y1` − 1 that an uncorrectable line takes away (R157, R198). That a layer is transparent on
every output line that a filter forms from such a line is DEDUCED (log entry 95). -/
def State.badRows (s : State) (n y0 y1 : Nat) : List (Nat × Nat) :=
  (List.range 5).flatMap fun k => ((List.range (y1 - y0)).map (· + y0)).filterMap fun y => if (s.readLines n k y).any s.badLine then some (k, y) else none

/-- The damaged lines that a CTU row's composition reads, each once, with tiles apart as their places in the pool. -/
def State.rowBad (s : State) (n y0 y1 : Nat) : List Nat × List Nat :=
  (((List.range 5).flatMap fun k => (List.range (y1 - y0)).flatMap fun y => (s.readLines n k (y0 + y)).filter s.badLine).dedup,
   (s.rowTiles n y0 y1).filter s.tileBad)

/-- A composed sample (R148, R149): component 0 luma, 1 Cb, 2 Cr. -/
def State.outSample (s : State) (n gf : Nat) (bad : List (Nat × Nat)) (comp x y : Nat) : Nat :=
  let em := s.rd Reg.CMP_CHCMP_EMSEL 0 n = 1
  if comp = 0 then s.lumaOut n gf em bad x y else s.chromaOut n gf em bad comp x y

/-- The tiles of the raster that hold a sample of the run with alpha (R152). -/
def State.occupied (s : State) (n gf : Nat) : List Nat :=
  let c := s.chan n
  let tw := cdiv (width c.raster) 64
  let th := cdiv (height c.raster) 64
  (List.range (tw * th)).filter fun t =>
    (List.range 4096).any fun i => (s.runLive n gf [] (t % tw * 64 + i % 64) (t / tw * 64 + i / 64)).al ≠ 0

/-- Lines of memory that the layers of the run read over the whole raster. -/
def State.runLines (s : State) (n : Nat) : List Nat :=
  (s.runAct n).flatMap fun k => (List.range (height (s.chan n).raster)).flatMap fun y =>
    match (s.layer (4 * n + k)).bnd with
    | some b => let v := (s.layer (4 * n + k)).act
        if decide (v.dst.getD 1 0 ≤ y) && decide (y < v.dst.getD 1 0 + v.dst.getD 3 0) then layerLines v b y else []
    | none => []

end Sys2Proof.Machine
end

