-- ==== Sys2Proof/Machine/Layers.lean ====
section
/-! DEFINITION. Layers, frame boundaries, coefficient banks, the static cache, the composition budget and the emergency
selection (R133 to R136, R140 to R142, R150 to R161, R219, R515). -/

namespace Sys2Proof.Machine

/-! ### Budget (R156) -/

/-- Bytes a layer reads from DRAM per picture. -/
def layBytes (v : LSet) (b : Option LBind) : Nat :=
  match b with
  | some b => if v.enable ∧ b.fmt < 6 ∧ Config.dramBase ≤ b.base then v.src.getD 2 0 * v.src.getD 3 0 * bpp b.fmt else 0
  | none => 0

/-- Charges per picture of four layers: each layer outside the run, and the run. -/
def layParts (raster : Nat) (ls : List (LSet × Option LBind)) : List Nat × Nat :=
  let run := runOf (ls.map fun l => (l.1.enable, l.1.static))
  let out := (List.range 4).map fun k => if run.contains k then 0 else match ls[k]? with | some l => layBytes l.1 l.2 | none => 0
  let live := sumOver run fun k => match ls[k]? with | some l => layBytes l.1 l.2 | none => 0
  let tw := cdiv (width raster) 64
  let touched := (List.range (tw * cdiv (height raster) 64)).filter fun t => run.any fun k =>
    match ls[k]? with
    | some l =>
      let d := l.1.dst
      decide (d.getD 0 0 / 64 ≤ t % tw ∧ t % tw ≤ (d.getD 0 0 + d.getD 2 0 - 1) / 64 ∧ d.getD 1 0 / 64 ≤ t / tw ∧ t / tw ≤ (d.getD 1 0 + d.getD 3 0 - 1) / 64)
    | none => false
  (out, if run = [] then 0 else max (touched.length * 20480) live)

/-- The charge of a channel's layers in byte/s: the larger of active and latest, layer by layer and for the run. -/
def State.compCharge (s : State) (n : Nat) : Nat :=
  if s.chSt n = 0 then 0 else
  let c := s.chan n
  let ls := (List.range 4).map fun k => s.layer (4 * n + k)
  let (o1, r1) := layParts c.raster (ls.map fun l => (l.act, l.bnd))
  let (o2, r2) := layParts c.raster (ls.map fun l => (l.latest, l.latestBnd))
  ((List.range 4).foldl (fun a k => a + max (o1.getD k 0) (o2.getD k 0)) 0 + max r1 r2) * chargedRate c.rate

def State.compTotal (s : State) : Nat := sumOver (List.range 64) s.compCharge
def State.compShow (s : State) : State := s.wr Reg.CMP_COMPCHG_BYTES s.compTotal

/-! ### What LAYERSTAT and CHCMP show -/

/-- Places of the tile pool that a cache holds, and all in use. -/
def Cache.used (c : Cache) : List Nat := c.tiles.map Prod.snd ++ (c.fresh.getD []).map Prod.snd ++ c.old
def State.tilesUsed (s : State) : List Nat := s.cmp.caches.flatMap fun e => e.2.used

def State.layerShow (s : State) (n : Nat) : State :=
  let run := s.runAct n
  let s := s.forEach (List.range 4) fun s k =>
    let i := 4 * n + k
    let v := (s.layer i).act
    let lent := (k = 1 && (s.layer (4 * n)).act.gang) || (k = 3 && (s.layer (4 * n + 2)).act.gang)
    ((((s.wr Reg.CMP_LAYERSTAT_ENABLED (bit v.enable) 0 i).wr Reg.CMP_LAYERSTAT_STATIC (bit v.static) 0 i).wr
      Reg.CMP_LAYERSTAT_INRUN (bit (run.contains k)) 0 i).wr Reg.CMP_LAYERSTAT_GANG (bit v.gang) 0 i).wr
      Reg.CMP_LAYERSTAT_LENT (bit lent) 0 i
  let c := s.cache n
  let s := s.wr Reg.CMP_CHCMP_CACHE (if run = [] then 0 else if c.valid then 1 else 2) 0 n
  let s := s.wr Reg.CMP_CHCMP_TILES (if c.valid then c.tiles.length else 0) 0 n
  let q := (s.cmp.caches.filter fun e => e.2.flattening.isSome || e.2.retry).length
  let used := s.tilesUsed.length
  ((s.wr Reg.CMP_CMPSTAT_FLATQ q).wr Reg.CMP_TILEFREE_TILES (s.rd Reg.CMP_TILESIZE_BYTES / 20480 - used)).compShow

/-! ### Static cache (R152 to R154, R157) -/

/-- Queue a flatten of a channel's run. -/
def State.flatten (s : State) (n : Nat) : State :=
  match s.poolPut { newTask kFlatten with flow := flattenFlow, ch := n } with
  | (none, s) => s.setCache n { s.cache n with retry := true, freed := true }
  | (some d, s) =>
    s.setCache n { s.cache n with flattening := some d, stale := false, retry := false, freed := false, due := false, failed := false }

/-- Tiles of a channel have been freed: every abandoned flatten may be tried again (R154). -/
def State.tilesFreed (s : State) : State :=
  s.forEach (keys s.cmp.caches) fun s n => if (s.cache n).retry then s.setCache n { s.cache n with freed := true } else s

/-- The old tiles of a channel's cache are freed. -/
def State.freeOld (s : State) (n : Nat) : State := if (s.cache n).old = [] then s else (s.setCache n { s.cache n with old := [] }).tilesFreed

/-- The cache of a channel is invalid; its run is flattened again. The old tiles stay until the new cache takes effect (R154); with no run there will be none, and
they are freed at once. -/
def State.invalidate (s : State) (n : Nat) : State :=
  let c := s.cache n
  let s := s.setCache n { c with valid := false, tiles := [], fresh := none, retry := false, freed := false, due := false, failed := false, drop := false,
                                 stale := c.flattening.isSome, old := c.used }
  let s := if s.runAct n = [] then s.freeOld n else if c.flattening.isSome then s else s.flatten n
  s.layerShow n

/-- The flatten unit that runs a task: the second slot of the target while an earlier flatten holds the first (DEDUCED: log entry 28). -/
def State.flattenUnit (s : State) (d : Nat) : Nat :=
  bit (s.spd.tasks.any fun e => decide (e.2.kind = kFlatten ∧ e.2.state = 4 ∧ e.2.start < (s.task d).start))

/-- Write the tiles of a flatten into free places of the pool. -/
def State.writeTiles (s : State) (unit n gf : Nat) (tiles : List (Nat × Nat)) : State :=
  let tw := cdiv (width (s.chan n).raster) 64
  tiles.foldl (fun (acc : State) e =>
    (acc.putBytes (s.tileAddr e.2) (tileBytes fun x y => s.runLive n gf [] (e.1 % tw * 64 + x) (e.1 / tw * 64 + y))).cvuLines (953 + unit) (linesAt (s.tileAddr e.2) 20480)) s

/-- The dispatched flatten of a channel ends (R154, R157): an uncorrectable surface line abandons it, and so does a pool too small for its tiles. `bad` are the lines
found uncorrectable for the first time, as (internal address, kind). -/
def execFlattenDone (n : Fin 64) (bad : List (Nat × Nat)) (s : State) : Host.Outcome State Fault Refusal :=
  finish (
    let c := s.cache n
    match c.flattening with
    | none => s
    | some d =>
      if (s.task d).state ≠ 4 then s else
      let read := s.runLines n
      let s := (bad.filter fun e => read.contains (e.1 / 64 * 64)).foldl (fun s e => s.lineDamage e.1 e.2) s
      let hit := (read.filter s.badLine).dedup
      let unit := s.flattenUnit d
      let s := (hit.foldl (fun s a => s.lineRead a 41) s).taskDone d
      let c := { c with flattening := none }
      if hit ≠ [] then
        (((s.setCache n { c with failed := true, stale := false }).incSat Reg.CMP_FLATCNT_FAIL).ev (evCmp 2)).layerShow n
      else if c.stale then (if s.runAct n = [] then s.setCache n { c with stale := false } else (s.setCache n c).flatten n).layerShow n
      else
        let gf := s.gridOf n (s.chan n).nextFrame
        let tiles := s.occupied n gf
        let used := s.tilesUsed
        let free := (List.range (s.rd Reg.CMP_TILESIZE_BYTES / 20480)).filter fun k => !used.contains k
        if free.length < tiles.length then
          (((s.setCache n { c with retry := true, freed := false, due := false }).incSat Reg.CMP_FLATCNT_FAIL).ev (evCmp 0)).layerShow n
        else
          let l := tiles.zip free
          let s := (s.writeTiles unit n gf l).setCache n { c with fresh := some l }
          ((s.incWrap Reg.CMP_FLATCNT_DONE).incWrap Reg.CMP_CHCMP_FLATTENS 1 0 n).layerShow n)

/-- An abandoned flatten is tried again at the first frame boundary after tiles are freed. -/
def execFlattenRetry (n : Fin 64) (s : State) : Host.Outcome State Fault Refusal :=
  finish (
    let c := s.cache n
    if c.retry ∧ c.due ∧ c.flattening = none ∧ s.runAct n ≠ [] ∧ s.genCount ≠ 0 then (s.flatten n).layerShow n else s)

/-- Uncorrectable tiles met by a composition (R157): each counted and reported; the cache is invalid from the next frame boundary (R154). -/
def State.tileErrs (s : State) (n : Nat) (slots : List Nat) : State :=
  let s := slots.foldl (fun s k =>
    let s := ((linesAt (s.tileAddr k) 20480).filter s.badLine).foldl (fun s a => s.lineRead a 42) s
    (s.incSat Reg.CMP_TILEERR_COUNT).ev (evCmp 3)) s
  if slots = [] then s else s.setCache n { s.cache n with drop := true }

/-! ### Changes and frame boundaries (R150, R151) -/

/-- Every blit submitted before a bind or flip on its queue has completed. -/
def State.blitsDone (s : State) (waits : List Nat) : Bool :=
  waits.all fun k => !(s.spd.tasks.any fun e => e.2.kind = kBlit && e.2.key = k && decide (e.2.state ≠ 5))

/-- Blits of a queue that have not completed. -/
def State.openBlits (s : State) (q : Nat) : List Nat :=
  (s.spd.tasks.filter fun e => e.2.kind = kBlit && e.2.flow = blitFlow q && decide (e.2.state ≠ 5)).map (·.2.key)

/-- Formats whose last reader has gone are released (R275). -/
def State.releaseFormats (s : State) : State :=
  s.forEach (keys s.inp.flows) fun s f =>
    match s.flowIn f with
    | some x => if x.kind = 0 && x.fmt.isSome && !(s.cmp.layers.any fun e => ((e.2.latestBnd.map (·.names f)).getD false)) && !s.flowInUse f
      then s.setFlowIn f (some { x with fmt := none, ring := [], latNext := none }) else s
    | none => s

/-- Two settings differ where the cache cares: any field of a run layer, or ENABLE or STATIC. -/
def lsetHits (inRun : Bool) (a b : LSet) : Bool := (inRun && a ≠ b) || a.enable ≠ b.enable || a.static ≠ b.static

/-- A pending set applies. -/
def State.applySet (s : State) (n k : Nat) : State :=
  let i := 4 * n + k
  let l := s.layer i
  match l.pendSet with
  | none => s
  | some v =>
    let hit := lsetHits ((s.runAct n).contains k) l.act v
    let s := s.setLayer i { l with act := v, pendSet := none }
    if hit then s.invalidate n else s

/-- A pending bind or flip applies when it is ready. -/
def State.applyBind (s : State) (n k : Nat) : State :=
  let i := 4 * n + k
  let l := s.layer i
  match l.pendBind with
  | none => s
  | some (b, w) =>
    if b.fmt ≠ 6 ∧ !s.blitsDone w then s else
    let s := (s.setLayer i { l with bnd := some b, pendBind := none, last := some b }).wr Reg.CMP_LAYERSTAT_HASFRAME 1 0 i
    if (s.runAct n).contains k then s.invalidate n else s

/-- The dirty mark of a run layer. -/
def State.applyDirty (s : State) (n k : Nat) : State :=
  let i := 4 * n + k
  if !(s.layer i).dirty then s else
  let s := s.setLayer i { s.layer i with dirty := false }
  if (s.runAct n).contains k then s.invalidate n else s

/-- Banks due at a frame boundary of a channel. -/
def State.coefBoundary (s : State) (n ref : Nat) : State :=
  let due := s.cmp.coefWait.filter fun e => e.2.2.2.contains n && decide (e.2.2.1 ≤ ref)
  let bank := due.foldl (fun t e => tins t (4 * n + e.2.1) (some e.1)) s.cmp.chBank
  let w := s.cmp.coefWait.map fun e => if e.2.2.1 ≤ ref then (e.1, e.2.1, e.2.2.1, e.2.2.2.filter (· ≠ n)) else e
  let hit := due.any fun e => (s.runAct n).any fun k => (s.layer (4 * n + k)).act.bank = e.2.1
  let s := ({ s with cmp := { s.cmp with coefWait := w, chBank := bank } }).coefSettle
  if hit then s.invalidate n else s

/-- The cache at a frame boundary (R154): a bad tile has made it invalid; a flatten that has ended takes effect, and the old tiles are freed; an
abandoned one is due again once tiles have been freed. -/
def State.cacheBoundary (s : State) (n : Nat) : State :=
  let s := if (s.cache n).drop then s.invalidate n else s
  let c := s.cache n
  let s := match c.fresh with
    | some t => ((s.setCache n { c with valid := true, tiles := t, fresh := none, old := c.old ++ c.tiles.map Prod.snd }).freeOld n).ev (evCmp 1)
    | none => s
  let c := s.cache n
  s.setCache n { c with due := c.due || (c.retry && c.freed) }

/-- Flows that a channel composes from no longer, or from this frame on, take their rings and formats from it (R275, R284). -/
def State.flowBoundary (s : State) (n : Nat) : State :=
  if s.inp.flows = [] then s else ((s.releaseFormats).fitFlows.forEach (s.flowsOf n) (State.refitFlow n)).pageCounts

/-- The frame boundary of a channel: the release of row 0 of a frame (R150). -/
def State.frameBoundary (s : State) (n frame : Nat) : State :=
  let s := s.coefBoundary n (s.refNs n frame 0)
  let s := (s.forEach (List.range 4) fun s k => ((s.applySet n k).applyBind n k).applyDirty n k).flowBoundary n
  let s := s.forEach (List.range 4) fun s k =>
    let i := 4 * n + k
    if (s.layer i).pendBind.isSome then (s.incSat Reg.CMP_LAYERSTAT_LATECNT 1 0 i).ev (evCh n 1) n k frame else s
  (s.cacheBoundary n).layerShow n

/-- A commit of a layer change: pending until the next boundary while the channel lives, in force at once otherwise. -/
def State.layerCommit (s : State) (n : Nat) (k : CommitK) : State :=
  let now (s : State) (j : Nat) := if s.live n then s else (((s.applySet n j).applyBind n j).applyDirty n j).layerShow n
  match k with
  | .layerSet j v => now (s.setLayer (4 * n + j) { s.layer (4 * n + j) with pendSet := some v }) j
  | .layerBind j b w =>
    let s := s.wr Reg.CMP_LAYERSTAT_LATECNT 0 0 (4 * n + j)
    now (s.setLayer (4 * n + j) { s.layer (4 * n + j) with pendBind := some (b, w) }) j
  | .layerFlip j base w =>
    let l := s.layer (4 * n + j)
    let cur := match l.pendBind with | some (b, _) => some b | none => l.bnd
    (match cur with
      | some b => now (s.setLayer (4 * n + j) { l with pendBind := some ({ b with base := base }, w) }) j
      | none => s)
  | .layerDirty j => now (s.setLayer (4 * n + j) { s.layer (4 * n + j) with dirty := true }) j
  | _ => s

/-- A pending bind or flip that has become ready applies at the next frame boundary: as the tick of a row 0 has come, or at once on a channel that does not
run. Rows already released keep the configuration of their own frame. -/
def execLayerChangeApply (n : Fin 64) (k : Fin 4) (s : State) : Host.Outcome State Fault Refusal :=
  finish (
    let c := s.chan n
    let boundary := c.nextRow = 0 ∧ cdiv (s.refNs n c.nextFrame 0 + c.tRow) 1000 ≤ s.tick
    if boundary ∨ !s.live n then (s.applyBind n k).layerShow n else s)

/-! ### OP_LAYER_SET, OP_LAYER_BIND, OP_LAYER_FLIP, OP_LAYER_DIRTY (R515) -/

def alignBad : Ref4 := { status := stAlign, detail := 0 }
def lineBad : Ref4 := { status := stLinebuf, detail := 0 }

/-- Settings out of a command's parameters. -/
def lsetOf (p : Bytes) : LSet :=
  let f := fld p 1 1
  { enable := f.testBit 0, static := f.testBit 1, gang := f.testBit 2, predec := f.testBit 3, matrix := fld p 2 1, bank := fld p 3 1,
    galpha := fld p 4 2, src := (List.range 4).map fun i => fld p (8 + 2 * i) 2, dst := (List.range 4).map fun i => fld p (16 + 2 * i) 2,
    fill := fld p 24 4, coef := (List.range 9).map fun i => ofTwos 16 (fld p (32 + 2 * i) 2),
    pre := (List.range 3).map fun i => ofTwos 16 (fld p (50 + 2 * i) 2), post := (List.range 3).map fun i => ofTwos 16 (fld p (56 + 2 * i) 2) }

/-- Steps 2 and 3 of R515 for a source rectangle on a bound surface; `at8` names the field for a rectangle outside it. -/
def rectBad (v : LSet) (b : LBind) (bx hx : Nat) : Option Ref4 :=
  if b.fmt = 6 then none else
  firstBad [(b.w < v.src.getD 0 0 + v.src.getD 2 0, badAt bx), (b.h < v.src.getD 1 0 + v.src.getD 3 0, badAt hx)]

def evenBad (v : LSet) (b : LBind) : Bool :=
  ((b.fmt = 4 || b.fmt = 5) && (v.src.getD 0 0 % 2 = 1 || v.src.getD 2 0 % 2 = 1)) ||
    (b.fmt = 5 && (v.src.getD 1 0 % 2 = 1 || v.src.getD 3 0 % 2 = 1))

/-- The budget check on a state that carries the change. -/
def State.budgetBad (s : State) : Option Ref4 :=
  if 12000000000 < s.compTotal then some (cap 7 s.compTotal 12000000000) else none

/-- A flow does not suit a channel (R135): it is no video flow, or its format is fixed with another raster, rate, phase or input format. -/
def State.flowBad (s : State) (n f : Nat) : Bool :=
  let c := s.chan n
  match s.flowIn f with
  | none => true
  | some x => x.kind ≠ 0 || (match x.fmt with
      | some m => m.raster ≠ c.raster || m.rate ≠ c.rate || m.phase ≠ s.rd Reg.CHC_PHASE_OFFSET_NS n || m.infmt ≠ c.infmt
      | none => false)

def chkLayerSet : OpChk := fun s n p =>
  let k := fld p 0 1
  let v := lsetOf p
  let c := s.chan n
  let i := 4 * n + k
  let l := s.layer i
  let w := v.src.getD 2 0
  let hh := v.src.getD 3 0
  let wd := v.dst.getD 2 0
  let hd := v.dst.getD 3 0
  let d := if v.predec then 2 else 1
  let input := match l.latestBnd with | some b => b.fmt = 6 | none => false
  let range11 (o : Nat) := (List.range 3).map fun j => (let z := ofTwos 16 (fld p (o + 2 * j) 2); (decide (z < -1024 ∨ 1023 < z), badAt (o + 2 * j)))
  orElse (firstBad (([
    (3 < k, badAt 0), (15 < fld p 1 1, badAt 1), (4 < v.matrix, badAt 2), (3 < v.bank, badAt 3), (1023 < v.galpha, badAt 4),
    (nz p 6 2, badAt 6), (2 ^ 30 ≤ v.fill, badAt 24), (nz p 28 4, badAt 28)] : List (Bool × Ref4)) ++ range11 50 ++ range11 56 ++ [(nz p 62 2, badAt 62),
    (v.gang && k % 2 = 1, badAt 1), (v.static && input, badAt 1),
    (w < 8, badAt 12), (hh < 8, badAt 14), (wd < 8, badAt 20), (hd < 8, badAt 22),
    (8192 < w, badAt 12), (8192 < hh, badAt 14),
    (width c.raster < v.dst.getD 0 0 + wd, badAt 16), (height c.raster < v.dst.getD 1 0 + hd, badAt 18)])) fun _ =>
  orElse (match l.latestBnd with | some b => rectBad v b 8 10 | none => none) fun _ =>
  orElse (firstBad [
    ((match l.latestBnd with | some b => evenBad v b | none => false), alignBad),
    (input && (v.src ≠ v.dst || (match l.latestBnd with | some b => s.flowBad n b.flow | none => false)), badAt 8),
    ((if v.gang then 8192 else 4096) < wd, lineBad), (4 * d * hd < hh, lineBad), (8 * wd < w, badAt 12), (16 * w < wd, badAt 20), (16 * hh < hd, badAt 22),
    (v.gang && (s.layer (i + 1)).latest.enable, lineBad), (v.enable && k % 2 = 1 && (s.layer (i - 1)).latest.gang, lineBad)]) fun _ =>
  (s.setLayer i { l with latest := v }).budgetBad

def runLayerSet : OpRun := fun c p s =>
  let i := 4 * c.ch + fld p 0 1
  let v := lsetOf p
  let s := s.setLayer i { s.layer i with latest := v }
  if c.rowed then (s.compShow, .final stOk 0 0 0 [c.commit (.layerSet (fld p 0 1) v)])
  else ((s.layerCommit c.ch (.layerSet (fld p 0 1) v)).compShow, ok2 0 0)

def execOpLayerSet (h : Hdr) (p : Bytes) (s : State) : Host.Outcome State Fault Refusal :=
  finish (s.hostCmd (.opLayerSet h p) 0x0200 h p chkLayerSet runLayerSet)

def lbindOf (p : Bytes) : LBind :=
  { fmt := fld p 1 1, pitch := fld p 4 4, base := fld p 8 8, w := fld p 16 2, h := fld p 18 2, flow := fld p 20 2 }

/-- The state that carries a bind: the flow's format is fixed by its first reader (R275). -/
def State.bindLatest (s : State) (n k : Nat) (b : LBind) : State :=
  let i := 4 * n + k
  let c := s.chan n
  let s := (s.setLayer i { s.layer i with latestBnd := some b }).releaseFormats
  if b.fmt ≠ 6 then s else
  match s.flowIn b.flow with
  | some x => if x.fmt.isSome then s else
      s.setFlowIn b.flow (some { x with fmt := some { raster := c.raster, rate := c.rate, phase := s.rd Reg.CHC_PHASE_OFFSET_NS n, infmt := c.infmt } })
  | none => s

/-- The checks of a bind. Two refusals and one acceptance are DESIGN CHOICES (log entry 96), since R136 states none: a surface of zero width or height is
refused with ST_BAD_PARAM even while the layer is unset; and a base that lies in no memory is accepted, and such a surface reads as zero. -/
def chkLayerBind : OpChk := fun s n p =>
  let k := fld p 0 1
  let b := lbindOf p
  let l := s.layer (4 * n + k)
  let set := l.latest.src.getD 2 0 ≠ 0
  orElse (firstBad [
    (3 < k, badAt 0), (6 < b.fmt, badAt 1), (nz p 2 2, badAt 2), (b.fmt ≠ 6 && b.flow ≠ 0, badAt 20), (nz p 22 2, badAt 22),
    (b.fmt = 6 && l.latest.static, badAt 1),
    (b.fmt ≠ 6 && (b.w = 0 || 8192 < b.w), badAt 16), (b.fmt ≠ 6 && (b.h = 0 || 8192 < b.h), badAt 18)]) fun _ =>
  orElse (if set then rectBad l.latest b 16 18 else none) fun _ =>
  orElse (firstBad [
    (b.fmt ≠ 6 && (b.base % 64 ≠ 0 || b.pitch % 64 ≠ 0 || (set && evenBad l.latest b)), alignBad),
    (b.fmt = 6 && s.flowBad n b.flow, badAt 20),
    (b.fmt = 6 && set && l.latest.src ≠ l.latest.dst, badAt 20)]) fun _ =>
  let s := s.bindLatest n k b
  orElse s.budgetBad fun _ => s.readmit n

def runLayerBind : OpRun := fun c p s =>
  let k := fld p 0 1
  let b := lbindOf p
  let w := s.openBlits c.q
  let s := ((s.bindLatest c.ch k b).rereserve c.ch).compShow
  if c.rowed then (s, .final stOk 0 0 0 [c.commit (.layerBind k b w)])
  else (s.layerCommit c.ch (.layerBind k b w), ok2 0 0)

def execOpLayerBind (h : Hdr) (p : Bytes) (s : State) : Host.Outcome State Fault Refusal :=
  finish (s.hostCmd (.opLayerBind h p) 0x0201 h p chkLayerBind runLayerBind)

def chkLayerFlip : OpChk := fun s n p =>
  let l := s.layer (4 * n + fld p 0 1)
  orElse (firstBad [
    (3 < fld p 0 1, badAt 0), (nz p 1 7, badAt 1),
    ((match l.latestBnd with | some b => b.fmt = 6 | none => true), badAt 0), (fld p 8 8 % 64 ≠ 0, alignBad)]) fun _ =>
  match l.latestBnd with
  | some b => (s.setLayer (4 * n + fld p 0 1) { l with latestBnd := some { b with base := fld p 8 8 } }).budgetBad
  | none => none

def runLayerFlip : OpRun := fun c p s =>
  let k := fld p 0 1
  let i := 4 * c.ch + k
  let base := fld p 8 8
  let w := s.openBlits c.q
  let s := match (s.layer i).latestBnd with
    | some b => s.setLayer i { s.layer i with latestBnd := some { b with base := base } }
    | none => s
  if c.rowed then (s.compShow, .final stOk 0 0 0 [c.commit (.layerFlip k base w)])
  else ((s.layerCommit c.ch (.layerFlip k base w)).compShow, ok2 0 0)

def execOpLayerFlip (h : Hdr) (p : Bytes) (s : State) : Host.Outcome State Fault Refusal :=
  finish (s.hostCmd (.opLayerFlip h p) 0x0202 h p chkLayerFlip runLayerFlip)

def chkLayerDirty : OpChk := fun _ _ p => firstBad [(3 < fld p 0 1, badAt 0), (nz p 1 7, badAt 1)]

def runLayerDirty : OpRun := fun c p s =>
  if c.rowed then (s, .final stOk 0 0 0 [c.commit (.layerDirty (fld p 0 1))])
  else (s.layerCommit c.ch (.layerDirty (fld p 0 1)), ok2 0 0)

def execOpLayerDirty (h : Hdr) (p : Bytes) (s : State) : Host.Outcome State Fault Refusal :=
  finish (s.hostCmd (.opLayerDirty h p) 0x0203 h p chkLayerDirty runLayerDirty)

/-! ### OP_CMP_SET_COEF (R142) -/

def tapsOf (p : Bytes) (o n : Nat) : List Int := (List.range n).map fun i => ofTwos 16 (fld p (o + 2 * i) 2)

/-- The rules a bank keeps: 64 phases of `n` taps sum to 256, and phase 0 is 1 at tap `mid`. -/
def bankBad (l : List Int) (n mid o : Nat) : List (Bool × Ref4) :=
  (List.range 64).map fun ph =>
    let t := (l.drop (n * ph)).take n
    (t.sum ≠ 256 || (ph = 0 && t.zipIdx.any fun (v, i) => v ≠ if i = mid then 256 else 0), badAt (o + 2 * n * ph))

def chkCmpSetCoef : OpChk := fun _ _ p =>
  let h := tapsOf p 8 512
  let v := tapsOf p 1032 384
  firstBad (([(3 < fld p 0 1, badAt 0), (nz p 1 7, badAt 1)] : List (Bool × Ref4)) ++
    h.zipIdx.map (fun (t, i) => (decide (t < -512 ∨ 511 < t), badAt (8 + 2 * i))) ++
    v.zipIdx.map (fun (t, i) => (decide (t < -512 ∨ 511 < t), badAt (1032 + 2 * i))) ++ bankBad h 8 3 8 ++ bankBad v 6 2 1032)

/-- A running channel keeps the old bank until its first frame boundary at or after the point (R220). -/
def runCmpSetCoef : OpRun := fun c p s =>
  let k := fld p 0 1
  let b : Bank := { h := tapsOf p 8 512, v := tapsOf p 1032 384 }
  let run := (List.range 64).filter fun n => s.chSt n = 3
  let keep := run.foldl (fun t n => tins t (4 * n + k) (s.bankOf n k)) s.cmp.chBank
  let still := (List.range 64).filter fun n => s.chSt n ≠ 3 && (s.runAct n).any fun j => (s.layer (4 * n + j)).act.bank = k
  let s := { s with cmp := { s.cmp with chBank := keep, banks := tins s.cmp.banks k b, coefWait := s.cmp.coefWait ++ [(b, k, c.ns, run)] } }
  ((s.forEach still State.invalidate).coefSettle, ok2 0 0)

def execOpCmpSetCoef (h : Hdr) (p : Bytes) (s : State) : Host.Outcome State Fault Refusal :=
  finish (s.hostCmd (.opCmpSetCoef h p) 0x0210 h p chkCmpSetCoef runCmpSetCoef)

/-! ### Emergency (R159 to R161, R219, R253) -/

/-- CMPSTAT.ANY_EM: some channel's selection is set. -/
def State.anyEm (s : State) : State := s.wr Reg.CMP_CMPSTAT_ANY_EM (bit s.anyEmSet)

/-- The emergency selection of a row (step 1 of the release): a slot due at this row applies, with its event once per
command and its log record. Answers whether the emergency layer is newly switched on. An OP_EM_ON on a channel that already composes the emergency layer is no further
switch, so that the count of R128 goes on, is a DESIGN CHOICE (log entry 97). -/
def State.emApply (s : State) (n frame row : Nat) : Bool × State :=
  let c := s.chan n
  match c.emSlot with
  | none => (false, s)
  | some e =>
    if !rowLe (e.frame, e.row) (frame, row) then (false, s) else
    let s := s.setChan n { c with emSlot := none, emApplied := e.on, emSet := e.on }
    let s := ((s.wr Reg.CMP_CHCMP_EMSEL (bit e.on) 0 n).wr Reg.CMP_CHCMP_EMPEND 0 0 n).anyEm
    let s := s.traceEm n frame row
    (e.on && !c.emApplied,
     if s.cmp.emDone.contains e.cmd then s
     else ({ s with cmp := { s.cmp with emDone := s.cmp.emDone ++ [e.cmd] } }).ev (evCmp (if e.on then 5 else 6)))

/-- Fill the emergency slots of the masked channels (R160, R219). -/
def State.emCommand (s : State) (mask : Nat) (on : Bool) (ns key : Nat) : State :=
  let s := s.forEach ((List.range 64).filter mask.testBit) fun s n =>
    let c := s.chan n
    let (f, r) := if s.chSt n = 3 then s.rowAt n ns else (0, 0)
    let set := if on then true else if s.chSt n = 3 then c.emSet else false
    (s.setChan n { c with emSlot := some { on := on, frame := f, row := r, ns := ns, cmd := key }, emSet := set }).wr Reg.CMP_CHCMP_EMPEND 1 0 n
  let live := s.chans.filterMap fun e => e.2.emSlot.map (·.cmd)
  ({ s with cmp := { s.cmp with emDone := s.cmp.emDone.filter live.contains } }).anyEm

def chkEm : OpChk := fun s _ p =>
  let m := fld p 0 8
  firstBad [(m = 0, badAt 0), ((List.range 64).any fun n => m.testBit n && s.chSt n = 0, badAt 0)]

/-- The masked channels that are not in CH_RUNNING and keep the selection (R253). -/
def State.emKept (s : State) (mask : Nat) : Nat :=
  ((List.range 64).filter fun n => mask.testBit n && s.chSt n ≠ 3).foldl (fun m n => m + 2 ^ n) 0

def runEmOn : OpRun := fun c p s => (s.emCommand (fld p 0 8) true c.ns c.key, ok2 0 (s.emKept (fld p 0 8)))
def runEmOff : OpRun := fun c p s => (s.emCommand (fld p 0 8) false c.ns c.key, ok2 0 (s.emKept (fld p 0 8)))

def execOpEmOn (h : Hdr) (p : Bytes) (s : State) : Host.Outcome State Fault Refusal :=
  finish (s.hostCmd (.opEmOn h p) 0x0F00 h p chkEm runEmOn)
def execOpEmOff (h : Hdr) (p : Bytes) (s : State) : Host.Outcome State Fault Refusal :=
  finish (s.hostCmd (.opEmOff h p) 0x0F01 h p chkEm runEmOff)

def chkEmSetVariant : OpChk := fun _ _ p =>
  firstBad [(3 < fld p 0 1, badAt 0), (1 < fld p 1 1, badAt 1), (1023 < fld p 2 2, badAt 2), (1023 < fld p 4 2, badAt 4), (nz p 6 2, badAt 6),
    (2 ^ 24 ≤ fld p 8 4, badAt 8), (2 ^ 24 ≤ fld p 12 4, badAt 12)]

/-- Colours and VALID of a class; mode and alphas of every class (R159). -/
def runEmSetVariant : OpRun := fun _ p s =>
  let c := fld p 0 1
  let s := (s.wr Reg.CMP_EMFG_RGB (fld p 8 4) 0 c).wr Reg.CMP_EMBG_RGB (fld p 12 4) 0 c
  let s := ((s.wr Reg.CMP_EMCTL_EMMODE (fld p 1 1)).wr Reg.CMP_EMALPHA_BGALPHA (fld p 2 2)).wr Reg.CMP_EMALPHA_FGALPHA (fld p 4 2)
  (s.wr Reg.CMP_EMVALID_VALID (s.rd Reg.CMP_EMVALID_VALID ||| 2 ^ c), ok2 0 0)

def execOpEmSetVariant (h : Hdr) (p : Bytes) (s : State) : Host.Outcome State Fault Refusal :=
  finish (s.hostCmd (.opEmSetVariant h p) 0x0F02 h p chkEmSetVariant runEmSetVariant)

/-- A store byte of the emergency partition while it is read-only (R161). -/
def State.emLocked (s : State) (a : Nat) : Bool :=
  match s.space a with
  | (0, o) => decide (s.emBase ≤ o) && s.rd Reg.CMP_CMPSTAT_ANY_EM = 1
  | _ => false

/-- A write into a variant's bytes clears its VALID bit (R159). -/
def State.emTouched (s : State) (off len : Nat) : State :=
  s.forEach (List.range 4) fun s c =>
    let o := s.emBase + (emShape c).2.2
    if off < o + emBytes c ∧ o < off + len then s.wr Reg.CMP_EMVALID_VALID (s.rd Reg.CMP_EMVALID_VALID &&& (15 ^^^ 2 ^ c)) else s

end Sys2Proof.Machine
end

