-- ==== Sys2Proof/Machine/Blit.lean ====
section
/-! DEFINITION. The blitters: OP_BLIT with its checks, the pixels of a burst, bursts, dead time, failures (R164 to R183). -/

namespace Sys2Proof.Machine

/-! ### Parameters (R178) -/

/-- The fields of a parameter block. -/
structure Blit where
  op    : Nat
  xform : Nat
  key   : Bool
  nclip : Nat
  sf    : Nat
  df    : Nat
  galpha : Nat
  sb    : Nat
  db    : Nat
  sp    : Nat
  dp    : Nat
  sx    : Nat
  sy    : Nat
  dx    : Nat
  dy    : Nat
  w     : Nat
  h     : Nat
  ssh   : Nat
  dsh   : Nat
  fill  : Nat
  keyval : Nat
  keymask : Nat
  dead  : Nat
  clips : List (Nat × Nat × Nat × Nat)
deriving DecidableEq, Repr

def blitOf (p : Bytes) : Blit where
  op := fld p 0 1
  xform := fld p 1 1
  key := (fld p 2 1).testBit 0
  nclip := fld p 3 1
  sf := fld p 4 1
  df := fld p 5 1
  galpha := fld p 6 1
  sb := fld p 8 8
  db := fld p 16 8
  sp := fld p 24 4
  dp := fld p 28 4
  sx := fld p 32 2
  sy := fld p 34 2
  dx := fld p 36 2
  dy := fld p 38 2
  w := fld p 40 2
  h := fld p 42 2
  ssh := fld p 44 2
  dsh := fld p 46 2
  fill := fld p 48 4
  keyval := fld p 52 4
  keymask := fld p 56 4
  dead := fld p 60 4
  clips := (List.range (min 4 (fld p 3 1))).map fun i => (fld p (64 + 8 * i) 2, fld p (66 + 8 * i) 2, fld p (68 + 8 * i) 2, fld p (70 + 8 * i) 2)

/-- Bytes of a pixel of a row of the first plane; 0 for a code that no blit takes. -/
def blitBpp (fmt : Nat) : Nat := match fmt with | 0 => 4 | 1 => 1 | 2 => 2 | 3 => 4 | 4 => 4 | 5 => 2 | _ => 0

/-- The smallest thing a blit moves: a pixel, a pair of format 4, a 2 × 2 block of format 5. Its width, height, bytes. -/
def cellW (fmt : Nat) : Nat := if fmt = 4 ∨ fmt = 5 then 2 else 1
def cellH (fmt : Nat) : Nat := if fmt = 5 then 2 else 1
def cellB (fmt : Nat) : Nat := if fmt = 4 then 8 else if fmt = 5 then 12 else blitBpp fmt

/-- Size of the destination rectangle (R171). -/
def Blit.dw (b : Blit) : Nat := if b.xform % 2 = 1 then b.h else b.w
def Blit.dh (b : Blit) : Nat := if b.xform % 2 = 1 then b.w else b.h

/-- The extent of a rectangle as byte ranges (R166). -/
def rectExt (fmt base pitch x y w h sh : Nat) : List (Nat × Nat) :=
  let lu := (base + y * pitch + x * blitBpp fmt, base + (y + h - 1) * pitch + (x + w) * blitBpp fmt)
  if fmt ≠ 5 then [lu] else [lu, (base + pitch * sh + y / 2 * pitch + 2 * x, base + pitch * sh + (y / 2 + h / 2 - 1) * pitch + 2 * (x + w))]

/-- A FILL has no source. -/
def Blit.srcExt (b : Blit) : List (Nat × Nat) := if b.op = 1 then [] else rectExt b.sf b.sb b.sp b.sx b.sy b.w b.h b.ssh
def Blit.dstExt (b : Blit) : List (Nat × Nat) := rectExt b.df b.db b.dp b.dx b.dy b.dw b.dh b.dsh

/-- Two sets of byte ranges intersect. -/
def meets (a b : List (Nat × Nat)) : Bool := a.any fun x => b.any fun y => decide (x.1 < y.2) && decide (y.1 < x.2)

/-- A byte range lies in the Central Store or in DRAM. -/
def State.inMem (s : State) (e : Nat × Nat) : Bool := (s.space e.1).1 = (s.space (e.2 - 1)).1 && (s.space e.1).1 ≠ 2

/-- Source and destination name the same surface (R176). -/
def Blit.same (b : Blit) : Bool := b.sb = b.db && b.sp = b.dp && b.sf = b.df && (b.sf ≠ 5 || b.ssh = b.dsh)

/-! ### Checks (R179) -/

def unsupAt (b : Nat) : Ref4 := { status := stUnsupported, detail := 0x8000 + b }
def alignRef : Ref4 := { status := stAlign, detail := 0 }

/-- Check 1: layout, sizes, places. -/
def Blit.layout (s : State) (b : Blit) (p : Bytes) : Option Ref4 :=
  let src := b.op ≠ 1
  firstBad [
    (7 < b.xform, badAt 1), (1 < fld p 2 1, badAt 2), (4 < b.nclip, badAt 3), (nz p 7 1, badAt 7),
    (2 ^ 40 ≤ b.sb, badAt 8), (2 ^ 40 ≤ b.db, badAt 16),
    (src && !s.inMem (b.sb, b.sb + 1), badAt 8), (!s.inMem (b.db, b.db + 1), badAt 16),
    (src && b.sp < (b.sx + b.w) * blitBpp b.sf, badAt 24), (b.dp < (b.dx + b.dw) * blitBpp b.df, badAt 28),
    (b.w = 0 || 8192 < b.w, badAt 40), (b.h = 0 || 8192 < b.h, badAt 42),
    ((!src || b.sf ≠ 5) && b.ssh ≠ 0, badAt 44), (b.df ≠ 5 && b.dsh ≠ 0, badAt 46),
    (1000000 < b.dead, badAt 60),
    (src && b.sf ≤ 5 && b.srcExt.any fun e => !s.inMem e, badAt 8), (b.df ≤ 5 && b.dstExt.any fun e => !s.inMem e, badAt 16)]

/-- Check 2: the rules of the operations (R167 to R172). -/
def Blit.rules (b : Blit) : Option Ref4 :=
  firstBad [
    (2 < b.op, badAt 0),
    (b.op ≠ 1 && 5 < b.sf, badAt 4), (5 < b.df, badAt 5),
    (b.op = 0 && b.df ≠ b.sf, badAt 5),
    (b.op = 2 && !([0, 1, 3].contains b.sf), unsupAt 4),
    (b.op = 2 && !(b.df = 0 || b.df = 3), unsupAt 5),
    (b.op = 2 && b.sf ≠ 1 && b.sf ≠ b.df, unsupAt 5),
    (b.key && (b.op = 1 || !([0, 2, 3].contains b.sf)), unsupAt 2),
    (b.op = 1 && b.xform ≠ 0, badAt 1),
    (b.xform ≠ 0 && 3 < b.sf, unsupAt 1),
    (b.clips.any fun c => c.2.2.1 = 0 || c.2.2.2 = 0, badAt 64)]

/-- Check 3: alignment. -/
def Blit.aligned (b : Blit) : Bool :=
  let ok (fmt base pitch x y w h : Nat) := base % 64 = 0 && pitch % 64 = 0 && (fmt < 4 || (x % 2 = 0 && w % 2 = 0)) && (fmt ≠ 5 || (y % 2 = 0 && h % 2 = 0))
  (b.op = 1 || ok b.sf b.sb b.sp b.sx b.sy b.w b.h) && ok b.df b.db b.dp b.dx b.dy b.dw b.dh &&
    b.clips.all fun c => (b.df < 4 || (c.1 % 2 = 0 && c.2.2.1 % 2 = 0)) && (b.df ≠ 5 || (c.2.1 % 2 = 0 && c.2.2.2 % 2 = 0))

/-- A unit that is not out of service. -/
def State.bltServes (s : State) (u : Nat) : Bool := s.rd Reg.BLT_UNITSTAT_STATE u ≤ 1

/-- The five checks in order, and R181: no unit in service. -/
def chkBlit : OpChk := fun s _ p =>
  let b := blitOf p
  orElse (b.layout s p) fun _ => orElse b.rules fun _ => firstBad [
    (!b.aligned, alignRef),
    (meets b.srcExt b.dstExt && b.xform ≠ 0, { status := stOverlap, detail := 1 }),
    (meets b.srcExt b.dstExt && !b.same, { status := stOverlap, detail := 2 }),
    (s.rd Reg.CMP_CMPSTAT_ANY_EM = 1 && meets b.dstExt [(Config.csBase + s.emBase, Config.csBase + s.emBase + 0x1000000)], { status := stLocked, detail := 3 }),
    ((List.range 8).all fun u => !s.bltServes u, { status := stNoResource, detail := 0 })]

/-- A blit of a queue waits for the earlier ones it meets (R166); on an atomic flow the flow does it (R217). -/
def State.blitWaits (s : State) (q : Nat) (b : Blit) : List Nat :=
  if (s.flow (blitFlow q)).atomic then [] else
  ((s.spd.tasks.filter fun e => e.2.kind = kBlit && e.2.flow = blitFlow q && decide (e.2.state ≠ 5)).filter fun e =>
    let a := blitOf (tget (0, 0, []) s.blt.cmds e.1).2.2
    meets a.dstExt (b.srcExt ++ b.dstExt) || meets a.srcExt b.dstExt).map (·.1)

/-- Add the blit to its flow, behind the blits it waits for. -/
def runBlit : OpRun := fun c p s =>
  let ws := s.blitWaits c.q (blitOf p)
  match if s.genCount ≤ (ws.filter s.needsJoin).length then none else s.genNext with
  | none => (s, .stall)
  | some d =>
    let (q, s) := s.nextFseq (blitFlow c.q)
    let s := s.putTask d { newTask kBlit with flow := blitFlow c.q, ch := 255, fseq := q, key := c.key }
    let s := { s with blt := { s.blt with cmds := tset (0, 0, []) s.blt.cmds d (c.q, c.tag, p) } }
    (s.precede ws d, .later false)

def execOpBlit (h : Hdr) (p : Bytes) (s : State) : Host.Outcome State Fault Refusal :=
  finish (s.hostCmd (.opBlit h p) 0x0300 h p chkBlit runBlit)

/-! ### Units -/

def State.bltU (s : State) (u : Nat) : BltUnit := tget {} s.blt.units u
def State.setBltU (s : State) (u : Nat) (v : BltUnit) : State :=
  ({ s with blt := { s.blt with units := tset {} s.blt.units u v } }).powerRefresh

/-- The blit of a descriptor. -/
def State.blitAt (s : State) (d : Nat) : Nat × Nat × Blit :=
  let (q, tag, p) := tget (0, 0, []) s.blt.cmds d
  (q, tag, blitOf p)

/-- A blit reads or writes DRAM. -/
def State.blitDram (s : State) (b : Blit) : Bool := (s.space b.db).1 = 1 || (b.op ≠ 1 && (s.space b.sb).1 = 1)

/-- The scan order of a blit (R177): bottom first, right first. -/
def Blit.bottom (b : Blit) : Bool := meets b.srcExt b.dstExt && decide (b.sy < b.dy)
def Blit.right (b : Blit) : Bool := meets b.srcExt b.dstExt && decide (b.sx < b.dx)

/-- A unit takes a blit. -/
def State.blitStart (s : State) (d u : Nat) : State :=
  let (q, tag, b) := s.blitAt d
  let s := s.setTask d { s.task d with state := 4, target := 96 + u, start := s.ns }
  let s := (s.setBltU u { task := some d }).wr Reg.BLT_UNITSTAT_STATE 1 u
  let s := (s.wr Reg.BLT_UNITSTAT_BOTTOMFIRST (bit b.bottom) u).wr Reg.BLT_UNITSTAT_RIGHTFIRST (bit b.right) u
  (s.wr Reg.BLT_CURCMD_QUEUE q u).wr Reg.BLT_CURCMD_TAG tag u

/-! ### Pixels (R168 to R172, R175 to R177) -/

/-- The byte pieces of the cell at surface pixel (x, y), as (address, length). -/
def cellAt (fmt base pitch sh x y : Nat) : List (Nat × Nat) :=
  if fmt = 4 then [(base + y * pitch + 4 * x, 8)]
  else if fmt = 5 then [(base + y * pitch + 2 * x, 4), (base + (y + 1) * pitch + 2 * x, 4), (base + pitch * sh + y / 2 * pitch + 2 * x, 4)]
  else [(base + y * pitch + x * blitBpp fmt, blitBpp fmt)]

def State.readCell (s : State) (c : List (Nat × Nat)) : Bytes := c.flatMap fun e => (List.range e.2).map fun i => s.byte (e.1 + i)

/-- Store a cell. The emergency partition takes nothing while it is locked, from a blit accepted before the lock either (R161; DEDUCED: log entry 106). -/
def State.writeCell (s : State) : List (Nat × Nat) → Bytes → State
  | [], _ => s
  | (a, n) :: r, v => (if s.emLocked a then s else s.setBytes a (v.take n)).writeCell r (v.drop n)

/-- A FILL cell (R168). -/
def fillCell (fmt fill : Nat) : Bytes :=
  let y := toLe 2 (fill % 1024)
  let cb := toLe 2 (fill / 2 ^ 10 % 1024)
  let cr := toLe 2 (fill / 2 ^ 20 % 1024)
  if fmt = 4 then cb ++ y ++ cr ++ y
  else if fmt = 5 then y ++ y ++ y ++ y ++ cb ++ cr
  else toLe (blitBpp fmt) fill

/-- Source-over in 8 bits (R169) on a container of 32 bits. -/
def blendPx (galpha fill : Nat) (a8 : Bool) (src dst : Nat) : Nat :=
  let col := if a8 then fill % 2 ^ 24 else src % 2 ^ 24
  let as := if a8 then src % 256 else src / 2 ^ 24
  let a := (as * galpha + 127) / 255
  let comp (i : Nat) := (col / 2 ^ (8 * i) % 256 * a + dst / 2 ^ (8 * i) % 256 * (255 - a) + 127) / 255
  comp 0 + comp 1 * 2 ^ 8 + comp 2 * 2 ^ 16 + (a + (dst / 2 ^ 24 * (255 - a) + 127) / 255) * 2 ^ 24

/-- The source offset that lands on a destination offset (R171). -/
def Blit.from (b : Blit) (u v : Nat) : Nat × Nat :=
  let (x, y) := match b.xform % 4 with
    | 0 => (u, v)
    | 1 => (v, b.h - 1 - u)
    | 2 => (b.w - 1 - u, b.h - 1 - v)
    | _ => (b.w - 1 - v, u)
  (if b.xform.testBit 2 then b.w - 1 - x else x, y)

/-- The number of cells, and the destination offset of cell `k` in scan order. -/
def Blit.cells (b : Blit) : Nat := b.dw / cellW b.df * (b.dh / cellH b.df)
def Blit.place (b : Blit) (k : Nat) : Nat × Nat :=
  let cols := b.dw / cellW b.df
  let r := k / cols
  let c := k % cols
  ((if b.right then cols - 1 - c else c) * cellW b.df, (if b.bottom then b.dh / cellH b.df - 1 - r else r) * cellH b.df)

/-- A destination pixel survives clipping (R172). -/
def Blit.inClip (b : Blit) (x y : Nat) : Bool :=
  b.clips.isEmpty || b.clips.any fun c => decide (c.1 ≤ x) && decide (x < c.1 + c.2.2.1) && decide (c.2.1 ≤ y) && decide (y < c.2.1 + c.2.2.2)

/-- What a burst has done so far: the place in scan order, and the pieces it read and wrote. -/
structure Burst where
  pos : Nat
  rd  : List (Nat × Nat) := []
  wr  : List (Nat × Nat) := []
deriving DecidableEq, Repr

/-- The next cells of a blit, while their bytes fit in `left`. Pixels that clipping or the key skips count nothing toward the 4,096 bytes of a burst, and a burst of format
5 ends before the 2 × 2 block that would pass them (DESIGN CHOICE: log entry 104). -/
def blitCells (b : Blit) : Nat → Nat → State → Burst → State × Burst
  | 0, _, s, x => (s, x)
  | n + 1, left, s, x =>
    if b.cells ≤ x.pos then (s, x) else
    let (u, v) := b.place x.pos
    let stop := (s, x)
    let full := left < cellB b.df
    let x := { x with pos := x.pos + 1 }
    if !b.inClip (b.dx + u) (b.dy + v) then blitCells b n left s x else
    let dc := cellAt b.df b.db b.dp b.dsh (b.dx + u) (b.dy + v)
    if b.op = 1 then (if full then stop else blitCells b n (left - cellB b.df) (s.writeCell dc (fillCell b.df b.fill)) { x with wr := x.wr ++ dc }) else
    let (i, j) := b.from u v
    let sc := cellAt b.sf b.sb b.sp b.ssh (b.sx + i) (b.sy + j)
    let src := s.readCell sc
    let x := { x with rd := x.rd ++ sc }
    if b.key ∧ leNat src &&& b.keymask = b.keyval &&& b.keymask then blitCells b n left s x
    else if full then stop
    else if b.op = 0 then blitCells b n (left - cellB b.df) (s.writeCell dc src) { x with wr := x.wr ++ dc }
    else
      let v := blendPx b.galpha b.fill (b.sf = 1) (leNat src) (leNat (s.readCell dc))
      blitCells b n (left - cellB b.df) (s.writeCell dc (toLe 4 v)) { x with rd := x.rd ++ dc, wr := x.wr ++ dc }

/-- Bytes of a list of pieces. -/
def pieceBytes (l : List (Nat × Nat)) : Nat := l.foldl (fun a e => a + e.2) 0

/-- The first address a burst reads from a damaged line: a piece read, or a line written in part. -/
def State.burstBad (s : State) (x : Burst) : Option Nat :=
  match x.rd.find? fun e => s.badLine e.1 with
  | some e => some e.1
  | none =>
    (x.wr.find? fun e => s.badLine e.1 && decide (pieceBytes (x.wr.filter fun f => f.1 / 64 = e.1 / 64) < 64)).map (·.1)

/-- Lines of the store and of DRAM written in whole carry good checks again (R175, R200, R395). -/
def State.mendBurst (s : State) (x : Burst) : State :=
  x.wr.foldl (fun s e => if s.badLine e.1 && decide (64 ≤ pieceBytes (x.wr.filter fun f => f.1 / 64 = e.1 / 64)) then s.mendLine e.1 else s) s

/-- Marks that a burst's writes leave: mended lines, and variants written to. -/
def State.burstMarks (s : State) (x : Burst) : State :=
  let x := { x with wr := x.wr.filter fun e => !s.emLocked e.1 }
  x.wr.foldl (fun s e => match s.space e.1 with | (0, o) => if s.emBase ≤ o then s.emTouched o e.2 else s | _ => s) (s.mendBurst x)

/-- An armed check error meets the store lines a burst reads (R496): the first address delivered uncorrectable. -/
def State.burstInject (s : State) (u : Nat) (x : Burst) : Option Nat × State :=
  x.rd.foldl (fun (acc : Option Nat × State) e =>
    if acc.1.isSome ∨ (acc.2.space e.1).1 ≠ 0 then acc else
    let (hit, s) := acc.2.csInject (32 + u)
    (if hit = 2 then some e.1 else none, s)) (none, s)

/-- The counters of a burst (R182, R204), whose lines pass the unit's check value unit (R426). -/
def State.burstCount (s : State) (u : Nat) (x : Burst) : State :=
  let w := pieceBytes x.wr
  let s := s.cvuLines (896 + u) (x.wr.map (·.1 / 64 * 64)).dedup
  let s := (s.incWrap Reg.BLT_BURSTS_COUNT 1 u).incWrap Reg.BLT_BYTES_COUNT w u
  let s := s.incWrap Reg.CST_PORT_BYTES (pieceBytes x.rd + w) 0 (32 + u)
  s.setBltU u { s.bltU u with pos := x.pos, bytes := (s.bltU u).bytes + w }

/-- The blit of a unit ends (R180). -/
def State.blitEnd (s : State) (u status detail addr : Nat) : State :=
  match (s.bltU u).task with
  | none => s
  | some d =>
    let (q, tag, _) := s.blitAt d
    let n := (s.bltU u).bytes
    let key := (s.task d).key
    let s := if status = stOk then s.incWrap Reg.BLT_DONECNT_COUNT 1 u else
      let s := (s.incSat Reg.BLT_ERRCNT_ABORTS 1 u).wr Reg.BLT_LASTERR_DETAIL detail u
      let s := (s.wr Reg.BLT_LASTERR_QUEUE q u).wr Reg.BLT_LASTERR_TAG tag u
      let s := if detail = 4 then s else s.wr Reg.BLT_LASTERR_ADDR addr u
      s.ev (evBlt u) 255 detail (s.rd Reg.BLT_LASTERR_ADDR u)
    let s := s.setBltU u { s.bltU u with task := none }
    let s := { s with blt := { s.blt with cmds := tdel s.blt.cmds d } }
    (s.taskDone d).complete key status detail n

/-- The dead time after a burst (R173); a dead time of zero is over at once. -/
def State.blitDead (s : State) (u cycles : Nat) : State :=
  if cycles = 0 then (if (s.bltU u).task = none then s.wr Reg.BLT_UNITSTAT_STATE 0 u else s)
  else s.setBltU u { s.bltU u with dead := some cycles }

/-- The cycles of a blit's dead time after a burst: with DEADMIN where the burst read or wrote DRAM (R173). -/
def State.deadOf (s : State) (u : Nat) (b : Blit) (x : Burst) : Nat :=
  if (x.rd ++ x.wr).any fun e => (s.space e.1).1 = 1 then max b.dead (s.rd Reg.BLT_DEADMIN_CYCLES u) else b.dead

/-- A line of the store that a blit finds uncorrectable (R197); `kind` says how, for one not known to be damaged (3: an
injected check error, which leaves the line as it is). -/
def State.blitLine (s : State) (u a kind : Nat) : State :=
  match s.space a with
  | (0, o) =>
    let s := if s.badLine a ∨ kind = 3 then s else s.csDamage (o / 64) kind
    s.csUncorr o (32 + u) (s.csFound (o / 64)).kind
  | _ => s

/-- A burst ends: 0 well, 1 on a line uncorrectable at `addr` (`part` its kind), 2 on a write error there, after `part` bytes of it. A
damaged line found in the burst is outcome 1. -/
def execBlitBurstEnd (u : Fin 8) (err : Fin 3) (addr part : Nat) (s : State) : Host.Outcome State Fault Refusal :=
  finish (
    match (s.bltU u).task with
    | none => s
    | some d =>
      if (s.bltU u).dead ≠ none ∨ s.rd Reg.BLT_UNITSTAT_STATE u ≠ 1 then s else
      let (_, _, b) := s.blitAt d
      let x := (blitCells b (b.cells - (s.bltU u).pos) (if err = 2 then min part 4095 else 4096) s { pos := (s.bltU u).pos }).2
      let (inj, s) := s.burstInject u x
      let t := (blitCells b (b.cells - (s.bltU u).pos) (if err = 2 then min part 4095 else 4096) s { pos := (s.bltU u).pos }).1
      let dead := s.deadOf u b x
      match (s.burstBad x).or inj, err.val with
      | some a, _ => ((s.blitLine u a 3 |>.burstCount u { pos := (s.bltU u).pos }).blitEnd u stAborted 1 (a / 64 * 64)).blitDead u dead
      | none, 1 => ((s.blitLine u addr (part % 3) |>.burstCount u { pos := (s.bltU u).pos }).blitEnd u stAborted 1 (addr / 64 * 64)).blitDead u dead
      | none, 2 => (((t.burstMarks x).burstCount u x).blitEnd u stAborted 2 (addr / 64 * 64)).blitDead u dead
      | none, _ =>
        let s := (t.burstMarks x).burstCount u x
        (if b.cells ≤ x.pos then s.blitEnd u stOk 0 0 else s).blitDead u dead)

/-- What a unit has waited of a dead time is counted (R182): all of it, or the cycles to the moment it fails. -/
def State.deadSpent (s : State) (u cycles : Nat) : State := (s.setBltU u { s.bltU u with dead := none }).incWrap Reg.BLT_DEADCYC_CYCLES cycles u

/-- A dead time expires: the unit goes idle, or starts its next burst. -/
def execBlitDeadTimeEnd (u : Fin 8) (s : State) : Host.Outcome State Fault Refusal :=
  finish (match (s.bltU u).dead with
    | none => s
    | some c =>
      let s := s.deadSpent u c
      if (s.bltU u).task = none ∧ s.rd Reg.BLT_UNITSTAT_STATE u = 1 then s.wr Reg.BLT_UNITSTAT_STATE 0 u else s)

/-- A parity error inside a unit (R181), after `part` bytes of its burst, or `part` cycles into its dead time. The self-test begins. -/
def execBlitUnitFailure (u : Fin 8) (part : Nat) (s : State) : Host.Outcome State Fault Refusal :=
  finish (
    if 1 < s.rd Reg.BLT_UNITSTAT_STATE u then s else
    let s := match (s.bltU u).task with
      | none => s.ev (evBlt u) 255 4 (s.rd Reg.BLT_LASTERR_ADDR u)
      | some d =>
        let b := (s.blitAt d).2.2
        let (t, x) := blitCells b (b.cells - (s.bltU u).pos) (if (s.bltU u).dead = none then min part 4095 else 0) s { pos := (s.bltU u).pos }
        let w := pieceBytes x.wr
        let t := (t.burstMarks x).incWrap Reg.BLT_BYTES_COUNT w u
        (t.setBltU u { t.bltU u with bytes := (t.bltU u).bytes + w }).blitEnd u stAborted 4 0
    let s := match (s.bltU u).dead with | some c => s.deadSpent u (min part c) | none => s
    ((s.incSat Reg.BLT_ERRCNT_FAULTS 1 u).wr Reg.BLT_UNITSTAT_STATE 2 u).putSelftest (96 + u) 3)

/-- A dispatched self-test of a unit ends: the unit returns to service, or stays out until a reset. -/
def execBlitSelftestEnd (u : Fin 8) (pass : Bool) (s : State) : Host.Outcome State Fault Refusal :=
  finish (match s.testOf (96 + u) with
    | none => s
    | some d => (if s.rd Reg.BLT_UNITSTAT_STATE u ≠ 2 then s else s.wr Reg.BLT_UNITSTAT_STATE (if pass then 0 else 3) u).taskDone d)

end Sys2Proof.Machine
end

