-- ==== Sys2Proof/Machine/InCmds.lean ====
section
/-! DEFINITION. Input flow commands, joins, MAC links (R269, R270, R273, R274, R280, R291). -/

namespace Sys2Proof.Machine

/-! ### Joins (R273, R274) -/

def InFlow.group (x : InFlow) (net : Nat) : Nat := if net = 0 then x.groupA else x.groupB
def InFlow.src (x : InFlow) (net : Nat) : Nat := if net = 0 then x.srcA else x.srcB
def InFlow.dport (x : InFlow) (net : Nat) : Nat := if net = 0 then x.dportA else x.dportB
def joinRow (net : Nat) : Row := if net = 0 then Reg.INP_FLOWVIEW_JOINMAC_A else Reg.INP_FLOWVIEW_JOINMAC_B

/-- The copy's reports can leave a MAC: a multicast group, and an IPv4 address for IGMP. -/
def State.canReport (s : State) (x : InFlow) (net m : Nat) : Bool :=
  isGroup (x.group net) && (!isV4 (x.group net) || s.ip4 m ≠ 0)

/-- The up MAC of a network with the fewest joins, the lowest number on a tie. -/
def State.joinPick (s : State) (net : Nat) : Option Nat :=
  match (s.netMacs net).filter s.macUp with
  | [] => none
  | m :: ms => some (ms.foldl (fun b x => if s.rd Reg.NET_JOINS_COUNT (x / 4) (x % 4) < s.rd Reg.NET_JOINS_COUNT (b / 4) (b % 4) then x else b) m)

def State.addJoins (s : State) (m : Nat) (up : Bool) : State :=
  let v := s.rd Reg.NET_JOINS_COUNT (m / 4) (m % 4)
  s.wr Reg.NET_JOINS_COUNT (if up then v + 1 else v - 1) (m / 4) (m % 4)

/-- Join a copy on a MAC, or leave it without one. -/
def State.joinOn (s : State) (f net : Nat) (m : Option Nat) : State :=
  match s.flowIn f with
  | none => s
  | some x =>
    match m with
    | none => s.wr (joinRow net) 15 f
    | some m =>
      let s := (s.wr (joinRow net) m f).addJoins m true
      if s.canReport x net m then s.emit (.join m f false) else s

/-- A leave report on a MAC, now. -/
def State.leaveOn (s : State) (f net m : Nat) (x : InFlow) : State :=
  if s.macUp m && s.canReport x net m then s.emit (.join m f true) else s

/-- Move a copy's join: the report on the new MAC first, the leave 50 ms later. -/
def State.joinMove (s : State) (f net m : Nat) : State :=
  let old := s.rd (joinRow net) f
  let s := if old < 15 then
      { (s.addJoins old false) with inp := { (s.addJoins old false).inp with leaves := s.inp.leaves ++ [(f, net, old, s.ns + 50000000)] } }
    else s
  (s.joinOn f net (some m)).ev (evNet (m / 4) 5)

/-- Copies, as (flow, network), in rising order. -/
def State.copies (s : State) : List (Nat × Nat) :=
  (keys s.inp.flows).flatMap fun f => match s.flowIn f with
    | some x => ((List.range 2).filter fun n => x.nets.testBit n).map fun n => (f, n)
    | none => []

/-- Even the joins of a network out over its up MACs, one copy at a time. -/
def balanceFuel : Nat → Nat → Nat → State → State
  | 0, _, _, s => s
  | n + 1, net, m, s =>
    let load (x : Nat) := s.rd Reg.NET_JOINS_COUNT (x / 4) (x % 4)
    let ups := (s.netMacs net).filter s.macUp
    let top := ups.foldl (fun b x => if load b < load x then x else b) m
    if load top ≤ load m + 1 then s else
    match s.copies.find? fun c => c.2 = net && s.rd (joinRow net) c.1 = top with
    | some c => balanceFuel n net m (s.joinMove c.1 net m)
    | none => s

def netOf (m : Nat) : Nat := if m < 8 then 0 else 1

/-- Set or clear bit `m` of a port's 4-bit field. -/
def State.portBit (s : State) (r : Row) (m : Nat) (v : Bool) : State :=
  let old := s.rd r (m / 4)
  s.wr r ((old &&& (15 ^^^ 2 ^ (m % 4))) ||| (bit v * 2 ^ (m % 4))) (m / 4)

/-- A MAC comes up: copies with no join MAC take it, and joins are evened out. Bit i of `inv`: lane i of the port was found
inverted (R355). -/
def execMacLinkUp (m : Fin 16) (inv : Fin 16) (s : State) : Host.Outcome State Fault Refusal :=
  finish (
    if !s.macUsed m ∨ s.macUp m then s else
    let net := netOf m
    let s := (List.range 4).foldl (fun (s : State) i =>
      let l := m.val / 4 * 4 + i
      if inv.val.testBit i && s.rd Reg.SDS_LCTL_RXINV_AUTO l = 1 then s.wr Reg.SDS_LSTAT_RXINV 1 l else s) s
    let s := ((s.portBit Reg.NET_LINKSTAT_UP m true).portBit Reg.NET_LINKSTAT_FECLOCK m true).ev (evNet (m / 4) 0)
    let s := { s with inp := { s.inp with query := tset false s.inp.query m false } }
    let s := s.copies.foldl (fun s c => if c.2 = net ∧ s.rd (joinRow net) c.1 = 15 then s.joinOn c.1 net (s.joinPick net) else s) s
    balanceFuel (s.copies.length + 1) net m s)

/-- A MAC goes down (R270): the frames that wait for its wire are not sent, and its joins move to the other up MACs; `fec`: its
FEC stays locked. -/
def State.macDown (s : State) (m : Nat) (fec : Bool) : State :=
  if !s.macUp m then s else
  let s := s.setArb m {}
  let net := netOf m
  let s := ((s.portBit Reg.NET_LINKSTAT_UP m false).portBit Reg.NET_LINKSTAT_FECLOCK m fec).ev (evNet (m / 4) 1)
  s.copies.foldl (fun s c =>
    if c.2 = net ∧ s.rd (joinRow net) c.1 = m then
      match s.joinPick net with
      | some t => s.joinMove c.1 net t
      | none => (s.addJoins m false).joinOn c.1 net none
    else s) s

/-- A MAC goes down. -/
def execMacLinkDown (m : Fin 16) (fec : Bool) (s : State) : Host.Outcome State Fault Refusal := finish (s.macDown m fec)

/-- 50 ms after a join moved, the leave goes out on the old MAC. -/
def execJoinLeave (f : Fin 384) (net : Fin 2) (s : State) : Host.Outcome State Fault Refusal :=
  finish (
    match s.inp.leaves.find? fun e => e.1 = f.val ∧ e.2.1 = net.val ∧ e.2.2.2 ≤ s.ns with
    | none => s
    | some e =>
      let s := { s with inp := { s.inp with leaves := s.inp.leaves.erase e } }
      match s.flowIn f with
      | some x => if s.rd (joinRow net) f = e.2.2.1 then s else s.leaveOn f net e.2.2.1 x
      | none => s)

/-- The rate events of a port for the second that ends (R291): corrected symbols, corrected codewords and uncorrectable
codewords of each MAC in it; FCSERR and CTRLDROP are compared with the second before. -/
def execFecRateSecond (p : Fin 4) (corrSym corrCw uncorr : List Nat) (s : State) : Host.Outcome State Fault Refusal :=
  finish (
    let s := s.forEach (List.range 4) fun s m =>
      (s.incWrap Reg.NET_FECCORR_COUNT (corrCw.getD m 0) p m).incWrap Reg.NET_FECUNCORR_COUNT (uncorr.getD m 0) p m
    let rose (k : Nat) (r : Row) := (List.range 4).any fun m => decide (tget 0 s.inp.secEv (64 * k + 4 * p + m) ≠ s.rd r p m)
    let fcs := rose 0 Reg.NET_FCSERR_COUNT
    let drop := rose 1 Reg.NET_CTRLDROP_COUNT
    let snap := (List.range 4).foldl (fun t m =>
      tset 0 (tset 0 t (4 * p + m) (s.rd Reg.NET_FCSERR_COUNT p m)) (64 + 4 * p + m) (s.rd Reg.NET_CTRLDROP_COUNT p m)) s.inp.secEv
    let s := { s with inp := { s.inp with secEv := snap } }
    let s := if uncorr.any (· ≠ 0) then s.ev (evNet p 2) else s
    let s := if corrSym.any fun c => s.rd Reg.NET_FECTHR_PERSEC p < c then s.ev (evNet p 3) else s
    let s := if fcs then s.ev (evNet p 4) else s
    if drop then s.ev (evNet p 6) else s)

/-! ### OP_IN_CREATE, OP_IN_DESTROY, OP_IN_SET_METER -/

/-- Return the registers of one selected entry of a block to their reset values. -/
def State.clearView (s : State) (rows : List Row) (view i : Nat) : State :=
  (rows.filter fun r => r.view = view).foldl (fun s r => s.wr r r.rst i) s

def chkInCreate : OpChk := fun s _ p =>
  let m := fld p 72 2
  firstBad [
    (383 < fld p 0 2, badAt 0), (2 < fld p 2 1, badAt 2), (fld p 3 1 = 0 || 3 < fld p 3 1, badAt 3),
    (511 < m && m ≠ 0xFFFF, badAt 72), (nz p 74 6, badAt 74),
    ((s.flowIn (fld p 0 2)).isSome, { status := stBusy, detail := 1 })]

/-- A flow comes into being on its networks: its registers, and the joins of its copies (R273). -/
def State.flowCreate (s : State) (f : Nat) (x : InFlow) : State :=
  let s := (s.setFlowIn f (some x)).clearView Reg.rowsINP 1 f
  let s := ((s.wr Reg.INP_FLOWVIEW_KIND x.kind f).wr Reg.INP_FLOWVIEW_NETS x.nets f).wr Reg.INP_FLOWVIEW_VALID 1 f
  let s := s.wr Reg.INP_INPSTAT_FLOWS (s.rd Reg.INP_INPSTAT_FLOWS + 1)
  s.forEach ((List.range 2).filter fun n => x.nets.testBit n) fun s n => s.joinOn f n (s.joinPick n)

def runInCreate : OpRun := fun _ p s =>
  (s.flowCreate (fld p 0 2)
    { kind := fld p 2 1, nets := fld p 3 1, dportA := fld p 4 2, dportB := fld p 6 2, groupA := nfld p 8 16,
      srcA := nfld p 24 16, groupB := nfld p 40 16, srcB := nfld p 56 16, meter := fld p 72 2 }, ok2 0 0)

def execOpInCreate (h : Hdr) (p : Bytes) (s : State) : Host.Outcome State Fault Refusal :=
  finish (s.hostCmd (.opInCreate h p) 0x0120 h p chkInCreate runInCreate)

def chkInDestroy : OpChk := fun s _ p =>
  let f := fld p 0 2
  firstBad [
    (383 < f || (s.flowIn f).isNone, badAt 0), (nz p 2 2, badAt 2),
    (s.flowInUse f || (List.range 64).any fun n => (List.range 4).any (fun k => s.layerFlow (4 * n + k) = some f) ||
        (List.range 8).any (fun k => match s.slotRoute n k with | some r => r.kind = 1 && r.src = f | none => false),
      { status := stBusy, detail := 2 })]

/-- A flow ceases to exist: its copies leave their MACs, and those that a move is to leave yet, and its ring's pages are free. -/
def State.flowDestroy (s : State) (f : Nat) : State :=
  match s.flowIn f with
  | none => s
  | some x =>
    let s := s.forEach ((List.range 2).filter fun n => x.nets.testBit n) fun s n =>
      let m := s.rd (joinRow n) f
      let s := if m < 15 then (s.addJoins m false).leaveOn f n m x else s
      (s.inp.leaves.filter fun e => e.1 = f ∧ e.2.1 = n).foldl (fun s e => s.leaveOn f n e.2.2.1 x) s
    let s := { s with inp := { s.inp with leaves := s.inp.leaves.filter fun e => e.1 ≠ f } }
    let s := (s.wipePages x.pages).setFlowIn f none
    let s := (s.clearView Reg.rowsINP 1 f).wr Reg.INP_INPSTAT_FLOWS (s.rd Reg.INP_INPSTAT_FLOWS - 1)
    s.pageCounts

def runInDestroy : OpRun := fun _ p s => (s.flowDestroy (fld p 0 2), ok2 0 0)

def execOpInDestroy (h : Hdr) (p : Bytes) (s : State) : Host.Outcome State Fault Refusal :=
  finish (s.hostCmd (.opInDestroy h p) 0x0121 h p chkInDestroy runInDestroy)

def chkInSetMeter : OpChk := fun _ _ p =>
  let cir := fld p 4 4
  let pir := fld p 8 4
  let out (v : Nat) := v < 9216 || 2147483647 < v
  firstBad [
    (511 < fld p 0 2, badAt 0), (nz p 2 2, badAt 2), (400000000 < cir, badAt 4), (pir < cir || 400000000 < pir, badAt 8),
    (out (fld p 12 4), badAt 12), (out (fld p 16 4), badAt 16), (nz p 20 4, badAt 20)]

/-- The new values take effect at once, with all four buckets full (R280). -/
def runInSetMeter : OpRun := fun _ p s =>
  let k := fld p 0 2
  let b (v : Nat) : Tab Nat := [(0, v * 65536), (1, v * 65536)]
  let s := s.setMeter k { set := true, cir := fld p 4 4, pir := fld p 8 4, cbs := fld p 12 4, pbs := fld p 16 4, tc := b (fld p 12 4),
                          tp := b (fld p 16 4), last := tset 0 (tset 0 [] 0 s.ns) 1 s.ns, red := (s.meter k).red }
  ((s.wr Reg.INP_METERVIEW_SET 1 k).wr Reg.INP_METERVIEW_SET 1 (512 + k), ok2 0 0)

def execOpInSetMeter (h : Hdr) (p : Bytes) (s : State) : Host.Outcome State Fault Refusal :=
  finish (s.hostCmd (.opInSetMeter h p) 0x0122 h p chkInSetMeter runInSetMeter)

end Sys2Proof.Machine
end

