-- ==== Sys2Proof/Machine/Commit.lean ====
section
/-! DEFINITION. What a channel's commits change when they apply at a row release (R21, R220, R238), and the start of a
channel (R36, R43, R70, R366). -/

namespace Sys2Proof.Machine

/-- The base of the first unit of the first picture at or after a row (R308). -/
def State.nextPicBase (s : State) (n frame row : Nat) : Nat :=
  s.refNs n (if row = 0 then frame else frame + 1) 0 + s.latNs n

/-- The active rate settings (R131, R132). -/
def State.rateAct (s : State) (n maxrate emcap tq qmin qmax dqp slack ofs : Nat) : State :=
  let s := (s.wr Reg.CHC_RCCAP_MAXRATE_ACT maxrate n).wr Reg.CHC_RCEMCAP_EMCAP_ACT emcap n
  let s := (s.wr Reg.CHC_RCQP_TARGET_QP_ACT tq n).wr Reg.CHC_RCQP_QP_MIN_ACT qmin n
  let s := (s.wr Reg.CHC_RCQP_QP_MAX_ACT qmax n).wr Reg.CHC_RCQP_CTU_DQP_MAX_ACT dqp n
  (s.wr Reg.CHC_RCTUNE_ROW_SLACK_ACT slack n).wr Reg.CHC_RCTUNE_REFRESH_QP_OFS_ACT ofs n

/-- The active refresh settings (R120). -/
def State.refreshAct (s : State) (n mode per : Nat) : State :=
  (s.wr Reg.CHC_REFRESH_MODE_ACT mode n).wr Reg.CHC_REFRESH_PERIOD_ACT per n

/-- The fields of OP_CH_SET_CODING that change while a channel runs come into force (R72). -/
def State.seiAct (s : State) (n mask captions : Nat) (mdcv : Bytes) (cll ccflow : Nat) : State :=
  let c := s.chan n
  let (a, m, l, f) := c.sei
  let (a, f) := if mask.testBit 5 then (captions, ccflow) else (a, f)
  s.setChan n { c with sei := (a, if mask.testBit 6 then mdcv else m, if mask.testBit 7 then cll else l, f) }

/-- A route comes into force (R343), and an AUTO shaper follows (R308). -/
def State.routeAct (s : State) (g slot : Nat) (r : Option Route) : State :=
  { s with routesAct := tset none s.routesAct (8 * g + slot) r }

/-- A commit applies at the release of a row (step 2). A start is applied by the Spindle's tick. -/
def State.applyCommit (s : State) (c : Commit) (frame row : Nat) : State :=
  let n := c.ch
  let b := s.nextPicBase n frame row
  let s := match c.kind with
    | .rate mr em tq lo hi dqp sl ofs => (s.rateAct n mr em tq lo hi dqp sl ofs).autoFollow n b
    | .refresh mode per => s.refreshAct n mode per
    | .coding mask vals mdcv cll ccflow => s.seiAct n mask (vals.headD 0) mdcv cll ccflow
    | .stop => (s.setChan n { s.chan n with lastPic := some frame }).setChSt n 4 frame
    | .markLong =>
      let k := s.chan n
      s.setChan n { k with longNamed := k.longNamed ++ [if row = 0 then frame else frame + 1] }
    | .route slot kind src pair => (s.routeAct n slot (some { kind, src, pair })).autoFollow n b
    | .unroute slot => (s.routeAct n slot none).autoFollow n b
    | .shaper net sidx mode rate burst ovh =>
      let rm := match s.prog n with | some p => s.rMin n net sidx p ovh | none => rate
      s.shaperChange n net sidx (some (s.refNs n frame row + s.latNs n)) (if rate = 0 then rm else rate) burst ovh mode (rate = 0)
    | k => s.layerCommit n k
  s.commitDone c

/-- Insertion by number. -/
def insCommit (x : Commit) : List Commit → List Commit
  | [] => [x]
  | y :: r => if x.fseq < y.fseq then x :: y :: r else y :: insCommit x r

/-- The commits of a channel due at a row, in the order of their numbers (R239). -/
def Chan.dueCommits (c : Chan) (frame row : Nat) : List Commit :=
  (c.commits.filter fun x => x.kind ≠ .start && rowLe (x.frame, x.row) (frame, row)).foldl (fun l x => insCommit x l) []

/-- Apply them (step 2 of a row release). -/
def State.applyDue (s : State) (n frame row : Nat) : State :=
  let c := s.chan n
  let due := c.dueCommits frame row
  let s := s.setChan n { c with commits := c.commits.filter fun x => !due.contains x }
  due.foldl (fun s x => s.applyCommit x frame row) s

/-- A channel starts (R36): references and ring empty, the mask in force, C and L_min fixed until it stops (R70, R366),
shapers and rate control afresh, its row flows open (R218). -/
def State.startChan (s : State) (n : Nat) : State :=
  let c := s.chan n
  let s := s.clearRefs n
  let s := s.setChan n { s.chan n with
    cRate := s.capC n, lminStart := s.lMinOf n, pixPresent := s.pix n, lastPic := none, packed := none, ring := [], ringHead := 0, composed := [], bands := [], pfx := [], substs := [],
    maskFrame := none, paramBad := false, rcWait := none, longNamed := [],
    sei := (c.coding.captions, c.coding.mdcv, c.coding.cll, c.coding.ccflow) }
  let s := s.wr Reg.CHC_SLOTMASK_ACT_ENGINES (s.rd Reg.CHC_SLOTMASK_ENGINES n) n
  let s := s.wr Reg.CHC_CPBSIZE_BYTES (s.cpbOf n) n
  let k := sliceCols c.raster
  let s := s.setFlow n { s.flow n with valid := true, window := 2 * k }
  let s := s.setFlow (0x40 + n) { s.flow (0x40 + n) with valid := true, window := 3 }
  let s := (s.rcStart n).shapersStart n
  let s := ((s.setRun n 0).setFollow n (s.role = 3)).setChSt n 3 c.startFrame
  s.launchShow n

end Sys2Proof.Machine
end

