-- ==== Sys2Proof/Machine/OutCmds.lean ====
section
/-! DEFINITION. OP_OUT_CREATE, OP_OUT_DESTROY, OP_OUT_SET_SHAPER, OP_OUT_SET_WINDOW, OP_AUD_ROUTE and OP_AUD_UNROUTE
(R294, R295, R302, R305, R308, R311, R342, R343). -/

namespace Sys2Proof.Machine

/-! ### Programs -/

/-- A program out of OP_OUT_CREATE. PIDs are 13 bits wide (log entry 23). -/
def progOf (p : Bytes) : Prog :=
  { nets := fld p 0 1, mode := fld p 1 1, pt := fld p 2 1, dscp := fld p 3 1, dport := fld p 4 2, sport := fld p 6 2, ssrc := fld p 8 4,
    ttl := fld p 12 1, initSeq := fld p 14 2, dstA := nfld p 16 16, dstB := nfld p 32 16, pmtPid := fld p 48 2 % 8192,
    vidPid := fld p 50 2 % 8192, audPid := fld p 52 2 % 8192, progNum := fld p 54 2, audPort := fld p 56 2, audPt := fld p 58 1 }

/-- The shapers of a program. -/
def Prog.shapers (p : Prog) (g : Nat) : List (Nat × Nat) := p.netList.flatMap fun net => p.streams.map fun x => (net, shaperOf g net x)

/-- Whether some slot is routed, as PROG shows it. -/
def State.audioShow (s : State) (g : Nat) : State := s.wr Reg.PKT_PROG_AUDIO (bit ((s.prog g).isSome && s.slots g ≠ [])) g

/-- The registers of a program at zero. -/
def State.progClear (s : State) (g : Nat) : State :=
  [Reg.PKT_PROG_VALID, Reg.PKT_PROG_MODE, Reg.PKT_PROG_NETS, Reg.PKT_PROG_AUDIO, Reg.PKT_PROG_SEQ_NEXT, Reg.PKT_PROG_SEQ_AUDNEXT,
    Reg.PKT_PROG_FRAMES_COUNT, Reg.PKT_PROG_ERR_REPLACED, Reg.PKT_PROG_ERR_NOADDR].foldl (fun s r => s.wr r 0 g) s

/-- The registers of a shaper at zero. -/
def State.shaperClear (s : State) (i : Nat) : State :=
  let s := [Reg.SHP_SHAPER_RATE, Reg.SHP_SHAPER_MAC, Reg.SHP_SHAPER_AUTO, Reg.SHP_SHAPER_RESET_MODE, Reg.SHP_SHAPER_INUSE,
    Reg.SHP_SHAPER_LAUNCHING, Reg.SHP_SHAPER_LATE].foldl (fun s r => s.wr r 0 0 i) s
  [Reg.SHP_SHPVIEW_BURST, Reg.SHP_SHPVIEW_OVERHEAD, Reg.SHP_SHPVIEW_CREDIT, Reg.SHP_SHPVIEW_RMIN].foldl (fun s r => s.wr r 0 i) s

/-- A program comes into being with its shapers at the defaults of R305; on an admitted channel its flows get MACs. -/
def State.outCreate (s : State) (g : Nat) (p : Prog) : State :=
  let s := ((s.setProg g (some p)).setPkr g {}).progClear g
  let s := ((s.wr Reg.PKT_PROG_VALID 1 g).wr Reg.PKT_PROG_MODE p.mode g).wr Reg.PKT_PROG_NETS p.nets g
  let s := ((s.wr Reg.PKT_PROG_SEQ_NEXT p.initSeq g).wr Reg.PKT_PROG_SEQ_AUDNEXT p.initSeq g).audioShow g
  let s := s.wr Reg.PKT_PKTSTAT_PROGS (s.rd Reg.PKT_PKTSTAT_PROGS + 1)
  let s := p.netList.foldl (fun s net => p.streams.foldl (fun s x =>
    let i := shaperOf g net x
    let s := (s.setShp i { accOvh := 20 }).shaperClear i
    let s := ((s.wr Reg.SHP_SHAPER_AUTO 1 0 i).wr Reg.SHP_SHAPER_INUSE 1 0 i).wr Reg.SHP_SHPVIEW_OVERHEAD 20 i
    s.wr Reg.SHP_SHPVIEW_BURST (4 * s.kFull g net x p 20) i) s) s
  let s := s.wr Reg.SHP_SHPSTAT_INUSE (s.rd Reg.SHP_SHPSTAT_INUSE + (p.shapers g).length)
  let s := if s.admitted g then s.assignMacs g else s
  (s.refreshRmin g).launchShow g

/-- A program ceases to exist; its routes stay with their slots. -/
def State.outDestroy (s : State) (g : Nat) : State :=
  match s.prog g with
  | none => s
  | some p =>
    let sh := (p.shapers g).map (·.2)
    let s := sh.foldl (fun s i => (s.setShp i {}).shaperClear i) s
    let s := ((s.setProg g none).setPkr g {}).progClear g
    let s := s.wr Reg.PKT_PKTSTAT_PROGS (s.rd Reg.PKT_PKTSTAT_PROGS - 1)
    (s.wr Reg.SHP_SHPSTAT_INUSE (s.rd Reg.SHP_SHPSTAT_INUSE - sh.length)).macCounts

def chkOutCreate : OpChk := fun s n p =>
  orElse (firstBad [
    (fld p 0 1 = 0 || 3 < fld p 0 1, badAt 0), (1 < fld p 1 1, badAt 1), (fld p 2 1 < 96 || 127 < fld p 2 1, badAt 2), (63 < fld p 3 1, badAt 3),
    (fld p 12 1 = 0, badAt 12), (nz p 13 1, badAt 13), (nz p 59 5, badAt 59), ((s.prog n).isSome, { status := stBusy, detail := 1 })]) fun _ =>
  (s.outCreate n (progOf p)).recheck n

def runOutCreate : OpRun := fun c p s => ((s.outCreate c.ch (progOf p)).rereserve c.ch, ok2 0 0)

def execOpOutCreate (h : Hdr) (p : Bytes) (s : State) : Host.Outcome State Fault Refusal :=
  finish (s.hostCmd (.opOutCreate h p) 0x0500 h p chkOutCreate runOutCreate)

def chkOutDestroy : OpChk := fun s n _ => if (s.prog n).isNone then some (badAt 0) else none

def runOutDestroy : OpRun := fun c _ s => ((s.outDestroy c.ch).rereserve c.ch, ok2 0 0)

def execOpOutDestroy (h : Hdr) (p : Bytes) (s : State) : Host.Outcome State Fault Refusal :=
  finish (s.hostCmd (.opOutDestroy h p) 0x0501 h p chkOutDestroy runOutDestroy)

/-! ### Shapers and windows -/

/-- The latest accepted rate and overhead of a shaper. -/
def State.setAcc (s : State) (i rate ovh : Nat) : State := s.setShp i { s.shp i with accRate := rate, accOvh := ovh }

def chkOutSetShaper : OpChk := fun s n p =>
  let net := fld p 0 1
  let x := fld p 1 1
  let rate := fld p 4 4
  orElse (firstBad [
    (1 < net || (match s.prog n with | some g => !g.nets.testBit net | none => true), badAt 0),
    (1 < x || (x = 1 && (match s.prog n with | some g => g.mode = 0 | none => true)), badAt 1),
    (1 < fld p 2 1, badAt 2), (nz p 3 1, badAt 3), (rate ≠ 0 && (rate < 1000 || 400000000 < rate), badAt 4),
    (fld p 8 4 < 1560 || 16777216 < fld p 8 4, badAt 8), (256 < fld p 12 2, badAt 12), (nz p 14 2, badAt 14)]) fun _ =>
  (s.setAcc (shaperOf n net x) rate (fld p 12 2)).recheck n

/-- In force at the base of the effective row's unit, or at once on a channel that does not run (R308). -/
def runOutSetShaper : OpRun := fun c p s =>
  let net := fld p 0 1
  let x := fld p 1 1
  let rate := fld p 4 4
  let i := shaperOf c.ch net x
  let s := s.setAcc i rate (fld p 12 2)
  if c.rowed then (s.rereserve c.ch, .final stOk 0 0 0 [c.commit (.shaper net x (fld p 2 1) rate (fld p 8 4) (fld p 12 2))])
  else
    let rm := match s.prog c.ch with | some g => s.rMin c.ch net x g (fld p 12 2) | none => rate
    ((s.shaperChange c.ch net x none (if rate = 0 then rm else rate) (fld p 8 4) (fld p 12 2) (fld p 2 1) (rate = 0)).rereserve c.ch, ok2 0 0)

def execOpOutSetShaper (h : Hdr) (p : Bytes) (s : State) : Host.Outcome State Fault Refusal :=
  finish (s.hostCmd (.opOutSetShaper h p) 0x0502 h p chkOutSetShaper runOutSetShaper)

/-- A window comes into force (R311). -/
def State.applyWindow (s : State) (m w en cycle start len : Nat) : State :=
  let i := 16 * m + w
  let s := ((s.wr Reg.SHP_WINVIEW_ENABLE en i).wr Reg.SHP_WINVIEW_CYCLE_NS cycle i).wr Reg.SHP_WINVIEW_START_NS start i
  let s := s.wr Reg.SHP_WINVIEW_LEN_NS len i
  let old := s.rd Reg.SHP_MACSTAT_WINEN 0 m
  s.wr Reg.SHP_MACSTAT_WINEN (if en = 1 then old ||| 2 ^ w else if old.testBit w then old - 2 ^ w else old) 0 m

def chkOutSetWindow : OpChk := fun s _ p =>
  let cyc := fld p 4 4
  let st := fld p 8 4
  firstBad [
    (!s.macUsed (fld p 0 1), badAt 0), (15 < fld p 1 1, badAt 1), (1 < fld p 2 1, badAt 2), (nz p 3 1, badAt 3), (cyc ≤ st, badAt 8),
    (fld p 12 4 = 0 || cyc - st < fld p 12 4, badAt 12)]

/-- A device command that belongs to no channel applies at its point in internal time (R220). -/
def runOutSetWindow : OpRun := fun c p s =>
  if s.ns < c.ns then
    (s, .final stOk 0 0 0 [{ c.commit (.window (fld p 0 1) (fld p 1 1) (fld p 2 1) (fld p 4 4) (fld p 8 4) (fld p 12 4)) with ch := 255 }])
  else (s.applyWindow (fld p 0 1) (fld p 1 1) (fld p 2 1) (fld p 4 4) (fld p 8 4) (fld p 12 4), ok2 0 0)

def execOpOutSetWindow (h : Hdr) (p : Bytes) (s : State) : Host.Outcome State Fault Refusal :=
  finish (s.hostCmd (.opOutSetWindow h p) 0x0503 h p chkOutSetWindow runOutSetWindow)

/-! ### Routes -/

/-- The configured rate of a route's source is 96 kHz. -/
def State.cfg96 (s : State) (r : Route) : Bool :=
  if r.kind = 0 then s.rd Reg.AUD_PORT_CFG_RATE 0 r.src = 1
  else match s.flowIn r.src with | some x => x.audRate = 96000 | none => false

def routeOf (p : Bytes) : Route := { kind := fld p 1 1, src := fld p 2 2, pair := fld p 4 1 }

/-- Accept or give up a route. -/
def State.setRoute (s : State) (g slot : Nat) (r : Option Route) : State :=
  ({ s with routes := tset none s.routes (8 * g + slot) r }).audioShow g

def chkAudRoute : OpChk := fun s n p =>
  let r := routeOf p
  let direct := match s.prog n with | some g => g.mode = 1 | none => false
  orElse (firstBad [
    (7 < fld p 0 1, badAt 0), (1 < r.kind, badAt 1),
    (if r.kind = 0 then 15 < r.src || s.rd Reg.AUD_PORT_CFG_TX 0 r.src = 1
      else (match s.flowIn r.src with | some x => x.kind ≠ 1 | none => true), badAt 2),
    (direct && (s.slots n).any fun k => match s.slotRoute n k with | some q => s.cfg96 q ≠ s.cfg96 r | none => false, badAt 2),
    (nz p 5 3, badAt 5), ((s.slotRoute n (fld p 0 1)).isSome, { status := stBusy, detail := 1 })]) fun _ =>
  (s.setRoute n (fld p 0 1) (some r)).recheck n

def runAudRoute : OpRun := fun c p s =>
  let r := routeOf p
  let s := (s.setRoute c.ch (fld p 0 1) (some r)).rereserve c.ch
  if c.rowed then (s, .final stOk 0 0 0 [c.commit (.route (fld p 0 1) r.kind r.src r.pair)])
  else (s.routeAct c.ch (fld p 0 1) (some r), ok2 0 0)

def execOpAudRoute (h : Hdr) (p : Bytes) (s : State) : Host.Outcome State Fault Refusal :=
  finish (s.hostCmd (.opAudRoute h p) 0x0401 h p chkAudRoute runAudRoute)

def chkAudUnroute : OpChk := fun s n p =>
  firstBad [(7 < fld p 0 1 || (s.slotRoute n (fld p 0 1)).isNone, badAt 0), (nz p 1 3, badAt 1)]

def runAudUnroute : OpRun := fun c p s =>
  let s := (s.setRoute c.ch (fld p 0 1) none).rereserve c.ch
  if c.rowed then (s, .final stOk 0 0 0 [c.commit (.unroute (fld p 0 1))]) else (s.routeAct c.ch (fld p 0 1) none, ok2 0 0)

def execOpAudUnroute (h : Hdr) (p : Bytes) (s : State) : Host.Outcome State Fault Refusal :=
  finish (s.hostCmd (.opAudUnroute h p) 0x0402 h p chkAudUnroute runAudUnroute)

end Sys2Proof.Machine
end

