-- ==== Sys2Proof/Machine/Elapsed.lean ====
section
/-! DEFINITION. Lengths of time across a step of the time base (R210, R318): what waits or measures a length of time is not
shortened or lengthened by a step, so the internal times at which it began move with the step (log entry 117). -/

namespace Sys2Proof.Machine

/-- An internal time in ns after a step of `d` ns. Zero stands for none, and stays. -/
def shiftNs (d : Int) (t : Nat) : Nat := if t = 0 then 0 else max 1 ((t : Int) + d).toNat

/-- The times of a table. -/
def shiftTab (d : Int) (l : Tab Nat) : Tab Nat := l.map fun e => (e.1, shiftNs d e.2)

def Hold.shift (d : Int) : Hold → Hold
  | .none => .none
  | .ack seq sent => .ack seq (shiftNs d sent)
  | .until t => .until (shiftNs d t)

/-- Coalescing, barriers and held replies (R240, R248, R256, R496). -/
def Que.shift (d : Int) (u : Que) : Que :=
  { u with unsigAt := shiftNs d u.unsigAt, barrier := u.barrier.map fun b => { b with expiry := shiftNs d b.expiry },
           replies := u.replies.map fun r => { r with hold := r.hold.shift d } }

/-- Loss deadlines, paths and the spacing of events (R282, R285, R293). -/
def InFlow.shift (d : Int) (x : InFlow) : InFlow :=
  { x with due := shiftTab d x.due, pathAt := shiftTab d x.pathAt, lastEv := shiftTab d x.lastEv }

def Meter.shift (d : Int) (m : Meter) : Meter := { m with last := shiftTab d m.last, red := m.red.map (shiftNs d) }

/-- States, trials and injections of lanes (R349, R355, R361). -/
def Lane.shift (d : Int) (l : Lane) : Lane :=
  { l with since := shiftNs d l.since, trialAt := shiftNs d l.trialAt, injAt := l.injAt.map (shiftNs d) }

/-- The frames of a link that wait for their acknowledgement (R373). -/
def LinkTx.shift (d : Int) (t : LinkTx) : LinkTx :=
  { t with unacked := t.unacked.map fun e => (e.1, shiftNs d e.2.1, shiftNs d e.2.2.1, e.2.2.2) }

def Claim.shift (d : Int) : Claim → Claim
  | .idle => .idle
  | .wait t => .wait (shiftNs d t)
  | .guard t => .guard (shiftNs d t)
  | .contest t h => .contest (shiftNs d t) (h.map (shiftNs d))

/-- Heartbeats, claims, handovers, repairs and the join image (R366 to R390). -/
def Pair.shift (d : Int) (p : Pair) : Pair :=
  { p with tx := p.tx.map fun e => (e.1, e.2.shift d), claim := p.claim.shift d, backoff := shiftNs d p.backoff, joinBy := p.joinBy.map (shiftNs d),
           hbNext := shiftNs d p.hbNext, hbSent := shiftNs d p.hbSent, hbLinkAt := shiftNs d p.hbLinkAt, hbLineAt := shiftNs d p.hbLineAt,
           handAt := p.handAt.map (shiftNs d), imageAt := p.imageAt.map (shiftNs d),
           repairs := p.repairs.map fun e => (e.1, e.2.1, shiftNs d e.2.2) }

/-- Clock loss, slip events and the frames that a group compares (R337, R341, R346). -/
def Aud.shift (d : Int) (a : Aud) : Aud :=
  { ports := a.ports.map fun e => (e.1, { e.2 with lastAt := shiftNs d e.2.lastAt, slipEv := e.2.slipEv.map (shiftNs d),
                                                   wait := e.2.wait.map fun w => (shiftNs d w.1, w.2) }),
    refs := a.refs.map fun e => (e.1, e.2.map fun r => (r.1, shiftNs d r.2.1, r.2.2)) }

/-- Announces heard, the frequency held in LOCKED, holdover and the last PPS_IN edge (R323, R325, R329). -/
def TimeB.shift (d : Int) (t : TimeB) : TimeB :=
  { t with
    insts := t.insts.map fun e =>
      (e.1, { e.2 with masters := e.2.masters.map fun m => { m with seen := shiftNs d m.seen, prev := shiftNs d m.prev } }),
    freqs := t.freqs.map fun e => (shiftNs d e.1, e.2), holdFrom := shiftNs d t.holdFrom, ppsAt := t.ppsAt.map (shiftNs d) }

/-- What a running task and its channel have reached (R60, R76, R83, R94). -/
def Chan.shift (d : Int) (c : Chan) : Chan :=
  { c with composed := c.composed.map fun e => (e.1, e.2.map (shiftNs d)), bands := c.bands.map fun e => (e.1, { e.2 with ns := shiftNs d e.2.ns }) }

/-- Every length of time that runs, across a step of `d` ns. -/
def State.shiftElapsed (s : State) (d : Int) : State :=
  { s with
    hif := { s.hif with ques := s.hif.ques.map fun e => (e.1, e.2.shift d), restarts := s.hif.restarts.map fun e => (shiftNs d e.1, e.2) },
    evt := { s.evt with lastMsg := s.evt.lastMsg.map fun e => (e.1, e.2.map (shiftNs d)) },
    time := s.time.shift d,
    chans := s.chans.map fun e => (e.1, e.2.shift d),
    spd := { s.spd with tasks := s.spd.tasks.map fun e => (e.1, { e.2 with start := shiftNs d e.2.start }),
                        winLast := s.spd.winLast.map (shiftNs d), stallFrom := s.spd.stallFrom.map (shiftNs d) },
    engs := s.engs.map fun e => (e.1, { e.2 with faults := e.2.faults.map (shiftNs d) }),
    cst := { s.cst with scrubAt := s.cst.scrubAt.map (shiftNs d), wipeAt := shiftNs d s.cst.wipeAt },
    arbs := s.arbs.map fun e => (e.1, { e.2 with idle := shiftNs d e.2.idle }),
    pkrs := s.pkrs.map fun e => (e.1, { e.2 with noAddrAt := e.2.noAddrAt.map (shiftNs d) }),
    pair := s.pair.shift d,
    inp := { s.inp with flows := s.inp.flows.map fun e => (e.1, e.2.map fun x => x.shift d), meters := s.inp.meters.map fun e => (e.1, e.2.shift d),
                        leaves := s.inp.leaves.map fun e => (e.1, e.2.1, e.2.2.1, shiftNs d e.2.2.2) },
    aud := s.aud.shift d,
    dmc := { s.dmc with chans := s.dmc.chans.map fun e => (e.1, { e.2 with eccAt := e.2.eccAt.map (shiftNs d), scrubAt := e.2.scrubAt.map (shiftNs d) }),
                        mr4At := s.dmc.mr4At.map (shiftNs d), clearAt := shiftNs d s.dmc.clearAt },
    tst := { s.tst with hbUntil := s.tst.hbUntil.map (shiftNs d) },
    lanes := s.lanes.map fun e => (e.1, e.2.shift d),
    mgt := { s.mgt with wdog := s.mgt.wdog.map (shiftNs d), beginWait := s.mgt.beginWait.map fun w => (w.1, w.2.1, shiftNs d w.2.2) } }

end Sys2Proof.Machine
end

