-- ==== Sys2Proof/Machine/Time.lean ====
section
/-! DEFINITION. The time base and PTP: steps, source selection, the servo, PTP messages, the transparent clock, outputs
and capture (R316 to R331). -/

namespace Sys2Proof.Machine

/-! ### Steps (R210, R318) -/

/-- A command that happens at an internal time in 2^-16 ns. -/
def State.atU (s : State) (t : Nat) : State := { s with time := { s.time with now := max s.time.now t } }

/-- The refresh timer counts a time that is never stepped (R397): its internal times move with a step of `d` ns. -/
def State.shiftRefresh (s : State) (d : Int) : State :=
  let mv (k : Int) (t : Nat) : Nat := ((t : Int) + k * d).toNat
  let m := s.dmc
  { s with
    dmc := { m with due := mv 16 m.due, last := mv 16 m.last, batch := m.batch.map fun b => (mv 16 b.1, b.2), payEnd := mv 16 m.payEnd,
                    skew := m.skew.map fun k => (k.1, mv 16 k.2) },
    spd := { s.spd with refNext := s.spd.refNext.map (mv 1), refEnd := mv 1 s.spd.refEnd } }

/-- Some channel runs or drains. -/
def State.anyLive (s : State) : Bool := (List.range 64).any s.live

/-- A step of the time base by `d`, in 2^-16 ns: R318, with the Spindle's record and events (R210). -/
def State.timeStep (s : State) (d : Int) : State :=
  let s := { s with time := { s.time with now := ((s.time.now : Int) + d).toNat, filt := 0, wide := false } }
  let s := (s.shiftRefresh (d / 65536)).shiftElapsed (d / 65536)
  let insts := s.time.insts.map fun e => (e.1, { e.2 with sync := none, t12 := none, dreq := none })
  let s := { s with time := { s.time with insts := insts } }
  let s := (s.wr Reg.TIM_OFFSET_NS 0).incSat Reg.TIM_STEPCNT_STEPS
  ((s.traceDev 13 255 0 0 (toTwos 64 (d / 65536))).ev (evTim 6)).ev (evSpd 5)

/-! ### Instances and source (R322, R323) -/

def State.inst (s : State) (x : Nat) : TInst := tget {} s.time.insts x
def State.setInst (s : State) (x : Nat) (v : TInst) : State := { s with time := { s.time with insts := tset {} s.time.insts x v } }

/-- The slave MAC of an instance: the lowest up MAC of its network, 15 for none (R322). -/
def State.slaveMac (s : State) (x : Nat) : Nat := ((s.netMacs x).find? s.macUp).getD 15

/-- The clock identity of a port identity. -/
def portClock (p : Nat) : Nat := p / 65536

/-- Dataset comparison of IEEE 1588 for an ordinary clock: `a` is strictly better than `b`. -/
def Master.beats (a b : Master) : Bool :=
  let ka := [a.prio1, a.cls, a.acc, a.var, a.prio2, a.gm]
  let kb := [b.prio1, b.cls, b.acc, b.var, b.prio2, b.gm]
  if a.gm = b.gm then
    decide (a.steps < b.steps) || (decide (a.steps = b.steps) && decide (portClock a.port < portClock b.port))
  else (List.lex ka kb)

/-- A master takes part in the best master clock algorithm: it is a qualified foreign master (two Announce messages within
four intervals, fewer than 255 steps removed) and has announced within ANNOUNCE_TO intervals. -/
def State.masterOk (s : State) (m : Master) : Bool :=
  m.steps < 255 && m.prev ≠ 0 && decide (m.seen ≤ m.prev + 4 * m.every) &&
    decide (s.ns ≤ m.seen + s.rd Reg.TIM_TIMSTAT_ANNOUNCE_TO * m.every)

/-- The best of a list of masters; the lower port identity on a tie. -/
def bestMaster : List Master → Option Master
  | [] => none
  | a :: r =>
    match bestMaster r with
    | none => some a
    | some b => some (if b.beats a || (!a.beats b && decide (b.port < a.port)) then b else a)

/-- The best master of an instance. -/
def TInst.master (x : TInst) : Option Master := x.best.bind fun p => x.masters.find? fun m => m.port = p

/-- The event of the servo's entry into a state (R325). -/
def State.setServo (s : State) (v : Nat) : State :=
  { (s.wr Reg.TIM_TIMSTAT_SERVO v) with time := { (s.wr Reg.TIM_TIMSTAT_SERVO v).time with run := 0 } }

/-- FREQADJ, signed, in 2^-8 ppb. -/
def State.freqAdj (s : State) : Int := ofTwos 32 (s.rd Reg.TIM_FREQADJ_ADJ)

/-- The values of a held quantity weighted by the time each was held, up to `t`. -/
def heldSum : List (Nat × Int) → Nat → Int
  | [], _ => 0
  | [(a, v)], t => v * (t - a : Nat)
  | (a, v) :: (b, w) :: r, t => v * (b - a : Nat) + heldSum ((b, w) :: r) t

/-- The mean FREQADJ of the last 64 s spent in LOCKED (R325). -/
def State.meanFreq (s : State) : Int :=
  let from_ := s.ns - 64000000000
  let l := s.time.freqs.map fun e => (max e.1 from_, e.2)
  match l with
  | [] => s.freqAdj
  | (a, v) :: _ => if s.ns ≤ a then v else heldSum l s.ns / (s.ns - a : Nat)

/-- A source is selected, or none is (R325). -/
def State.servoSource (s : State) (have_ : Bool) : State :=
  let v := s.rd Reg.TIM_TIMSTAT_SERVO
  if have_ then
    (if v = 0 ∨ v = 3 then ({ s with time := { s.time with holdSaid := false } }.setServo 1).wr Reg.TIM_HOLDTIME_S 0 else s)
  else if v = 1 then ({ s with time := { s.time with slew := 0 } }.setServo 0).ev (evTim 4)
  else if v = 2 then
    let s := s.wr Reg.TIM_FREQADJ_ADJ (toTwos 32 s.meanFreq)
    ({ s with time := { s.time with slew := 0, holdFrom := s.ns, holdSaid := false } }.setServo 3).ev (evTim 3)
  else s

/-- Show the source's grandmaster and UTC data, with their events (R317, R331). -/
def State.showMaster (s : State) (m : Master) : State :=
  let s := if s.rd Reg.TIM_GMID_ID = m.gm then s else (s.wr Reg.TIM_GMID_ID m.gm).ev (evTim 8)
  let same := s.rd Reg.TIM_UTC_OFFSET = m.utc ∧ s.rd Reg.TIM_UTC_LEAP61 = m.flags % 2 ∧ s.rd Reg.TIM_UTC_LEAP59 = m.flags / 2 % 2
  let s := ((s.wr Reg.TIM_UTC_OFFSET m.utc).wr Reg.TIM_UTC_LEAP61 (m.flags % 2)).wr Reg.TIM_UTC_LEAP59 (m.flags / 2 % 2)
  let s := s.wr Reg.TIM_UTC_VALID (m.flags / 4 % 2)
  if same then s else s.ev (evTim 9)

/-- Source selection among the qualified instances (R323). -/
def State.selectSource (s : State) : State :=
  let a := (s.inst 0).master
  let b := (s.inst 1).master
  let cur := s.rd Reg.TIM_TIMSTAT_SOURCE
  let new := match a, b with
    | none, none => 0
    | some _, none => 1
    | none, some _ => 2
    | some x, some y => if cur = 2 then (if x.beats y then 1 else 2) else if cur = 1 then (if y.beats x then 2 else 1)
                        else if y.beats x then 2 else 1
  let s := if new = cur then s else ((s.wr Reg.TIM_TIMSTAT_SOURCE new).ev (evTim 0)).servoSource (decide (new ≠ 0))
  match (if new = 1 then a else if new = 2 then b else none) with
  | some m => s.showMaster m
  | none => s

/-- Run the best master clock algorithm of an instance again, and select the source. -/
def State.runBmca (s : State) (x : Nat) : State :=
  let i := s.inst x
  let best := bestMaster (i.masters.filter s.masterOk)
  let port := best.map (·.port)
  let s := s.setInst x (if port = i.best then i else { i with best := port, sync := none, t12 := none, dreq := none })
  let was := s.rd Reg.TIM_INST_QUAL 0 x
  let s := s.wr Reg.TIM_INST_QUAL (bit best.isSome) 0 x
  let s := if was = 1 && best.isNone then s.ev (evTim 5) else s
  s.selectSource

/-- ANNOUNCE_TO intervals have passed since an instance's best master announced. -/
def execAnnounceTimeout (net : Fin 2) (s : State) : Host.Outcome State Fault Refusal :=
  finish (
    match (s.inst net).master with
    | none => s
    | some m => if s.masterOk m then s else (s.incSat Reg.TIM_INST_ANNTO 1 0 net).runBmca net)

/-! ### The servo (R321, R324, R325) -/

def clampZ (lo hi v : Int) : Int := max lo (min hi v)

/-- The frequency limit of R317 in 2^-8 ppb. -/
def freqLimit : Int := 64000000

/-- The servo state after a kept sample. -/
def State.servoRun (s : State) : State :=
  let v := s.rd Reg.TIM_TIMSTAT_SERVO
  let f := s.time.filt.natAbs
  let good := if v = 1 then decide (f ≤ s.rd Reg.TIM_SERVOCTL_LOCK_NS * 65536)
    else v = 2 && decide (s.rd Reg.TIM_SERVOCTL_UNLOCK_NS * 65536 < f)
  let run := if good then s.time.run + 1 else 0
  let s := { s with time := { s.time with run := run } }
  if v = 1 ∧ 16 ≤ run then ({ s with time := { s.time with freqs := [(s.ns, s.freqAdj)] } }.setServo 2).ev (evTim 1)
  else if v = 2 ∧ 4 ≤ run then (s.setServo 1).ev (evTim 2)
  else s

/-- Above STEP_NS the time base steps, or, while a channel runs or drains, the step is withheld once per excursion (R318). -/
def State.stepCheck (s : State) : State :=
  if s.time.filt.natAbs ≤ s.rd Reg.TIM_STEPCTL_STEP_NS * 65536 then { s with time := { s.time with wide := false } }
  else if !s.anyLive then s.timeStep (-s.time.filt)
  else if s.time.wide then s
  else ({ s with time := { s.time with wide := true } }.incSat Reg.TIM_STEPCNT_BLOCKED).ev (evTim 7)

/-- Show filt in TIM.OFFSET (R324). -/
def State.showFilt (s : State) : State :=
  s.wr Reg.TIM_OFFSET_NS (toTwos 32 (clampZ (-(2 ^ 31 - 1)) (2 ^ 31 - 1) (s.time.filt / 65536)))

/-- A sample of the source: the path delay variation filter, then filter, frequency and phase (R324). -/
def State.sample (s : State) (x : Nat) (mpd off : Int) : State :=
  let i := s.inst x
  let mpds := (i.mpds ++ [mpd]).reverse.take 64 |>.reverse
  let least := mpds.foldl min mpd
  let s := s.setInst x { i with mpds := mpds }
  let s := s.wr Reg.TIM_MPD_NS (toTwos 32 (mpd / 65536))
  if least + s.rd Reg.TIM_PDVCTL_PDV_NS * 65536 < mpd then s.incSat Reg.TIM_INST_DISCARD 1 0 x else
  let filt := s.time.filt + (off - s.time.filt) / 4
  let adj := clampZ (-freqLimit) freqLimit (s.freqAdj + Config.servoKi filt)
  let lim : Int := s.rd Reg.TIM_SLEW_PPM * 256000
  let s := { s with time := { s.time with filt := filt, slew := clampZ (-lim) lim (Config.servoKp filt) } }
  let s := (s.wr Reg.TIM_FREQADJ_ADJ (toTwos 32 adj)).showFilt
  let s := if s.rd Reg.TIM_TIMSTAT_SERVO = 2 then { s with time := { s.time with freqs := s.time.freqs ++ [(s.ns, adj)] } } else s
  let keep := (s.time.freqs.dropWhile fun e => decide (e.1 + 64000000000 ≤ s.ns)).length
  let s := { s with time := { s.time with freqs := s.time.freqs.drop (s.time.freqs.length - keep - 1) } }
  s.servoRun.stepCheck

/-- An exchange is complete: path delay and offset (R321). -/
def State.exchange (s : State) (x : Nat) (t1 t2 t3 t4 : Int) : State :=
  let m := s.slaveMac x
  let mpd := ((t2 - t1) + (t4 - t3)) / 2
  let asym := ofTwos 32 (s.rd Reg.TIM_MACCOMP_ASYM_PS 0 m)
  let off := (t2 - t1) - mpd - asym * 65536 / 1000
  let s := s.wr Reg.TIM_INST_OFFSET (toTwos 32 (off / 65536)) 0 x
  if s.rd Reg.TIM_TIMSTAT_SOURCE = x + 1 then s.sample x mpd off else s

/-! ### Timestamps (R320) -/

/-- A receive timestamp from its raw value. -/
def State.rxStamp (s : State) (m raw : Nat) : Int :=
  ((raw : Int) * 1000 - (Config.pcsIngress (s.split m) + ofTwos 32 (s.rd Reg.TIM_MACCOMP_INGRESS_PS 0 m)) * 65536) / 1000

/-- A transmit timestamp from its raw value. -/
def State.txStamp (s : State) (m raw : Nat) : Int :=
  ((raw : Int) * 1000 + (Config.pcsEgress (s.split m) + ofTwos 32 (s.rd Reg.TIM_MACCOMP_EGRESS_PS 0 m)) * 65536) / 1000

/-! ### Messages -/

/-- The 48-bit seconds field of PTP extended (R8): the seconds nearest to the internal seconds. -/
def State.ptpSec (s : State) (f : Nat) : Nat := f + (s.sec + 2 ^ 47 - f) / 2 ^ 48 * 2 ^ 48

/-- A PTP timestamp field in 2^-16 ns. -/
def State.ptpTime (s : State) (p : Bytes) (o : Nat) : Int := ((s.ptpSec (nfld p o 6) * 1000000000 + nfld p (o + 6) 4) * 65536 : Nat)

/-- A correctionField. -/
def ptpCorr (p : Bytes) : Int := ofTwos 64 (nfld p 8 8)

/-- The port identity of the instance of network `x` (R316): the EUI-64 of MAC 0's address and the port number. -/
def State.portId (s : State) (x : Nat) : Nat :=
  let a := s.macAddr 0
  ((a / 2 ^ 24 * 2 ^ 16 + 0xFFFE) * 2 ^ 24 + a % 2 ^ 24) * 65536 + x + 1

/-- The interval of a logMessageInterval octet in ns, when it is one the device supports. -/
def ptpInterval (v : Nat) : Option Nat :=
  let l := ofTwos 8 v
  if l < -7 ∨ 4 < l then none
  else some (if 0 ≤ l then 1000000000 * 2 ^ l.toNat else 1000000000 / 2 ^ (-l).toNat)

/-- An Announce (R323). -/
def State.announce (s : State) (x dst : Nat) (p : Bytes) : State :=
  match ptpInterval (nfld p 33 1) with
  | none => s
  | some every =>
    let port := nfld p 20 10
    if p.length < 64 ∨ portClock port = portClock (s.portId x) then s else
    let i := s.inst x
    let prev := ((i.masters.find? fun m => m.port = port).map (·.seen)).getD 0
    let m : Master := { port, prio1 := nfld p 47 1, cls := nfld p 48 1, acc := nfld p 49 1, var := nfld p 50 2, prio2 := nfld p 52 1,
                        gm := nfld p 53 8, steps := nfld p 61 2, utc := nfld p 44 2, flags := nfld p 7 1, seen := s.ns, prev, every }
    (s.setInst x { i with masters := (i.masters.filter fun e => e.port ≠ port) ++ [m], dst := dst }).runBmca x

/-- t1 of an exchange is known. -/
def State.syncUsed (s : State) (x : Nat) (t1 t2 : Int) : State :=
  (s.setInst x { s.inst x with sync := none, t12 := some (t1, t2) }).incWrap Reg.TIM_INST_SYNCRX 1 0 x

/-- A Sync of the best master, received at `t2`. -/
def State.syncIn (s : State) (x dst : Nat) (t2 : Int) (p : Bytes) : State :=
  match ptpInterval (nfld p 33 1) with
  | none => s
  | some _ =>
    let s := s.setInst x { s.inst x with dst := dst }
    if (nfld p 6 1).testBit 1 then s.setInst x { s.inst x with sync := some (nfld p 30 2, t2, ptpCorr p) }
    else s.syncUsed x (s.ptpTime p 34 + ptpCorr p) t2

/-- A Follow_Up of the best master. -/
def State.followUp (s : State) (x : Nat) (p : Bytes) : State :=
  match (s.inst x).sync with
  | none => s
  | some (q, t2, c) => if nfld p 30 2 = q then s.syncUsed x (s.ptpTime p 34 + c + ptpCorr p) t2 else s

/-- A Delay_Resp of the best master to this instance. -/
def State.delayResp (s : State) (x : Nat) (p : Bytes) : State :=
  match (s.inst x).dreq, (s.inst x).t12, ptpInterval (nfld p 33 1) with
  | some (q, t3), some (t1, t2), some every =>
    if p.length < 54 ∨ nfld p 44 10 ≠ s.portId x ∨ nfld p 30 2 ≠ q then s else
    let s := (s.setInst x { s.inst x with dreq := none, dint := every }).incWrap Reg.TIM_INST_DRESPRX 1 0 x
    s.exchange x t1 t2 t3 (s.ptpTime p 34 - ptpCorr p)
  | _, _, _ => s

/-- A PTP message of the domain on the slave MAC of its network reaches the instance (R322). `dst` is the IP destination, 0
for IEEE 802.3. -/
def State.ptpIn (s : State) (m raw dst : Nat) (p : Bytes) : State :=
  let x := netOf m
  let typ := nfld p 0 1
  let ours := decide (44 ≤ p.length) && typ / 16 = 0 && nfld p 1 1 % 16 = 2 && nfld p 4 1 = s.rd Reg.TIM_TIMSTAT_DOMAIN && s.slaveMac x = m
  if !ours then s else
  let fromBest := (s.inst x).best = some (nfld p 20 10)
  let alt := (nfld p 6 1).testBit 0
  if typ = 11 then (if alt then s else s.announce x dst p)
  else if !fromBest then s
  else if typ = 0 then (if alt then s else s.syncIn x dst (s.rxStamp m raw) p)
  else if typ = 8 then s.followUp x p
  else if typ = 9 then s.delayResp x p
  else s

/-! ### Transparent clock (R326) -/

/-- A PTP message with a residence time added, in its frame. `o` is where the message starts, `ip` 4, 6, or 0 for IEEE
802.3; the UDP checksum is corrected for IPv6 and zero for IPv4. -/
def tcFrame (fr : Bytes) (o ip : Nat) (res : Nat) : Bytes :=
  let body := fr.take (fr.length - 4)
  let p := body.drop o
  let typ := nfld p 0 1 % 16
  if typ ≠ 0 ∧ typ ≠ 1 then fr else
  let p' := p.take 8 ++ toBe 8 (toTwos 64 (ptpCorr p + res)) ++ p.drop 16
  let head := body.take o
  let head := if ip = 4 then head.take (o - 2) ++ toBe 2 0
    else if ip = 6 then
      let src := bytesAt head (o - 40) 32
      let u := bytesAt head (o - 8) 6
      let ulen := nfld head (o - 4) 2
      let ck := inetSum (src ++ toBe 4 ulen ++ toBe 4 17 ++ u ++ toBe 2 0 ++ p'.take (ulen - 8))
      head.take (o - 2) ++ toBe 2 (if ck = 0 then 65535 else ck)
    else head
  head ++ p' ++ toLe 4 (crc32 (head ++ p'))

/-- The next free residence time, at most 1 µs, in 2^-16 ns (log entry 2). -/
def State.residence (s : State) : Nat × State := let (v, s) := s.free; (v % 65536001, s)

/-- Forward a PTP message out of every other up MAC of its network. -/
def State.tcForward (s : State) (m o ip : Nat) (fr : Bytes) : State :=
  let x := netOf m
  let on := s.rd (if x = 0 then Reg.TIM_TIMSTAT_TC_A else Reg.TIM_TIMSTAT_TC_B) = 1
  if !on ∨ !s.macUp m then s else
  let outs := (s.netMacs x).filter fun k => k ≠ m && s.macUp k
  if outs.isEmpty then s else
  let s := outs.foldl (fun s k =>
    let (res, s) := s.residence
    (s.emit (.frame k (s.ns + res / 65536) (tcFrame fr o ip res))).incWrap Reg.NET_TXFRAMES_COUNT 1 (k / 4) (k % 4)) s
  s.incWrap Reg.TIM_MACCOMP_TCFWD 1 0 m

/-! ### Delay_Req (R321) -/

/-- The Delay_Req message. -/
def State.delayReqMsg (s : State) (x seq : Nat) : Bytes :=
  [0x01, 0x12] ++ toBe 2 44 ++ toBe 1 (s.rd Reg.TIM_TIMSTAT_DOMAIN) ++ toBe 15 0 ++ toBe 10 (s.portId x) ++ toBe 2 seq ++ [1, 0x7F] ++ toBe 10 0

/-- Its frame, on the transport of the master's messages. -/
def State.delayReqFrame (s : State) (m x seq : Nat) : Bytes :=
  let dst := (s.inst x).dst
  let msg := s.delayReqMsg x seq
  if dst = 0 then etherFrame 0x011B19000000 (s.macAddr m) 0x88F7 msg
  else
    let v4 := isV4 dst
    let body := ipUdp (if v4 then s.ip4 m else s.ip6 m) dst (Config.freeValue 3 % 64) (Config.freeValue 2 % 256) 319 319 (if v4 then msg else msg ++ [0, 0])
    etherFrame (groupMac dst) (s.macAddr m) (if v4 then 0x0800 else 0x86DD) body

/-- An instance sends a Delay_Req on its slave MAC, once its best master's Sync is known. `t` is the raw transmit time in
2^-16 ns. -/
def execDelayReqSend (net : Fin 2) (t : Nat) (s : State) : Host.Outcome State Fault Refusal :=
  finish (
    let m := s.slaveMac net
    let i := s.inst net
    if m = 15 ∨ i.best.isNone ∨ i.t12.isNone ∨ !s.fclk then s else
    let s := s.atU t
    let s := s.setInst net { i with dreq := some (i.dseq, s.txStamp m s.time.now), dseq := (i.dseq + 1) % 65536 }
    ((s.emit (.frame m s.ns (s.delayReqFrame m net i.dseq))).incWrap Reg.NET_TXFRAMES_COUNT 1 (m / 4) (m % 4)).incWrap Reg.TIM_INST_DREQTX 1 0 net)

/-! ### Holdover, outputs, capture (R325, R328, R329) -/

/-- Seconds in the present HOLDOVER. -/
def State.holdTime (s : State) : Nat := if s.rd Reg.TIM_TIMSTAT_SERVO = 3 then (s.ns - s.time.holdFrom) / 1000000000 else 0

/-- HOLDTIME reaches HOLD_MAX_S. -/
def execHoldoverLimit (s : State) : Host.Outcome State Fault Refusal :=
  finish (
    if s.rd Reg.TIM_TIMSTAT_SERVO ≠ 3 ∨ s.time.holdSaid ∨ s.holdTime < s.rd Reg.TIM_HOLDCTL_HOLD_MAX_S then s else
    ({ s with time := { s.time with holdSaid := true } }.wr Reg.TIM_HOLDTIME_S s.holdTime).ev (evTim 3))

/-- PPS_OUT rises at the next whole second and stays high for 100 ms, in LOCKED and HOLDOVER, while it is enabled. -/
def execPpsOutEdge (s : State) : Host.Outcome State Fault Refusal :=
  finish (
    if s.rd Reg.TIM_OUTCTL_PPS = 0 ∨ s.rd Reg.TIM_TIMSTAT_SERVO < 2 ∨ !s.fclk then s else
    let t := (s.sec + 1) * 1000000000
    (s.at t).emit (.pulse .ppsOut t 100000000))

/-- FRAME_SYNC_OUT[i] rises at the next frame reference time of its channel's grid and stays high for 10 µs. -/
def execFrameSyncOutEdge (i : Fin 4) (s : State) : Host.Outcome State Fault Refusal :=
  finish (
    let n := s.rd Reg.TIM_OUTCH_FSCH / 2 ^ (8 * i.val) % 256
    if !(s.rd Reg.TIM_OUTCTL_FS).testBit i ∨ 63 < n ∨ s.chSt n = 0 ∨ !s.fclk then s else
    let c := s.chan n
    let t := s.rd Reg.CHC_PHASE_OFFSET_NS n +
      gridNs c.raster c.rate (cdiv (gridCeil c.raster c.rate (s.ns + 1 - s.rd Reg.CHC_PHASE_OFFSET_NS n)) (totalLines c.raster) * totalLines c.raster)
    (s.at t).emit (.pulse (.frameSync i) t 10000))

/-- A rising edge of PPS_IN at `t` ns and `frac` 2^-16 ns; one within 1 µs of the edge before it is ignored. -/
def execPpsInEdge (t : Nat) (frac : Fin 65536) (s : State) : Host.Outcome State Fault Refusal :=
  finish (
    if !s.fclk then s else
    let s := s.atU (t * 65536 + frac)
    let near := match s.time.ppsAt with | some p => decide (s.ns ≤ p + 1000) | none => false
    let s := { s with time := { s.time with ppsAt := some s.ns } }
    if near then s else
    let s := ((s.wr Reg.TIM_CAPSEC_SEC s.sec).wr Reg.TIM_CAPNS_NS s.nsec).wr Reg.TIM_CAPFRAC_FRAC (s.time.now % 65536)
    (s.incWrap Reg.TIM_CAPCNT_COUNT).ev (evTim 10))

/-- A read of the low word of NOWSEC, or of CAPSEC (`cap`), latches the fields that go with it (R330); the next read of each
returns what it latched. -/
def State.latchTime (s : State) (cap : Bool) : State :=
  let l := if cap then [(0x180208, s.rd Reg.TIM_CAPNS_NS), (0x18020C, s.rd Reg.TIM_CAPFRAC_FRAC)]
    else [(0x18000C, s.sec / 2 ^ 32), (0x180010, s.nsec), (0x180014, s.time.now % 65536)]
  { s with time := { s.time with latch := (s.time.latch.filter fun e => !(l.any fun x => x.1 = e.1)) ++ l } }

/-! ### Commands (R316, R320, R325, R328) -/

def chkTimeSetPtp : OpChk := fun _ _ p =>
  firstBad [(127 < fld p 0 1, badAt 0), (1 < fld p 1 1, badAt 1), (3 < fld p 2 1, badAt 2),
    (fld p 3 1 < 2 || 10 < fld p 3 1, badAt 3), (nz p 4 4, badAt 4)]

/-- Domain, profile, transparent clock and ANNOUNCE_TO. In a new domain no master is known yet. -/
def runTimeSetPtp : OpRun := fun _ p s =>
  let new := s.rd Reg.TIM_TIMSTAT_DOMAIN ≠ fld p 0 1
  let s := ((s.wr Reg.TIM_TIMSTAT_DOMAIN (fld p 0 1)).wr Reg.TIM_TIMSTAT_PROFILE (fld p 1 1)).wr Reg.TIM_TIMSTAT_TC_A (fld p 2 1 % 2)
  let s := (s.wr Reg.TIM_TIMSTAT_TC_B (fld p 2 1 / 2)).wr Reg.TIM_TIMSTAT_ANNOUNCE_TO (fld p 3 1)
  (if new then ([0, 1].foldl (fun s x => (s.setInst x { s.inst x with masters := [] }).runBmca x) s) else s, ok2 0 0)

def execOpTimeSetPtp (h : Hdr) (p : Bytes) (s : State) : Host.Outcome State Fault Refusal :=
  finish (s.hostCmd (.opTimeSetPtp h p) 0x0600 h p chkTimeSetPtp runTimeSetPtp)

def chkTimeSetPort : OpChk := fun s _ p =>
  firstBad [(!s.macUsed (fld p 0 1), badAt 0), (nz p 1 3, badAt 1)]

def runTimeSetPort : OpRun := fun _ p s =>
  let m := fld p 0 1
  (((s.wr Reg.TIM_MACCOMP_INGRESS_PS (fld p 4 4) 0 m).wr Reg.TIM_MACCOMP_EGRESS_PS (fld p 8 4) 0 m).wr Reg.TIM_MACCOMP_ASYM_PS (fld p 12 4) 0 m, ok2 0 0)

def execOpTimeSetPort (h : Hdr) (p : Bytes) (s : State) : Host.Outcome State Fault Refusal :=
  finish (s.hostCmd (.opTimeSetPort h p) 0x0601 h p chkTimeSetPort runTimeSetPort)

def chkTimeSetOutputs : OpChk := fun _ _ p =>
  firstBad ([(decide (31 < fld p 0 1), badAt 0), (nz p 1 3, badAt 1)] ++
    (List.range 4).map fun i => ((fld p 0 1).testBit (i + 1) && decide (63 < fld p (4 + i) 1), badAt (4 + i)))

def runTimeSetOutputs : OpRun := fun _ p s =>
  (((s.wr Reg.TIM_OUTCTL_PPS (fld p 0 1 % 2)).wr Reg.TIM_OUTCTL_FS (fld p 0 1 / 2)).wr Reg.TIM_OUTCH_FSCH (fld p 4 4), ok2 0 0)

def execOpTimeSetOutputs (h : Hdr) (p : Bytes) (s : State) : Host.Outcome State Fault Refusal :=
  finish (s.hostCmd (.opTimeSetOutputs h p) 0x0602 h p chkTimeSetOutputs runTimeSetOutputs)

def runTimeStatus : OpRun := fun _ _ s =>
  (s, ok2 (timeForm s.ns) (s.rd Reg.TIM_TIMSTAT_SOURCE + 4 * s.rd Reg.TIM_TIMSTAT_SERVO + 2 ^ 32 * s.rd Reg.TIM_OFFSET_NS))

def execOpTimeStatus (h : Hdr) (p : Bytes) (s : State) : Host.Outcome State Fault Refusal :=
  finish (s.hostCmd (.opTimeStatus h p) 0x0603 h p noChk runTimeStatus)

end Sys2Proof.Machine
end

