-- ==== Sys2Proof/Machine/Audio.lean ====
section
/-! DEFINITION. Serial audio ports (R332 to R346). -/

namespace Sys2Proof.Machine

/-- Port states (R337): 0 OFF, 1 PREROLL, 2 RUN, 3 MUTED, 4 POSTROLL. -/
def State.apSt (s : State) (p : Nat) : Nat := s.rd Reg.AUD_PORT_STATE 0 p

/-- The sample rate a port runs at; a POSTROLL finishes at the rate it began with (log entry 27). -/
def State.apFs (s : State) (p : Nat) : Nat :=
  let r := match (s.audPort p).old with | some o => o.1 | none => s.rd Reg.AUD_PORT_CFG_RATE_ACT 0 p
  if r = 1 then 96000 else 48000

/-- The port drives BCLK and WS. -/
def State.apMaster (s : State) (p : Nat) : Bool :=
  match (s.audPort p).old with | some o => o.2.1 | none => decide (s.rd Reg.AUD_PORT_CFG_MASTER_ACT 0 p = 1)

/-- The FRAME and SLOTBITS a port runs with. -/
def State.apFmt (s : State) (p : Nat) : Nat × Nat :=
  match (s.audPort p).old with | some o => o.2.2 | none => (s.rd Reg.AUD_PORT_CFG_FRAME_ACT 0 p, s.rd Reg.AUD_PORT_CFG_SLOTBITS_ACT 0 p)

def State.apTx (s : State) (p : Nat) : Bool := decide (s.rd Reg.AUD_PORT_CFG_TX_ACT 0 p = 1)
def State.apGroup (s : State) (p : Nat) : Nat := s.rd Reg.AUD_PORT_CFG_GROUP_ACT 0 p

/-- The start of a count's frame (R334). -/
def countNs (fs n : Nat) : Nat := cdiv (n * 1000000000) fs

/-- Set or clear a port's bit of a 16-bit field. -/
def setBit16 (old p : Nat) (v : Bool) : Nat := (old &&& (65535 ^^^ 2 ^ p)) ||| (bit v * 2 ^ p)

/-- The reference port of a slave group: the lowest-numbered one in RUN; 31 for none (R341). -/
def State.refPort (s : State) (g : Nat) : Nat :=
  ((List.range 16).find? fun p => decide (s.apGroup p = g) && !s.apMaster p && decide (s.apSt p = 2)).getD 31

/-- A port's state with what shows it: AUDSTAT and the groups' references. -/
def State.setApSt (s : State) (p v : Nat) : State :=
  let s := s.wr Reg.AUD_PORT_STATE v 0 p
  let s := s.wr Reg.AUD_AUDSTAT_ENABLED (setBit16 (s.rd Reg.AUD_AUDSTAT_ENABLED) p (decide (v ≠ 0)))
  let s := s.wr Reg.AUD_AUDSTAT_CLKOK (setBit16 (s.rd Reg.AUD_AUDSTAT_CLKOK) p (decide (v = 2)))
  s.forEach (List.range 8) fun s g => s.wr Reg.AUD_GRPREF_REF (s.refPort g) 0 g

/-- SLIPDROP, SLIPREP or ZEROINS rose: at most one event per second and port (R346). -/
def State.slipEv (s : State) (p : Nat) : State :=
  let a := s.audPort p
  match a.slipEv with
  | some t => if s.ns < t + 1000000000 then s else (s.setAudPort p { a with slipEv := some s.ns }).ev (evAud p 1)
  | none => (s.setAudPort p { a with slipEv := some s.ns }).ev (evAud p 1)

/-! ### Frame formats (R332, R333) -/

/-- Data bits of a slot: 16 or 24; a slot of 32 carries 24. -/
def sapWidth (slot : Nat) : Nat := min 24 slot

/-- The BCLK period, from the frame's start, of the first data bit of a slot: one after the WS edge or pulse in I²S and DSP, at the edge
left-justified, and so that the last data bit is the slot's last right-justified. -/
def sapFirst (frame slot : Nat) (right : Bool) : Nat :=
  let o := if right then slot else 0
  if frame = 1 then o else if frame = 2 then o + slot - sapWidth slot else o + 1

/-- WS at a BCLK period of a frame. -/
def sapWs (frame slot k : Nat) : Bool := if frame = 0 then decide (slot ≤ k) else if frame = 3 then decide (k = 0) else decide (k < slot)

/-- A number whose bits come most significant first. -/
def bitsVal (l : List Bool) : Nat := l.foldl (fun v b => 2 * v + bit b) 0

/-- The sample of a slot out of SD, as a 24-bit sample: a slot of 16 bits leaves the low 8 bits zero. -/
def sapSample (frame slot : Nat) (sd : List Bool) (right : Bool) : Int :=
  let w := sapWidth slot
  ofTwos 24 (bitsVal ((List.range w).map fun i => sd.getD (sapFirst frame slot right + i) false) * 2 ^ (24 - w))

/-- SD over the BCLK periods of a frame that carries two samples. -/
def sapBits (frame slot : Nat) (l r : Int) : List Bool :=
  let w := sapWidth slot
  let bitOf (x : Int) (right : Bool) (k : Nat) : Bool :=
    let f := sapFirst frame slot right
    decide (f ≤ k) && decide (k < f + w) && (toTwos 24 x).testBit (23 - (k - f))
  (List.range (2 * slot + 1)).map fun k => bitOf l false k || bitOf r true k

/-! ### The ring (R338, R339) -/

/-- Store a count's sample pair; the ring keeps the newest 85.33 ms. -/
def State.apPut (s : State) (p n : Nat) (v : Int × Int) : State :=
  if s.apTx p then s else
  let a := s.audPort p
  let size := if s.apFs p = 96000 then 8192 else 4096
  s.setAudPort p { a with ring := (tset (0, 0) a.ring n v).filter fun e => decide (n < e.1 + size) }

/-- Send whole groups of eight periods of a routed port, up to count `upto`, to the partner (R382). -/
def audSendFuel : Nat → Nat → Nat → State → State
  | 0, _, _, s => s
  | k + 1, p, upto, s =>
    let a := s.audPort p
    if upto < a.sent + 8 then s else
    let sm := (List.range 8).flatMap fun i => let v := tget (0, 0) a.ring (a.sent + i); [v.1, v.2]
    audSendFuel k p upto ((s.setAudPort p { a with sent := a.sent + 8 }).linkSend 2 (.audio p a.sent sm))

def State.audSend (s : State) (p upto : Nat) : State :=
  let routed := s.routes.any fun e => match e.2 with | some r => r.kind = 0 && r.src = p | none => false
  let a := s.audPort p
  let from_ := if upto < a.sent + 4096 then a.sent else upto / 8 * 8 - 64
  let s := s.setAudPort p { a with sent := from_ }
  if s.role ≠ 1 ∨ !routed then s.setAudPort p { s.audPort p with sent := max from_ (upto / 8 * 8) } else audSendFuel 520 p upto s

/-- Counts below `n` not yet counted were filled while the port was MUTED or PREROLL: ZEROINS (R338). -/
def State.fillTo (s : State) (p n : Nat) : State :=
  let a := s.audPort p
  if s.apTx p ∨ n ≤ a.filled then s.setAudPort p { a with filled := max a.filled n }
  else (s.setAudPort p { a with filled := n }).incSat Reg.AUD_PORT_FILL_ZEROINS (n - a.filled) 0 p

/-- The fade-in of the first 64 samples of a RUN. -/
def fade (i : Nat) (x : Int) : Int := if 64 ≤ i then x else (x * (i + 1)).tdiv 64

/-- A sample captured in RUN at a count. -/
def State.capture (s : State) (p n : Nat) (v : Int × Int) : State :=
  let a := s.audPort p
  let i := n - a.runFrom
  let s := s.setAudPort p { a with hi := some n, last := v, filled := n + 1 }
  s.apPut p n (fade i v.1, fade i v.2)

/-- The mute ramp from the first missing count. -/
def State.ramp (s : State) (p c0 : Nat) : State :=
  let x := (s.audPort p).last
  s.forEach (List.range 64) fun s i => s.apPut p (c0 + i) ((x.1 * (63 - (i : Int))).tdiv 64, (x.2 * (63 - (i : Int))).tdiv 64)

/-! ### Rolls (R337) -/

/-- Enter PREROLL: filled counts count from here. -/
def State.startRoll (s : State) (p : Nat) : State :=
  (s.setAudPort p { s.audPort p with roll := 0, filled := cdiv (s.ns * s.apFs p) 1000000000 }).setApSt p 1

/-- A roll of zero, or one whose frames have passed, ends. -/
def rollFuel : Nat → Nat → State → State
  | 0, _, s => s
  | k + 1, p, s =>
    let a := s.audPort p
    if s.apSt p = 1 ∧ s.rd Reg.AUD_PORT_ROLL_PREROLL_ACT 0 p ≤ a.roll then
      (s.setAudPort p { a with roll := 0, runFrom := match a.hi with | some h => h + 1 | none => 0 }).setApSt p 2
    else if s.apSt p = 4 ∧ s.rd Reg.AUD_PORT_ROLL_POSTROLL_ACT 0 p ≤ a.roll then
      let s := s.setAudPort p { a with roll := 0, old := none, hi := none, wait := none }
      if s.rd Reg.AUD_PORT_CFG_ENABLE_ACT 0 p = 1 then rollFuel k p (s.startRoll p) else s.setApSt p 0
    else s

def State.rollEnd (s : State) (p : Nat) : State := rollFuel 3 p s

/-- A port's PREROLL or POSTROLL count is reached. -/
def execSapRollEnd (p : Fin 16) (s : State) : Host.Outcome State Fault Refusal := finish (s.rollEnd p)

/-- A frame passes in a roll. -/
def State.rollFrame (s : State) (p : Nat) : State := s.setAudPort p { s.audPort p with roll := (s.audPort p).roll + 1 }

/-! ### Master ports (R334, R342) -/

/-- What a transmitting port plays at a count: the ring of port p XOR 8, eight periods earlier; zero in a roll. -/
def State.played (s : State) (p n : Nat) : Int × Int :=
  if s.apSt p ≠ 2 ∨ n < 8 then (0, 0) else tget (0, 0) (s.audPort (p ^^^ 8)).ring (n - 8)

/-- The balls of a port over the frame of a count: a master drives WS, a transmitting port SD. -/
def State.apDrive (s : State) (p n : Nat) : State :=
  let (frame, slot) := s.apFmt p
  let ws := if s.apMaster p then (List.range (2 * slot)).map (sapWs frame slot) else []
  let sd := if s.apTx p then (let v := s.played p n; sapBits frame slot v.1 v.2) else []
  if ws = [] ∧ sd = [] then s else s.emit (.audio p n ws sd)

/-- The samples of a frame out of SD. -/
def State.apSamples (s : State) (p : Nat) (sd : List Bool) : Int × Int :=
  let (frame, slot) := s.apFmt p
  (sapSample frame slot sd false, sapSample frame slot sd true)

/-- A master port starts the frame of the next media-clock count; `sl` and `sr` are what SD shows at the BCLK periods of its two
slots. -/
def execSapFrameDrive (p : Fin 16) (sl sr : List Bool) (s : State) : Host.Outcome State Fault Refusal :=
  finish (
    let s0 := s
    let s := s.rollEnd p
    if s.apSt p = 0 ∨ !s.apMaster p ∨ !s.fclk then s0 else
    let fs := s.apFs p
    let n := max (s.ns * fs / 1000000000) (match (s.audPort p).hi with | some h => h + 1 | none => 0)
    let n := if countNs fs n < s.ns then n + 1 else n
    let s := s.at (countNs fs n)
    let s := ((s.incWrap Reg.AUD_PORT_FRAMES_COUNT 1 0 p).cvuOpaque (880 + p) 1).apDrive p n
    let st := s.apSt p
    let s := if st = 2 then
        (let a := s.audPort p
         let s := if a.hi.isNone ∨ n < a.runFrom then s.setAudPort p { a with runFrom := n } else s
         s.capture p n (s.apSamples p (sl ++ sr)))
      else
        let s := if st = 1 then s.fillTo p (n + 1) else s
        (s.setAudPort p { s.audPort p with hi := some n }).rollFrame p
    (s.audSend p (n + 1)).rollEnd p)

/-! ### Slave ports (R336, R340, R341) -/

/-- The newest reference frames of a group. -/
def State.grefs (s : State) (g : Nat) : List (Nat × Nat × Nat) := tget [] s.aud.refs g
def State.addRef (s : State) (g : Nat) (e : Nat × Nat × Nat) : State :=
  { s with aud := { s.aud with refs := tset [] s.aud.refs g ((s.grefs g ++ [e]).reverse.take 64 |>.reverse) } }

/-- Skipped counts of a port from `a` up to `n`: the previous sample again, SLIPREP each. -/
def State.repeatTo (s : State) (p a n : Nat) : State :=
  if n ≤ a then s else
  let v := (s.audPort p).last
  let s := s.forEach ((List.range (n - a)).map (· + a)) fun s k => s.capture p k v
  (s.incSat Reg.AUD_PORT_SLIP_REP (n - a) 0 p).slipEv p

/-- A frame is dropped: SLIPDROP. -/
def State.slipDrop (s : State) (p : Nat) : State := (s.incSat Reg.AUD_PORT_SLIP_DROP 1 0 p).slipEv p

/-- A frame in RUN on a port that is its own reference: `n` is its count (R336). -/
def State.ownFrame (s : State) (p n : Nat) (v : Int × Int) : State :=
  let a := s.audPort p
  match a.hi with
  | some h =>
    if n ≤ h then s.slipDrop p
    else (s.repeatTo p (if h < a.runFrom then n else h + 1) n).capture p n v
  | none => s.capture p n v

/-- The reference port of a group has a frame: what it drops or repeats is recorded for the others. -/
def State.refFrame (s : State) (p g n start : Nat) (v : Int × Int) : State :=
  let a := s.audPort p
  let s := match a.hi with
    | some h =>
      if n ≤ h then s.addRef g (n, start, 1)
      else
        let reps := if h < a.runFrom then [] else (List.range (n - (h + 1))).map (· + (h + 1))
        (reps.foldl (fun (s : State) k => s.addRef g (k, countNs (s.apFs p) k, 2)) s).addRef g (n, start, 0)
    | none => s.addRef g (n, start, 0)
  s.ownFrame p n v

/-- Fill a port's counts below `n` from the reference's: repeated ones repeat, the others are zero and count in ZEROINS. -/
def State.followTo (s : State) (p g n : Nat) : State :=
  let a := s.audPort p
  match a.hi with
  | none => s
  | some h =>
    if h < a.runFrom ∨ n ≤ h + 1 then s else
    s.forEach ((List.range (n - (h + 1))).map (· + (h + 1))) fun s k =>
      if (s.grefs g).any fun e => e.1 = k && e.2.2 = 2 then s.repeatTo p k (k + 1)
      else ((((s.setAudPort p { s.audPort p with hi := some k, filled := k + 1 }).apPut p k (0, 0)).incSat Reg.AUD_PORT_FILL_ZEROINS 1 0 p).slipEv p)

/-- The reference frame whose start lies within half a sample period of `start`. -/
def State.matchRef (s : State) (g fs start : Nat) : Option (Nat × Nat × Nat) :=
  (s.grefs g).find? fun e => e.2.2 ≠ 2 && decide (2 * fs * (if e.2.1 < start then start - e.2.1 else e.2.1 - start) ≤ 1000000000)

/-- A frame of a port in RUN that follows a reference. -/
def State.groupFrame (s : State) (p g : Nat) (e : Nat × Nat × Nat) (v : Int × Int) : State :=
  if e.2.2 = 1 then s.slipDrop p else
  match (s.audPort p).hi with
  | some h => if e.1 ≤ h ∧ (s.audPort p).runFrom ≤ h then s.slipDrop p else (s.followTo p g e.1).capture p e.1 v
  | none => s.capture p e.1 v

/-- Frames of the group that waited for a reference frame: matched now, or dropped as having none. -/
def State.settleWait (s : State) (g fs : Nat) : State :=
  s.forEach (List.range 16) fun s q =>
    let a := s.audPort q
    match a.wait with
    | none => s
    | some (t, l, r) =>
      if s.apGroup q ≠ g ∨ s.apSt q ≠ 2 then s.setAudPort q { a with wait := none } else
      match s.matchRef g fs t with
      | some e => (s.setAudPort q { a with wait := none }).groupFrame q g e (l, r)
      | none => if 2 * fs * (s.ns - t) ≤ 1000000000 then s else (s.setAudPort q { a with wait := none }).slipDrop q

/-- A valid frame of a slave port in RUN. -/
def State.runFrame (s : State) (p n start : Nat) (v : Int × Int) : State :=
  let a := s.audPort p
  let s := if a.hi.isNone ∨ a.runFrom = 0 then s.setAudPort p { a with runFrom := n, hi := none } else s
  let g := s.apGroup p
  if 7 < g then s.ownFrame p n v else
  let fs := s.apFs p
  if s.refPort g = p then (s.refFrame p g n start v).settleWait g fs else
  let s := match (s.audPort p).wait with
    | some _ => (s.setAudPort p { s.audPort p with wait := none }).slipDrop p
    | none => s
  match s.matchRef g fs start with
  | some e => s.groupFrame p g e v
  | none => s.setAudPort p { s.audPort p with wait := some (start, v.1, v.2) }

/-- A slave port receives a frame that starts at `t`, with `bclks` BCLK periods and period `per` ns; `sl` and `sr` are what SD shows in its two
slots. -/
def execSapFrameReceive (p : Fin 16) (t bclks per : Nat) (sl sr : List Bool) (s : State) : Host.Outcome State Fault Refusal :=
  finish (
    if s.apSt p = 0 ∨ s.apMaster p ∨ !s.fclk then s else
    let s := (s.at t).rollEnd p
    let fs := s.apFs p
    let valid := bclks = 2 * (s.apFmt p).2 ∧ 990000000 ≤ per * fs ∧ per * fs ≤ 1010000000
    if !valid then s.incSat Reg.AUD_PORT_FILL_BADFRAME 1 0 p else
    let n := (2 * t * fs + 1000000000) / 2000000000
    let s := (s.incWrap Reg.AUD_PORT_FRAMES_COUNT 1 0 p).wr Reg.AUD_PORT_PHASE_NS (toTwos 32 ((t : Int) - countNs fs n)) 0 p
    let s := ((s.setAudPort p { s.audPort p with lastAt := t }).cvuOpaque (880 + p) 1).apDrive p n
    let v := s.apSamples p (sl ++ sr)
    let st := s.apSt p
    let s := if st = 2 then s.runFrame p n t v
      else
        let s := if st = 3 then ((s.setAudPort p { s.audPort p with roll := 0 }).setApSt p 1).ev (evAud p 0) else s
        let s := if st = 4 then s else s.fillTo p (n + 1)
        (s.setAudPort p { s.audPort p with hi := some n }).rollFrame p
    (s.audSend p (n + 1)).rollEnd p)

/-- A slave port in RUN has had no valid frame for four sample periods: MUTED, with the mute ramp from the first missing
count. -/
def execSapClockLoss (p : Fin 16) (s : State) : Host.Outcome State Fault Refusal :=
  finish (
    let a := s.audPort p
    let fs := s.apFs p
    if s.apSt p ≠ 2 ∨ s.apMaster p ∨ (s.ns - a.lastAt) * fs < 4000000000 then s else
    let c0 := match a.hi with | some h => h + 1 | none => cdiv (s.ns * fs) 1000000000
    let s := (s.ramp p c0).setAudPort p { (s.ramp p c0).audPort p with filled := c0, wait := none }
    let s := ((s.incSat Reg.AUD_PORT_CLKLOSS_COUNT 1 0 p).setApSt p 3).ev (evAud p 0)
    (s.fillTo p (s.ns * fs / 1000000000 + 1)).audSend p (c0 + 64))

/-! ### Commands -/

/-- The settings of a port take effect (R337). -/
def State.audApply (s : State) (p flags frame slot rate pre post group : Nat) : State :=
  let master := s.rd Reg.AUD_PORT_CFG_MASTER_ACT 0 p
  let oldRate := s.rd Reg.AUD_PORT_CFG_RATE_ACT 0 p
  let oldFmt := (s.rd Reg.AUD_PORT_CFG_FRAME_ACT 0 p, s.rd Reg.AUD_PORT_CFG_SLOTBITS_ACT 0 p)
  let changed := oldRate ≠ rate ∨ s.rd Reg.AUD_PORT_CFG_FRAME_ACT 0 p ≠ frame ∨ s.rd Reg.AUD_PORT_CFG_SLOTBITS_ACT 0 p ≠ slot ∨
    master ≠ flags / 2 % 2
  let s := ((s.wr Reg.AUD_PORT_CFG_ENABLE_ACT (flags % 2) 0 p).wr Reg.AUD_PORT_CFG_MASTER_ACT (flags / 2 % 2) 0 p).wr Reg.AUD_PORT_CFG_TX_ACT (flags / 4) 0 p
  let s := ((s.wr Reg.AUD_PORT_CFG_FRAME_ACT frame 0 p).wr Reg.AUD_PORT_CFG_SLOTBITS_ACT slot 0 p).wr Reg.AUD_PORT_CFG_RATE_ACT rate 0 p
  let s := ((s.wr Reg.AUD_PORT_CFG_GROUP_ACT group 0 p).wr Reg.AUD_PORT_ROLL_PREROLL_ACT pre 0 p).wr Reg.AUD_PORT_ROLL_POSTROLL_ACT post 0 p
  let st := s.apSt p
  let off := flags % 2 = 0
  let s :=
    if st = 0 then (if off then s else s.startRoll p)
    else if (st = 1 ∨ st = 2) ∧ ((off ∧ master = 1) ∨ (!off ∧ changed)) then
      (s.setAudPort p { s.audPort p with roll := 0, old := some (oldRate, decide (master = 1), oldFmt), wait := none }).setApSt p 4
    else if off ∧ st ≠ 4 then
      (s.setAudPort p { s.audPort p with roll := 0, hi := none, wait := none }).setApSt p 0
    else s
  let s := s.forEach (List.range 8) fun s g => s.wr Reg.AUD_GRPREF_REF (s.refPort g) 0 g
  s.rollEnd p

/-- The other ports of a group agree in RATE and MASTER, as accepted (R340). -/
def State.groupAgrees (s : State) (p g rate master : Nat) : Bool :=
  (List.range 16).all fun q => decide (q = p) || decide (s.rd Reg.AUD_PORT_CFG_GROUP 0 q ≠ g) ||
    (decide (s.rd Reg.AUD_PORT_CFG_RATE 0 q = rate) && decide (s.rd Reg.AUD_PORT_CFG_MASTER 0 q = master))

/-- The port is routed to a channel that runs or drains. -/
def State.portLive (s : State) (p : Nat) : Bool :=
  s.routes.any fun e => match e.2 with | some r => r.kind = 0 && r.src = p && s.live (e.1 / 8) | none => false

def chkAudSetPort : OpChk := fun s _ p =>
  let n := fld p 0 1
  let g := fld p 10 1
  firstBad [(15 < n, badAt 0), (7 < fld p 1 1, badAt 1), (3 < fld p 2 1, badAt 2), (!([16, 24, 32].contains (fld p 3 1)), badAt 3),
    (1 < fld p 4 1, badAt 4), (nz p 5 1, badAt 5), (7 < g && g ≠ 255, badAt 10), (nz p 11 5, badAt 11),
    (g ≤ 7 && !s.groupAgrees n g (fld p 4 1) (fld p 1 1 / 2 % 2), { status := stBadParam, detail := 0x800A }),
    (s.portLive n && (s.rd Reg.AUD_PORT_CFG_RATE 0 n ≠ fld p 4 1 || s.rd Reg.AUD_PORT_CFG_FRAME 0 n ≠ fld p 2 1), { status := stBusy, detail := 2 })]

def runAudSetPort : OpRun := fun c p s =>
  let n := fld p 0 1
  let f := fld p 1 1
  let s := ((s.wr Reg.AUD_PORT_CFG_ENABLE (f % 2) 0 n).wr Reg.AUD_PORT_CFG_MASTER (f / 2 % 2) 0 n).wr Reg.AUD_PORT_CFG_TX (f / 4) 0 n
  let s := ((s.wr Reg.AUD_PORT_CFG_FRAME (fld p 2 1) 0 n).wr Reg.AUD_PORT_CFG_SLOTBITS (fld p 3 1) 0 n).wr Reg.AUD_PORT_CFG_RATE (fld p 4 1) 0 n
  let s := ((s.wr Reg.AUD_PORT_CFG_GROUP (fld p 10 1) 0 n).wr Reg.AUD_PORT_ROLL_PREROLL (fld p 6 2) 0 n).wr Reg.AUD_PORT_ROLL_POSTROLL (fld p 8 2) 0 n
  if s.ns < c.ns then
    (s, .final stOk 0 0 0 [{ c.commit (.audPort n f (fld p 2 1) (fld p 3 1) (fld p 4 1) (fld p 6 2) (fld p 8 2) (fld p 10 1)) with ch := 255 }])
  else (s.audApply n f (fld p 2 1) (fld p 3 1) (fld p 4 1) (fld p 6 2) (fld p 8 2) (fld p 10 1), ok2 0 0)

def execOpAudSetPort (h : Hdr) (p : Bytes) (s : State) : Host.Outcome State Fault Refusal :=
  finish (s.hostCmd (.opAudSetPort h p) 0x0400 h p chkAudSetPort runAudSetPort)

/-- AUD_MCLK_OUT starts or stops. -/
def execAudMclkctlOut (v : Bool) (s : State) : Host.Outcome State Fault Refusal :=
  finish (
    let s := s.hostAccess Reg.AUD_MCLKCTL_OUT
    if s.fclk then (s.wr Reg.AUD_MCLKCTL_OUT (bit v)).emit (.pin .mclkOut v) else s)

end Sys2Proof.Machine
end

