-- ==== Sys2Proof/Machine/EngCore.lean ====
section
/-! DEFINITION. The state of the slice engines, and the tasks of a channel that is reset (R36, R74, R81, R83). -/

namespace Sys2Proof.Machine

/-! ### Engine states (R81) -/

def State.engSt (s : State) (e : Nat) : Nat := s.rd Reg.ENC_ENGSTAT_STATE e
/-- Only ENG_IDLE and ENG_BUSY are in service. -/
def State.inService (s : State) (e : Nat) : Bool := decide (s.engSt e ≤ 1)

/-- A live channel with no in-service engine in its active mask enters CH_FAULTED (R74). -/
def State.maskCheck (s : State) : State :=
  s.forEach ((List.range 64).filter s.live) fun s n =>
    if (List.range 32).any fun e => (s.rd Reg.CHC_SLOTMASK_ACT_ENGINES n).testBit e && s.inService e then s else s.faultChan n 2

/-- An engine leaves service: EV_ENC_SERVICE, and the commands that waited for it complete. -/
def State.engOut (s : State) (e : Nat) : State :=
  let x := s.eng e
  let s := (s.wr Reg.ENC_ENGSTAT_STATE 4 e).ev (evEnc e 1) 255 4
  let s := s.setEng e { x with task := none, outKeys := [] }
  (x.outKeys.foldl (fun s k => s.complete k stOk) s).maskCheck

/-- FCLK cycles an engine has spent on the slice it runs (R83). -/
def State.engSpent (s : State) (e : Nat) : Nat :=
  match (s.eng e).task with
  | some d => (s.ns - (s.task d).start) * 3 / 2
  | none => 0

/-- The slice of an engine leaves it: its busy cycles are counted, and no slice is in progress (R83). -/
def State.engLeave (s : State) (e : Nat) : State :=
  let s := s.incWrap Reg.ENC_BUSYCYC_CYCLES (s.engSpent e) e
  let s := ((s.wr Reg.ENC_CURTASK_CHANNEL 255 e).wr Reg.ENC_CURTASK_ROW 0 e).wr Reg.ENC_CURTASK_COLUMN 0 e
  (s.wr Reg.ENC_CURTASK_STANDIN 0 e).setEng e { s.eng e with task := none }

/-- The slice of an engine has ended or stopped (R81): the engine goes idle, or out of service where OP_ENG_SERVICE waits. -/
def State.engIdle (s : State) (e : Nat) : State :=
  if (s.eng e).task = none then s else
  let s := s.engLeave e
  if (s.eng e).outKeys ≠ [] then s.engOut e else s.wr Reg.ENC_ENGSTAT_STATE 0 e

/-- The engine that runs a task. -/
def State.engOf (s : State) (d : Nat) : Option Nat := (List.range 32).find? fun e => (s.eng e).task = some d

/-- Discard every task of a channel (R36: OP_CH_RESET, OP_CH_DESTROY). An engine that runs one ends its slice (R81). -/
def State.dropTasks (s : State) (n : Nat) : State :=
  let mine := (s.spd.tasks.filter fun e => decide (e.2.ch = n ∧ e.2.kind ≠ kFlatten ∧ e.2.state ≠ 0)).map (·.1)
  let s := s.forEach (List.range 32) fun s e =>
    match (s.eng e).task with
    | none => s
    | some d => if mine.contains d then s.engIdle e else s
  let s := mine.foldl State.freeTask s
  (s.resetFlow n).resetFlow (0x40 + n)

end Sys2Proof.Machine
end

