-- ==== Sys2Proof/Machine/ChanCmds.lean ====
section
/-! DEFINITION. The channel commands OP_CH_* (R34 to R43, R48, R62, R70, R72, R96, R97, R113, R120, R125, R131, R516). -/

namespace Sys2Proof.Machine

/-- A stop on the channel's accepted MAXRATE under R113, or its C under R62. -/
def State.rateLimits (s : State) (n detail : Nat) : Option Ref4 :=
  let c := s.chan n
  let cap := s.rd Reg.CHC_RCCAP_MAXRATE n * 1000
  let lo := cMinBits c.raster c.rate c.coding.codec
  firstBad [(cap < lo, { status := stBadParam, detail, r0 := lo, r1 := cap }),
    (!levelAdmits c.raster c.rate c.coding (s.capC n), { status := stBadParam, detail })]

/-- The channel's CHC registers at their reset values. -/
def State.chcReset (s : State) (n : Nat) : State := Reg.rowsCHC.foldl (fun s r => s.wr r r.rst n) s

/-! ### Create, destroy -/

def runChCreate : OpRun := fun c _ s =>
  ((((s.setChan c.ch {}).chcReset c.ch).formFigures c.ch).setChSt c.ch 1 0, ok2 0 0)

def execOpChCreate (h : Hdr) (p : Bytes) (s : State) : Host.Outcome State Fault Refusal :=
  finish (s.hostCmd (.opChCreate h p) 0x0100 h p noChk runChCreate)

/-- A layer of another channel reads pages that this channel holds. -/
def State.pagesRead (s : State) (n : Nat) : Bool :=
  let mine := (s.cst.pages.filter fun e => e.2.ch = n).map (·.1)
  s.cmp.layers.any fun e => e.1 / 4 ≠ n && ([e.2.bnd, e.2.latestBnd].any fun b => match b with
    | some b => b.fmt ≠ 6 && Config.csBase ≤ b.base && mine.any fun p =>
        decide (b.base - Config.csBase < 4096 * (p + 1)) && decide (4096 * p < b.base - Config.csBase + b.pitch * b.h)
    | none => false)

def chkChDestroy : OpChk := fun s n _ => if s.pagesRead n then some { status := stBusy, detail := 2 } else none

/-- A queue forgets the last row of a channel (R239). -/
def Que.unraise (u : Que) (n : Nat) : Que := { u with raised := tset (0, 0) u.raised n (0, 0) }

/-- The context is freed: reservations, tasks, commits, layers, cache, program, routes (R36). -/
def State.freeChan (s : State) (n : Nat) : State :=
  let last := s.rd Reg.CHC_FRAMECNT_COUNT n
  let s := ((s.dropTasks n).dropCommits n).clearRefs n
  let s := match (s.cache n).flattening with | some d => s.taskDone d | none => s
  let s := (List.range 8).foldl (fun s k => (s.setRoute n k none).routeAct n k none) (s.outDestroy n)
  let s := (List.range 4).foldl (fun s k => [Reg.CMP_LAYERSTAT_HASFRAME, Reg.CMP_LAYERSTAT_LATECNT].foldl (fun s r => s.wr r 0 0 (4 * n + k))
    (s.setLayer (4 * n + k) {})) s
  let s := (s.setCache n {}).releaseFormats
  let s := s.setChSt n 0 last
  let s := s.unreserve n
  let s := ((s.setChan n {}).chcReset n).fitFlows
  let s := [Reg.CMP_CHCMP_EMSEL, Reg.CMP_CHCMP_EMPEND, Reg.CMP_CHCMP_FLATTENS].foldl (fun s r => s.wr r 0 0 n) s
  let s := { s with hif := { s.hif with ques := s.hif.ques.map (fun e : Nat × Que => (e.1, e.2.unraise n)) } }
  ((s.anyEm.layerShow n).coefSettle).pageCounts

def runChDestroy : OpRun := fun c _ s => (s.freeChan c.ch, ok2 0 0)

def execOpChDestroy (h : Hdr) (p : Bytes) (s : State) : Host.Outcome State Fault Refusal :=
  finish (s.hostCmd (.opChDestroy h p) 0x0101 h p chkChDestroy runChDestroy)

/-! ### Settings -/

/-- The period of a refresh follows the charged rate unless a command set it (R132). -/
def State.perDefault (s : State) (n : Nat) : State :=
  let c := s.chan n
  if c.periodSet then s else (s.wr Reg.CHC_REFRESH_PERIOD (chargedRate c.rate) n).wr Reg.CHC_REFRESH_PERIOD_ACT (chargedRate c.rate) n

/-- The state that carries a new format. -/
def State.withFormat (s : State) (n : Nat) (p : Bytes) : State :=
  (s.setChan n { s.chan n with raster := fld p 0 1, rate := fld p 1 1, infmt := fld p 2 1 }).wr Reg.CHC_PHASE_OFFSET_NS (fld p 4 4) n

def chkChSetFormat : OpChk := fun s n p =>
  let (a, b) := period (fld p 1 1)
  orElse (firstBad [(3 < fld p 0 1, badAt 0), (10 < fld p 1 1, badAt 1), (2 < fld p 2 1, badAt 2), (nz p 3 1, badAt 3),
    (a * 1000000000 ≤ fld p 4 4 * b, badAt 4)]) fun _ =>
  let s := s.withFormat n p
  orElse (s.rateLimits n 0x8000) fun _ => orElse (s.recheck n) fun _ => s.budgetBad

def runChSetFormat : OpRun := fun c p s =>
  let s := (s.withFormat c.ch p).rereserve c.ch
  ((if s.admitted c.ch then s.perDefault c.ch else s).compShow, ok2 0 0)

def execOpChSetFormat (h : Hdr) (p : Bytes) (s : State) : Host.Outcome State Fault Refusal :=
  finish (s.hostCmd (.opChSetFormat h p) 0x0102 h p chkChSetFormat runChSetFormat)

def chkChSetLatency : OpChk := fun s n p =>
  orElse (firstBad [(fld p 0 4 < 1000 || 100000 < fld p 0 4, badAt 0), (nz p 4 4, badAt 4)]) fun _ =>
  (s.wr Reg.CHC_LATENCY_L_US (fld p 0 4) n).recheck n

def runChSetLatency : OpRun := fun c p s => ((s.wr Reg.CHC_LATENCY_L_US (fld p 0 4) c.ch).rereserve c.ch, ok2 0 0)

def execOpChSetLatency (h : Hdr) (p : Bytes) (s : State) : Host.Outcome State Fault Refusal :=
  finish (s.hostCmd (.opChSetLatency h p) 0x0103 h p chkChSetLatency runChSetLatency)

/-- The coding parameters after a command (R72): CHROMA_LOC follows COLOUR until a command sets it. -/
def codingAfter (c : Coding) (p : Bytes) : Coding :=
  let m := fld p 0 1
  let pick (i old : Nat) := if m.testBit i then fld p (i + 1) 1 else old
  let colour := pick 3 c.colour
  let locSet := c.locSet || m.testBit 4
  { codec := pick 0 c.codec, chroma := pick 1 c.chroma, depth := pick 2 c.depth, colour, locSet,
    loc := if m.testBit 4 then fld p 5 1 else if c.locSet then c.loc else if colour ≤ 1 then 0 else 2,
    captions := pick 5 c.captions, mdcv := if m.testBit 6 then bytesAt p 8 24 else c.mdcv, cll := if m.testBit 7 then fld p 32 4 else c.cll,
    ccflow := if m.testBit 5 then fld p 36 2 else c.ccflow }

/-- The state that carries new coding parameters. -/
def State.withCoding (s : State) (n : Nat) (p : Bytes) : State :=
  s.setChan n { s.chan n with coding := codingAfter (s.chan n).coding p }

def chkChSetCoding : OpChk := fun s n p =>
  let m := fld p 0 1
  let st := s.projSt n
  let out (i hi : Nat) : Bool × Ref4 := (m.testBit i && decide (hi < fld p (i + 1) 1), badAt (i + 1))
  orElse (firstBad [
    (m % 32 ≠ 0 && !([1, 2, 5].contains st), { status := stWrongState, detail := st }), (m = 0, badAt 0), out 0 1, out 1 1, out 2 1, out 3 4, out 4 5,
    out 5 1, (nz p 7 1, badAt 7),
    (m.testBit 5 && fld p 6 1 = 1 && (match s.flowIn (fld p 36 2) with | some x => x.kind ≠ 2 | none => true), badAt 36), (nz p 38 2, badAt 38)]) fun _ =>
  let s := s.withCoding n p
  orElse (if m % 8 = 0 then none else s.rateLimits n 0x8001) fun _ => s.recheck n

def runChSetCoding : OpRun := fun c p s =>
  let m := fld p 0 1
  let s := (s.withCoding c.ch p).rereserve c.ch
  let k := (s.chan c.ch).coding
  if c.rowed then (s, .final stOk 0 0 0 [c.commit (.coding m [k.captions] k.mdcv k.cll k.ccflow)])
  else (s.seiAct c.ch m k.captions k.mdcv k.cll k.ccflow, ok2 0 0)

def execOpChSetCoding (h : Hdr) (p : Bytes) (s : State) : Host.Outcome State Fault Refusal :=
  finish (s.hostCmd (.opChSetCoding h p) 0x0104 h p chkChSetCoding runChSetCoding)

/-- The state that carries new references (R96). -/
def State.withRefs (s : State) (n : Nat) (p : Bytes) : State :=
  s.setChan n { s.chan n with refs := fld p 0 1, longPeriod := fld p 2 2 }

def chkChSetRefs : OpChk := fun s n p =>
  orElse (firstBad [(fld p 0 1 = 0 || 2 < fld p 0 1, badAt 0), (nz p 1 1, badAt 1), (fld p 0 1 = 1 && fld p 2 2 ≠ 0, badAt 2)]) fun _ =>
  (s.withRefs n p).recheck n

def runChSetRefs : OpRun := fun c p s => ((s.withRefs c.ch p).rereserve c.ch, ok2 0 0)

def execOpChSetRefs (h : Hdr) (p : Bytes) (s : State) : Host.Outcome State Fault Refusal :=
  finish (s.hostCmd (.opChSetRefs h p) 0x0105 h p chkChSetRefs runChSetRefs)

/-- The state that carries new rate settings in the shadow registers. -/
def State.withRate (s : State) (n : Nat) (p : Bytes) : State :=
  let s := (s.wr Reg.CHC_RCCAP_MAXRATE (fld p 0 4) n).wr Reg.CHC_RCEMCAP_EMCAP (fld p 4 4) n
  let s := (s.wr Reg.CHC_RCQP_TARGET_QP (fld p 8 1) n).wr Reg.CHC_RCQP_QP_MIN (fld p 9 1) n
  let s := (s.wr Reg.CHC_RCQP_QP_MAX (fld p 10 1) n).wr Reg.CHC_RCQP_CTU_DQP_MAX (fld p 11 1) n
  (s.wr Reg.CHC_RCTUNE_ROW_SLACK (fld p 12 1) n).wr Reg.CHC_RCTUNE_REFRESH_QP_OFS (fld p 13 1 % 16) n

def chkChSetRate : OpChk := fun s n p =>
  let st := s.projSt n
  let top := if (s.chan n).coding.codec = 0 then 51 else 63
  let tq := fld p 8 1
  let lo := fld p 9 1
  let hi := fld p 10 1
  let ofs := ofTwos 8 (fld p 13 1)
  let c := if s.live n then (s.chan n).cRate else s.capC n
  orElse (firstBad [
    ((st = 3 || st = 4) && decide (c < 1000 * max (fld p 0 4) (fld p 4 4)), { status := stWrongState, detail := st }),
    (fld p 0 4 < 1000 || 2000000 < fld p 0 4, badAt 0), (top < tq, badAt 8), (top < lo || tq < lo, badAt 9), (top < hi || hi < tq, badAt 10),
    (12 < fld p 11 1, badAt 11), (fld p 12 1 < 4 || 32 < fld p 12 1, badAt 12), (decide (ofs < -6 ∨ 6 < ofs), badAt 13), (nz p 14 2, badAt 14)]) fun _ =>
  let s := s.withRate n p
  orElse (s.rateLimits n 0x8000) fun _ => s.recheck n

def runChSetRate : OpRun := fun c p s =>
  let s := (s.withRate c.ch p).rereserve c.ch
  let ofs := fld p 13 1 % 16
  if c.rowed then
    (s, .final stOk 0 0 0 [c.commit (.rate (fld p 0 4) (fld p 4 4) (fld p 8 1) (fld p 9 1) (fld p 10 1) (fld p 11 1) (fld p 12 1) ofs)])
  else
    let s := s.rateAct c.ch (fld p 0 4) (fld p 4 4) (fld p 8 1) (fld p 9 1) (fld p 10 1) (fld p 11 1) (fld p 12 1) ofs
    (if s.live c.ch then s.autoFollow c.ch (s.nextPicBase c.ch (s.chan c.ch).nextFrame (s.chan c.ch).nextRow) else s, ok2 0 0)

def execOpChSetRate (h : Hdr) (p : Bytes) (s : State) : Host.Outcome State Fault Refusal :=
  finish (s.hostCmd (.opChSetRate h p) 0x0106 h p chkChSetRate runChSetRate)

def chkChSetRefresh : OpChk := fun _ _ p =>
  firstBad [(2 < fld p 0 1, badAt 0), (nz p 1 1, badAt 1), (fld p 2 2 = 0 || 4096 < fld p 2 2, badAt 2)]

def runChSetRefresh : OpRun := fun c p s =>
  let s := s.setChan c.ch { s.chan c.ch with periodSet := true }
  let s := (s.wr Reg.CHC_REFRESH_MODE (fld p 0 1) c.ch).wr Reg.CHC_REFRESH_PERIOD (fld p 2 2) c.ch
  if c.rowed then (s, .final stOk 0 0 0 [c.commit (.refresh (fld p 0 1) (fld p 2 2))])
  else (s.refreshAct c.ch (fld p 0 1) (fld p 2 2), ok2 0 0)

def execOpChSetRefresh (h : Hdr) (p : Bytes) (s : State) : Host.Outcome State Fault Refusal :=
  finish (s.hostCmd (.opChSetRefresh h p) 0x0107 h p chkChSetRefresh runChSetRefresh)

def chkChSetSlotmask : OpChk := fun s n p =>
  if fld p 0 4 = 0 then some (cap 3 (s.pix n) 0) else
  let s := s.wr Reg.CHC_SLOTMASK_ENGINES (fld p 0 4) n
  if s.admitted n then s.admitCheck n else none

/-- The active mask follows at once unless the channel runs (R43). -/
def runChSetSlotmask : OpRun := fun c p s =>
  let s := s.wr Reg.CHC_SLOTMASK_ENGINES (fld p 0 4) c.ch
  (if s.live c.ch then s else s.wr Reg.CHC_SLOTMASK_ACT_ENGINES (fld p 0 4) c.ch, ok2 0 0)

def execOpChSetSlotmask (h : Hdr) (p : Bytes) (s : State) : Host.Outcome State Fault Refusal :=
  finish (s.hostCmd (.opChSetSlotmask h p) 0x0108 h p chkChSetSlotmask runChSetSlotmask)

/-! ### Admission, start, stop -/

def chkChAdmit : OpChk := fun s n _ => orElse (s.rateLimits n 0) fun _ => (s.assignMacs n).admitCheck n

def runChAdmit : OpRun := fun c _ s => ((((s.perDefault c.ch).reserve c.ch true)).setChSt c.ch 2 (s.rd Reg.CHC_FRAMECNT_COUNT c.ch), ok2 0 0)

def execOpChAdmit (h : Hdr) (p : Bytes) (s : State) : Host.Outcome State Fault Refusal :=
  finish (s.hostCmd (.opChAdmit h p) 0x0109 h p chkChAdmit runChAdmit)

def runChRelease : OpRun := fun c _ s =>
  (((s.clearRefs c.ch).unreserve c.ch).setChSt c.ch 1 (s.rd Reg.CHC_FRAMECNT_COUNT c.ch), ok2 0 0)

def execOpChRelease (h : Hdr) (p : Bytes) (s : State) : Host.Outcome State Fault Refusal :=
  finish (s.hostCmd (.opChRelease h p) 0x010A h p noChk runChRelease)

/-- The grid of a start (R36): its first frame is the first whose reference time is at or after a point, and takes the
count of FRAMECNT (R58). -/
def State.startGrid (s : State) (n t : Nat) : State :=
  let f := s.rd Reg.CHC_FRAMECNT_COUNT n
  s.setChan n { s.chan n with gridBase := s.gridFrameAt n t, startFrame := f, nextFrame := f, nextRow := 0 }

/-- The start is a commit at the reference time of the first frame; RESULT1 is that time. -/
def runChStart : OpRun := fun c _ s =>
  let s := s.startGrid c.ch c.ns
  let f := (s.chan c.ch).startFrame
  let t := s.refNs c.ch f 0
  (s, .final stOk 0 0 (timeForm t) [{ c.commit .start with frame := f, row := 0, ns := t }])

def execOpChStart (h : Hdr) (p : Bytes) (s : State) : Host.Outcome State Fault Refusal :=
  finish (s.hostCmd (.opChStart h p) 0x010B h p noChk runChStart)

/-- The picture that holds the effective row is the last (R516). -/
def runChStop : OpRun := fun c _ s => (s, .final stOk 0 0 c.frame [c.commit .stop])

def execOpChStop (h : Hdr) (p : Bytes) (s : State) : Host.Outcome State Fault Refusal :=
  finish (s.hostCmd (.opChStop h p) 0x010C h p noChk runChStop)

/-- CH_FAULTED is left: queued tasks and ring contents go, reservations stay (R36). -/
def State.resetChan (s : State) (n : Nat) : State :=
  let s := ((((s.dropTasks n).dropCommits n).clearRefs n).pkrReset n).abortBlits (n + 2)
  let s := s.setChan n { s.chan n with ring := [], ringHead := 0, composed := [], bands := [], pfx := [], substs := [], rcWait := none, lastPic := none, packed := none }
  ((s.wr Reg.CHC_CHSTATE_FAULT 0 n).setChSt n 5 (s.rd Reg.CHC_FRAMECNT_COUNT n)).coefSettle

def runChReset : OpRun := fun c _ s => (s.resetChan c.ch, ok2 0 0)

def execOpChReset (h : Hdr) (p : Bytes) (s : State) : Host.Outcome State Fault Refusal :=
  finish (s.hostCmd (.opChReset h p) 0x010D h p noChk runChReset)

def runChRefresh : OpRun := fun c _ s => (s.askSweep c.ch false, ok2 0 0)

def execOpChRefresh (h : Hdr) (p : Bytes) (s : State) : Host.Outcome State Fault Refusal :=
  finish (s.hostCmd (.opChRefresh h p) 0x010E h p noChk runChRefresh)

def chkChMarkLong : OpChk := fun s n _ => if (s.chan n).refs ≠ 2 then some { status := stWrongState, detail := s.projSt n } else none

def runChMarkLong : OpRun := fun c _ s => (s, .final stOk 0 0 0 [c.commit .markLong])

def execOpChMarkLong (h : Hdr) (p : Bytes) (s : State) : Host.Outcome State Fault Refusal :=
  finish (s.hostCmd (.opChMarkLong h p) 0x010F h p chkChMarkLong runChMarkLong)

def runChStatus : OpRun := fun c _ s =>
  (s, ok2 (s.rd Reg.CHC_FRAMECNT_COUNT c.ch) (s.rd Reg.CHC_TROW_TROW_NS c.ch + s.rd Reg.CHC_LMIN_LMIN_NS c.ch * 2 ^ 32))

def execOpChStatus (h : Hdr) (p : Bytes) (s : State) : Host.Outcome State Fault Refusal :=
  finish (s.hostCmd (.opChStatus h p) 0x0110 h p noChk runChStatus)

end Sys2Proof.Machine
end

