-- ==== Sys2Proof/Machine/Cvu.lean ====
section
/-! DEFINITION. Check value units: their settings, windows and reports (R428 to R431). -/

namespace Sys2Proof.Machine

def chkCvuConfig : OpChk := fun _ _ p =>
  let u := fld p 0 2
  let m := fld p 2 1
  firstBad [(1023 < u, badAt 0), (3 < m || (m = 1 && !cvuSeqKey u) || (m = 0 && !cvuAddrKey u), badAt 2), (3 < fld p 3 1, badAt 3),
    (1 < fld p 8 1, badAt 8), (nz p 9 7, badAt 9)]

/-- The settings wait for the close of the window; later ones replace them (R431). -/
def runCvuConfig : OpRun := fun _ p s =>
  let u := fld p 0 2
  ((s.setCvuU u { s.cvuU u with pend := some (fld p 2 1, fld p 3 1, fld p 4 4, fld p 8 1) }).wr Reg.CVU_UNITVIEW_PENDING 1 u, ok2 0 0)

def execOpCvuConfig (h : Hdr) (p : Bytes) (s : State) : Host.Outcome State Fault Refusal :=
  finish (s.hostCmd (.opCvuConfig h p) 0x0900 h p chkCvuConfig runCvuConfig)

/-- A mismatch is noted. -/
def State.cvuMiss (s : State) (u : Nat) : State :=
  let s := ((s.wr Reg.CVU_UNITVIEW_MISMATCH 1 u).incSat Reg.CVU_UNITVIEW_MISCNT 1 u).incSat Reg.CVU_TOTMIS_COUNT
  s.wr Reg.CVU_GRPSUM_GROUPS (s.rd Reg.CVU_GRPSUM_GROUPS ||| 2 ^ (u / 32))

/-- A window is reported; answers whether it mismatched (R430). One of the MS kind ends with its millisecond, those of frames and pictures with their last item; a
unit none of whose windows has ended reports nothing. -/
def State.cvuClose (s : State) (u sum : Nat) : Bool × State :=
  if 1023 < u then (false, s) else
  let s := if s.cvuDue u then s.cvuEnd u (if cvuCarried u then 0 else sum) else s
  let x := s.cvuU u
  match x.shut with
  | [] => (false, s)
  | (result, wrong) :: rest =>
    let s := (s.wr Reg.CVU_RESULT_VALUE result 0 u).incWrap Reg.CVU_WINVIEW_WINDOWS 1 u
    (wrong, (if wrong then s.cvuMiss u else s).setCvuU u { x with shut := rest })

/-- The windows that close in one cycle; each group with a mismatch raises its event once. -/
def State.cvuCloses (s : State) (us : List (Nat × Nat)) : State :=
  let (bad, s) := us.foldl (fun (acc : List Nat × State) e =>
    let (w, s) := acc.2.cvuClose e.1 e.2
    (if w then acc.1 ++ [e.1] else acc.1, s)) ([], s)
  s.forEach (List.range 32) fun s g =>
    let m := (bad.filter fun u => u / 32 = g).foldl (fun m u => m ||| 2 ^ (u % 32)) 0
    if m = 0 then s else s.ev (evCvu g) 255 m

def execCvuWindowClose (us : List (Nat × Nat)) (s : State) : Host.Outcome State Fault Refusal :=
  finish (if s.fclk then s.cvuCloses us else s)

/-- A write of ones clears the selected unit's MISMATCH, or bits of GRPSUM; windows that close in its cycle set them again (R430). -/
def execCvuMismatchClear (grp : Option Nat) (us : List (Nat × Nat)) (s : State) : Host.Outcome State Fault Refusal :=
  finish (
    let s := match grp with
      | none => (s.hostAccess Reg.CVU_UNITVIEW_MISMATCH).wr Reg.CVU_UNITVIEW_MISMATCH 0 (s.rd Reg.CVU_UNITSEL_UNIT)
      | some b =>
        let old := s.rd Reg.CVU_GRPSUM_GROUPS
        (s.hostAccess Reg.CVU_GRPSUM_GROUPS).wr Reg.CVU_GRPSUM_GROUPS (old ^^^ (old &&& b))
    if s.fclk then s.cvuCloses us else s)

end Sys2Proof.Machine
end

