-- ==== Sys2Proof/Machine/Engines.lean ====
section
/-! DEFINITION. Slice engines: dispatch of slices, failures, re-encoding, substitution, self-test and service
(R59, R74 to R84, R105, R119, R215). -/

namespace Sys2Proof.Machine

/-! ### Times of a row (R209, R212) -/

def State.boundaryNs (s : State) (n frame row : Nat) : Nat := s.refNs n frame row + (s.chan n).tRow
def State.encNs (s : State) (n frame row : Nat) : Nat := s.refNs n frame row + 2 * (s.chan n).tRow
def State.packNs (s : State) (n frame row : Nat) : Nat := s.encNs n frame row + 60000

/-- The bound of a slice of a channel in ns (R59). -/
def State.boundNs (s : State) (n : Nat) : Nat :=
  sliceBoundNs (s.chan n).coding.codec (sliceCtus (s.chan n).raster (s.chan n).coding.codec)

/-! ### The slab (R206) -/

/-- The tasks of a channel's slab that satisfy a test. -/
def State.slab (s : State) (n : Nat) (f : Task → Bool) : List Nat :=
  ((List.range 32).map (· + 32 * n)).filter fun d => (s.task d).state ≠ 0 && f (s.task d)

/-- Build a task in the lowest free descriptor of a channel's slab. The slab never runs short (R206). -/
def State.slabPut (s : State) (n : Nat) (t : Task) : State :=
  match s.slabFree n with
  | [] => s
  | d :: _ => s.putTask d t

/-! ### Faults of an engine (R76, R83) -/

/-- Engine faults of the last 60 s (R83). -/
def State.recent (s : State) (e : Nat) : Nat := ((s.eng e).faults.filter fun t => s.ns < t + 60000000000).length

/-- An engine fault counts and leaves its cause and task (R76, R83). -/
def State.engCount (s : State) (e cause ch row col : Nat) : State :=
  let x := s.eng e
  let s := s.setEng e { x with faults := (x.faults.filter fun t => s.ns < t + 60000000000) ++ [s.ns] }
  let s := (s.wr Reg.ENC_ENGSTAT_CAUSE cause e).incSat Reg.ENC_FAULTCNT_TOTAL 1 e
  let s := (s.wr Reg.ENC_FAULTCNT_RECENT (min 255 (s.recent e)) e).wr Reg.ENC_FAULTTASK_CHANNEL ch e
  (s.wr Reg.ENC_FAULTTASK_ROW row e).wr Reg.ENC_FAULTTASK_COLUMN col e

/-! ### Substitution and re-encoding (R77 to R80) -/

/-- The picture a channel is reconstructing in a frame. -/
def State.curDesc (s : State) (n frame : Nat) : Option Nat :=
  (s.descs n).find? fun d => (s.ref d).frame = frame && (s.ref d).mark ≠ mkFree

/-- A slice of a picture has ended; the last one ends the picture (R99, R101). -/
def State.sliceEnded (s : State) (n frame : Nat) : State :=
  let c := s.chan n
  let left := tget 0 c.slicesLeft frame - 1
  if left = 0 then s.pictureDone n frame else s.setChan n { c with slicesLeft := tset 0 c.slicesLeft frame left }

/-- The first slice of a picture begins it, with the count of its slices. -/
def State.beginPicture (s : State) (n frame : Nat) : State :=
  if (s.chan n).lists.any fun e => e.1 = frame then s else
  let s := s.pictureStart n frame
  let c := s.chan n
  s.setChan n { c with slicesLeft := tset 0 c.slicesLeft frame (c.rows * sliceCols c.raster) }

/-- Take a task out of the Spindle without completing it. -/
def State.withdraw (s : State) (d : Nat) : State := s.freeTask d

/-- A channel's events of its slices in order: frame, row, column (R84). -/
def insSubst (x : SubstEv) : List SubstEv → List SubstEv
  | [] => [x]
  | y :: r => if rowLt (x.frame, 4 * x.row + x.col) (y.frame, 4 * y.row + y.col) then x :: y :: r else y :: insSubst x r

/-- EV_CH_SLICE_SUBST of the substitutes that are written, while no earlier one waits for its record (R84). -/
def substFuel : Nat → Nat → State → State
  | 0, _, s => s
  | k + 1, n, s =>
    match (s.chan n).substs with
    | x :: r => if !x.done then s else
        substFuel k n ((s.setChan n { s.chan n with substs := r }).ev (evCh n 3) n (x.row + 65536 * x.col) x.frame)
    | [] => s

/-- A slice is to be substituted, or its substitute is written (R84). -/
def State.substNote (s : State) (n frame row col : Nat) (done : Bool) : State :=
  let c := s.chan n
  let rest := c.substs.filter fun x => !(x.frame = frame && x.row = row && x.col = col)
  let s := s.setChan n { c with substs := insSubst { frame, row, col, done } rest }
  substFuel (rest.length + 1) n s

/-- Band tasks not yet dispatched that stage a row of a picture, for every list position that holds it (R79). -/
def State.bandTasks (s : State) (n frame row : Nat) : List Nat :=
  s.slab n fun t => (t.kind = kBandFill || t.kind = kBandRefetch) && t.state ≤ 3 && (s.ref t.param).frame = frame && (s.ref t.param).owner = n &&
    (t.row = row || (t.kind = kBandFill && t.row = 0 && decide (row ≤ 256 / ctuH (s.chan n).coding.codec)))

/-- The RECON_COPY of a substituted slice. Band tasks that stage its row wait for it (R79). -/
def State.reconCopy (s : State) (n frame row col : Nat) : State :=
  match s.slabFree n with
  | [] => s
  | d :: _ =>
    let s := s.putTask d { newTask kReconCopy with flow := n, ch := n, frame, row, col, deadline := some (s.ns + 40000) }
    (s.bandTasks n frame row).foldl (fun s b => s.precede [d] b) s

/-- Substitute a slice: a SUBST with its FSEQ and successors, the reconstruction copy, and the carry of R80; EV_CH_SLICE_SUBST follows at
the write. Where the first slice of a picture is withdrawn before any was dispatched, the picture begins here (DESIGN CHOICE: the spec
names the dispatch of the first slice task alone; log entry 91). -/
def State.substitute (s : State) (d : Nat) : State :=
  let t := s.task d
  let n := t.ch
  let s := (s.withdraw d).beginPicture n t.frame
  let s := s.slabPut n { newTask kSubst with
    flow := n, ch := n, frame := t.frame, row := t.row, col := t.col, deadline := some (s.ns + 5000), fseq := t.fseq, succ := t.succ,
    cap := t.cap, qp := t.qp, rc := t.rc }
  let s := s.reconCopy n t.frame t.row t.col
  let s := s.onSlot n t.frame t.row fun x => { x with floor := true }
  s.substNote n t.frame t.row t.col false

/-- A refetch of the band row that holds a failed line (R95): its list position, row and picture. -/
def State.bandOf (s : State) (n addr : Nat) : Option (Nat × BandRow) :=
  let c := s.chan n
  (c.bands.find? fun e =>
    let pos := e.1 / 16
    (pageLines (c.bandRing pos) (e.1 % 16 * c.rowBytes) c.rowBytes).contains (addr / 64)).map fun e => (e.1 / 16, e.2)

/-- The BAND_REFETCH of a band row; it waits for copies of the row as a fill does (R79, R95). Answers its descriptor. -/
def State.refetch (s : State) (n : Nat) (dl : Option Nat) (pos : Nat) (b : BandRow) : Option Nat × State :=
  match s.slabFree n with
  | [] => (none, s)
  | d :: _ =>
    let copies := s.slab n fun t => t.kind = kReconCopy && t.frame = (s.ref b.desc).frame && t.row = b.row
    (some d, (s.putTask d { newTask kBandRefetch with flow := n, ch := n, frame := b.frame, row := b.row, col := pos, param := b.desc, deadline := dl }).precede copies d)

/-- The decision of R77 on a failed slice: re-encode on another engine while the bound fits and not after a second failed re-encode, else
substitute. `line`: the store address of a band line that failed, refetched first (R95). Answers whether it is re-encoded. -/
def State.failSlice (s : State) (d : Nat) (avoid : Nat) (line : Option Nat) : Bool × State :=
  let t := s.task d
  let n := t.ch
  let left := (t.deadline.getD 0) - s.ns
  let other := (List.range 32).any fun e => e ≠ avoid && s.inService e
  let s := s.withdraw d
  let (wait, s) := match line with
    | some a => (match s.bandOf n a with | some (pos, b) => s.refetch n t.deadline pos b | none => (none, s))
    | none => (none, s)
  if t.retries < 2 ∧ s.boundNs n ≤ left ∧ other then
    match s.slabFree n with
    | [] => (true, s)
    | r :: _ =>
      let s := s.putTask r { t with kind := kReencode, prio := kindPrio kReencode, dep := 0, release := 0, retries := t.retries + 1, bound := none,
                                    proj := false, standin := false, missed := false, target := 255, avoid := some avoid }
      (true, s.precede wait.toList r)
  else
    let s := s.setTask d t
    (false, s.substitute d)

/-- A slice that failed on an engine is counted there (R83). -/
def State.recover (s : State) (e : Nat) (re : Bool) : State :=
  if re then s.incSat Reg.ENC_RECOVER_REENC 1 e else s.incSat Reg.ENC_RECOVER_SUBST 1 e

/-- When every band row that a slice's window reads is staged, at its dispatch at the earliest; nothing while one is not (R94). The blank picture, whose samples are
constant, needs none (R67, R99). -/
def State.stagedAt (s : State) (t : Task) : Option Nat :=
  let c := s.chan t.ch
  let rows := t.list.zipIdx.flatMap fun (d, p) => if t.live.contains d && !(s.ref d).const then (c.bandNeeds t.row).map fun k => (c.bandAt p t.frame k).map (·.ns) else []
  if rows.any Option.isNone then none else some ((rows.filterMap id).foldl max t.start)

/-- FCLK cycles that a slice has waited for its band rows (R94, R107): its first window fetch reads all of them. -/
def State.bandWait (s : State) (t : Task) : Nat := ((s.stagedAt t).getD s.ns - t.start) * 3 / 2

/-- When the slice of a task is done at the latest, or nothing while it waits (R59, R60, R94): the setup, then each CTU from the moment that composition
has reported its columns, in turn; waits for composition and for band rows are not part of the bound. -/
def State.sliceDue (s : State) (t : Task) : Option Nat :=
  let c := s.chan t.ch
  let n := sliceCtus c.raster c.coding.codec
  let rep := c.reports t.frame t.row
  match s.stagedAt t with
  | none => none
  | some t0 =>
    if rep.length < min c.cols (t.col * n + n + 1) then none else
    let cost := if c.coding.codec = 0 then 5689 else 22756
    some (cdiv ((List.range n).foldl (fun (x : Nat) k => max x (rep.getD (min (c.cols - 1) (t.col * n + k + 1)) 0 * 3) + 2 * cost) (t0 * 3 + 2 * 1500)) 3)

/-- What an engine did of a slice that did not end well: CTUs completed, candidates clamped, lines loaded and CTUs coded intra are counted up
to where it stopped, which the spec does not say (free values within the whole slice's, log entry 92; R83, R107). -/
def State.engPartial (s : State) (e : Nat) (t : Task) : State :=
  let c := s.chan t.ch
  let n := sliceCtus c.raster c.coding.codec
  let lines := (sumOver (List.range n) fun k => fetchAt c.raster c.coding.codec (k = 0) (t.col * n + k)) * t.live.length
  let (a, s) := s.free
  let (b, s) := s.free
  let (w, s) := s.free
  let (k0, s) := s.free
  let (k1, s) := s.free
  let ctus := a % (n + 1)
  let s := (s.incWrap Reg.ENC_CTUCNT_COUNT ctus e).incWrap Reg.ENC_CLIPCNT_COUNT (b % (4 * t.live.length * n + 1)) e
  let s := (s.incWrap Reg.ENC_WINFILL_LINES (w % (lines + 1)) e).incWrap Reg.ENC_MISSCTU_COUNT (if t.allIntra && t.list ≠ [] then ctus else 0) e
  ((s.wr Reg.ENC_LASTSEARCH_CANDS0 (k0 % 5) e).wr Reg.ENC_LASTSEARCH_CANDS1 (k1 % 5) e).incWrap Reg.ENC_BANDWAIT_CYCLES (s.bandWait t) e

/-- An engine fails on its slice (R76, R81): EV_ENC_FAULT, self-test at once, and the slice is decided. A write error
also marks the picture MISSING (R104). -/
def State.engFault (s : State) (e cause : Nat) : State :=
  match (s.eng e).task with
  | none => s
  | some d =>
    let t := s.task d
    let s := (s.engPartial e t).engLeave e
    let s := s.setEng e { s.eng e with cmdTest := false }
    let s := ((s.engCount e cause t.ch t.row t.col).wr Reg.ENC_ENGSTAT_STATE 3 e).putSelftest e 0
    let s := s.ev (evEnc e 0) t.ch (cause + 256 * t.row) t.frame
    let s := if cause = 4 then (match s.curDesc t.ch t.frame with | some r => s.markMissing r 0 | none => s) else s
    let (re, s) := s.failSlice d e none
    (s.recover e re).maskCheck

/-- An uncorrectable cache error, a parity error or a write error, found while the engine runs a slice. -/
def execEngineFault (e : Fin 32) (cause : Nat) (s : State) : Host.Outcome State Fault Refusal :=
  finish (if s.fclk ∧ s.engSt e = 1 ∧ (cause = 1 ∨ cause = 2 ∨ cause = 4) then s.engFault e cause else s)

/-- The watchdog: the slice is unfinished 3,000 FCLK after its bound (R76). -/
def execSliceWatchdog (e : Fin 32) (s : State) : Host.Outcome State Fault Refusal :=
  finish (match (s.eng e).task with
    | some d => (match s.sliceDue (s.task d) with
      | some t => if t + 2000 ≤ s.ns ∧ s.engSt e = 1 then s.engFault e 3 else s
      | none => s)
    | none => s)

/-- A channel's parameter record failed its check at a task (R37, R198): two successive failures fault the channel. -/
def State.paramFail (s : State) (n : Nat) : State :=
  if (s.chan n).paramBad then s.faultChan n 1 else s.setChan n { s.chan n with paramBad := true }

/-- A slice fails for its input and its engine stays in service (R76): `line` is the address of a band line that failed (R95). -/
def State.failInput (s : State) (d e : Nat) (line : Option Nat) : State :=
  let t := s.task d
  let s := (s.engPartial e t).engIdle e
  let s := if line.isSome then (s.incSat Reg.REF_RECOVER_BANDFETCH).ev (evRef 3) else s
  if !s.live t.ch then s else
  let (re, s) := s.failSlice d e line
  s.recover e re

/-- A slice task fails for its input: a composed line uncorrectable (0), a band line (1), its parameter record (2), at a
store address. The engine stays in service. -/
def execSliceFailure (d : Fin 16384) (why : Fin 3) (addr kind : Nat) (s : State) : Host.Outcome State Fault Refusal :=
  finish (
    let t := s.task d
    if t.state ≠ 4 ∨ (t.kind ≠ kSlice ∧ t.kind ≠ kReencode) then s else
    match s.engOf d with
    | none => s
    | some e =>
      let s := s.lineFail (storeLine (addr / 64)) e kind
      let s := if why = 2 then s.paramFail t.ch else s
      s.failInput d e (if why = 1 then some (64 * (addr / 64 % 8388608)) else none))

/-- A deadline miss is logged, counted and reported (R224). -/
def State.missed (s : State) (d : Nat) : State :=
  let s := s.setTask d { s.task d with missed := true }
  ((s.trace 8 d (slack (s.task d).deadline s.ns)).incSat Reg.SPD_DLMISS_COUNT).ev (evSpd 2)

/-- Due: the deadline of a task that has not completed has passed. The steps of the row release that completes a commit end at most 2 µs after its deadline
(DEDUCED: log entry 99). -/
def State.lateTask (s : State) (d : Nat) : Bool :=
  let t := s.task d
  1 ≤ t.state && t.state ≤ 4 && !t.missed && !(decide (t.ch < 64) && s.chSt t.ch = 6) &&
    (match t.deadline with | some x => decide ((if t.kind = kCommit then x + 2000 else x) ≤ s.ns) | none => false)

/-- The encode deadline of a slice: it is stopped or withdrawn, and substituted (R78). -/
def execEncodeDeadline (d : Fin 16384) (s : State) : Host.Outcome State Fault Refusal :=
  finish (
    let t := s.task d
    if !s.lateTask d ∨ (t.kind ≠ kSlice ∧ t.kind ≠ kReencode) then s else
    let s := s.missed d
    let s := match s.engOf d with | some e => (s.engPartial e t).engIdle e | none => s
    s.substitute d)

/-- Any other task at its deadline goes on (R224). -/
def execTaskDeadlineMiss (d : Fin 16384) (s : State) : Host.Outcome State Fault Refusal :=
  finish (if !s.lateTask d ∨ (s.task d).kind = kSlice ∨ (s.task d).kind = kReencode then s else s.missed d)

/-! ### Self-test and service (R81, R82) -/

/-- An engine enters self-test, which the Spindle dispatches (R17, R81, R209). -/
def State.engTest (s : State) (e : Nat) (byCommand : Bool) (key : Nat) : State :=
  ((s.wr Reg.ENC_ENGSTAT_STATE 3 e).setEng e { s.eng e with cmdTest := byCommand, inKey := key }).putSelftest e 0

/-- A dispatched self-test ends: `stage` is 0 on pass. -/
def State.engTestEnd (s : State) (e stage : Nat) : State :=
    if s.engSt e ≠ 3 then s else
    let pass := stage = 0
    let s := ((s.wr Reg.ENC_TESTRES_DONE 1 e).wr Reg.ENC_TESTRES_PASS (bit pass) e).wr Reg.ENC_TESTRES_STAGE (min stage 6) e
    let s := if pass then s else (s.engCount e 16 255 0 0).ev (evEnc e 0) 255 16
    let x := s.eng e
    let back := pass ∧ x.outKeys = [] ∧ (x.cmdTest ∨ (s.rd Reg.ENC_ENGSTAT_AUTO_RETURN e = 1 ∧ s.recent e < 3))
    let s := s.setEng e { x with outKeys := [], inKey := 0, cmdTest := false }
    let st := if back then 0 else 4
    let s := (s.wr Reg.ENC_ENGSTAT_STATE st e).ev (evEnc e 1) 255 st
    let s := if pass then s.complete x.inKey stOk else s.complete x.inKey stAborted 16
    (x.outKeys.foldl (fun s k => s.complete k stOk) s).maskCheck

def execEngineSelftestEnd (e : Fin 32) (stage : Nat) (s : State) : Host.Outcome State Fault Refusal :=
  finish (match s.testOf e with
    | none => s
    | some d => (s.engTestEnd e stage).taskDone d)

/-- The lowest live channel that an engine's leave would strand (R82). An in-service engine with an OP_ENG_SERVICE out pending counts as gone already
(DESIGN CHOICE: the spec does not say; log entry 103). -/
def State.stranded (s : State) (e : Nat) : Option Nat :=
  (List.range 64).find? fun n => s.live n && (s.rd Reg.CHC_SLOTMASK_ACT_ENGINES n).testBit e &&
    !((List.range 32).any fun x => x ≠ e && (s.rd Reg.CHC_SLOTMASK_ACT_ENGINES n).testBit x && s.inService x && (s.eng x).outKeys = [])

def chkEngService : OpChk := fun s _ p =>
  let e := fld p 0 1
  orElse (firstBad [(31 < e, badAt 0), (1 < fld p 1 1, badAt 1), (1 < fld p 2 1, badAt 2), (nz p 3 5, badAt 3),
    (fld p 1 1 = 1 && s.engSt e ≠ 4, { status := stWrongState, detail := 0xFF })]) fun _ =>
  if fld p 1 1 = 1 ∨ !s.inService e then none else
  match s.stranded e with | some n => some { status := stRefused, detail := n } | none => none

def runEngService : OpRun := fun c p s =>
  let e := fld p 0 1
  if fld p 1 1 = 1 then ((s.wr Reg.ENC_ENGSTAT_AUTO_RETURN (fld p 2 1) e).engTest e true c.key, .later false)
  else match s.engSt e with
    | 4 => (s, .accDone stOk 0 0 0)
    | 0 => (s.engOut e, .accDone stOk 0 0 0)
    | _ => (s.setEng e { s.eng e with outKeys := (s.eng e).outKeys ++ [c.key] }, .later false)

def execOpEngService (h : Hdr) (p : Bytes) (s : State) : Host.Outcome State Fault Refusal :=
  finish (s.hostCmd (.opEngService h p) 0x0006 h p chkEngService runEngService)

/-! ### Dispatch to engines (R43, R74, R101, R215) -/

/-- The mask a slice goes by: the pending one for the first slice of a frame (R43). -/
def State.maskOf (s : State) (t : Task) : Nat :=
  if t.kind = kSlice ∧ (s.chan t.ch).maskFrame ≠ some t.frame then s.rd Reg.CHC_SLOTMASK_ENGINES t.ch
  else s.rd Reg.CHC_SLOTMASK_ACT_ENGINES t.ch

/-- An in-service engine of its mask that a slice may take: a re-encode goes to another engine than the one its slice failed on (R77). -/
def State.mayTake (s : State) (t : Task) (e : Nat) : Bool := (s.maskOf t).testBit e && s.inService e && t.avoid ≠ some e

/-- A bound task that waits for an engine. -/
def State.boundTo (s : State) (e : Nat) : Option Nat :=
  (s.spd.tasks.find? fun x => x.2.bound = some e && x.2.state = 3).map (·.1)

/-- When an engine is free: now, or after the bound of what it runs. -/
def State.engFree (s : State) (e : Nat) : Nat :=
  match (s.eng e).task with
  | some d => (s.task d).start + s.boundNs (s.task d).ch
  | none => s.ns

/-- The engine of a list that is free first, the lowest on a tie. -/
def soonest (free : Tab Nat) : List Nat → Option Nat
  | [] => none
  | e :: r => some (r.foldl (fun b x => if tget 0 free x < tget 0 free b then x else b) e)

/-- The order of R214 within a class: priority, deadline, GSEQ. -/
def taskBefore (a b : Task) : Bool :=
  decide (a.prio < b.prio) || (a.prio = b.prio && (match a.deadline, b.deadline with
    | some x, some y => decide (x < y) || (x = y && decide (a.gseq < b.gseq))
    | some _, none => true
    | none, some _ => false
    | none, none => decide (a.gseq < b.gseq)))

/-- Insertion by that order. -/
def insTask (s : State) (d : Nat) : List Nat → List Nat
  | [] => [d]
  | x :: r => if taskBefore (s.task d) (s.task x) then d :: x :: r else x :: insTask s d r

/-- READY tasks of a class in order. -/
def State.readyOf (s : State) (cls : Nat) : List Nat :=
  ((s.spd.tasks.filter fun e => e.2.state = 3 && e.2.cls = cls).map (·.1)).foldl (fun l d => insTask s d l) []

/-- The projected finish of a slice on the in-service engines of its mask (R215). -/
def State.project (s : State) (d : Nat) : Option Nat :=
  let t := s.task d
  let mine := (List.range 32).filter (s.mayTake t)
  let lay := (s.readyOf 0).filter fun x => (s.task x).bound = none && (mine.any (s.mayTake (s.task x)))
  let free0 : Tab Nat := mine.foldl (fun f e => tset 0 f e (s.engFree e)) []
  let (_, fin) := lay.foldl (fun (acc : Tab Nat × Option Nat) x =>
    match soonest acc.1 (mine.filter (s.mayTake (s.task x))) with
    | none => acc
    | some e =>
      let f := tget 0 acc.1 e + s.boundNs (s.task x).ch
      (tset 0 acc.1 e f, if x = d then some f else acc.2)) (free0, none)
  fin

/-- Bind a slice that would finish late to a stand-in (R74, R215). -/
def State.bindOne (s : State) (d : Nat) : State :=
  let t := s.task d
  let s := s.setTask d { t with proj := true }
  let mask := s.maskOf t
  if (List.range 32).all fun e => !mask.testBit e || s.mayTake t e then s else
  let late := match s.project d, t.deadline with
    | some f, some x => decide (x < f)
    | _, _ => true
  if !late then s else
  let out := (List.range 32).filter fun e => !mask.testBit e && s.inService e && t.avoid ≠ some e && (s.boundTo e).isNone
  let free : Tab Nat := out.foldl (fun f e => tset 0 f e (s.engFree e)) []
  match soonest free out with
  | none => s
  | some e =>
    let s := s.setTask d { s.task d with bound := some e, standin := true }
    ((s.incSat Reg.SPD_STANDIN_COUNT).ev (evSpd 3)).trace 9 d 0

/-- Project every slice that has become READY. -/
def State.bindStandins (s : State) : State :=
  ((s.readyOf 0).filter fun d => !(s.task d).proj).foldl State.bindOne s

/-- The engine a slice can take now: its stand-in, or the lowest idle engine of its mask that no bound task waits for. -/
def State.engineFor (s : State) (t : Task) : Option Nat :=
  match t.bound with
  | some e => if s.engSt e = 0 then some e else none
  | none => (List.range 32).find? fun e => s.mayTake t e && s.engSt e = 0 && (s.boundTo e).isNone

/-- The Spindle opens a unit's clock gate when it dispatches to it (R457); GATESTAT shows the engines'. -/
def State.openGate (s : State) (t : Nat) : State :=
  let s := { s with pcr := { s.pcr with gates := tset false s.pcr.gates t true } }
  if t < 32 then s.wr Reg.PCR_GATESTAT_ENGINES (s.rd Reg.PCR_GATESTAT_ENGINES ||| 2 ^ t) else s

/-- The first slice of a frame loads the mask (R43); a running channel whose new mask has no in-service engine faults (R37, R74). -/
def State.maskLoad (s : State) (d : Nat) : State :=
  let t := s.task d
  let n := t.ch
  if t.kind ≠ kSlice ∨ (s.chan n).maskFrame = some t.frame then s else
  ((s.wr Reg.CHC_SLOTMASK_ACT_ENGINES (s.rd Reg.CHC_SLOTMASK_ENGINES n) n).setChan n { s.chan n with maskFrame := some t.frame, pixPresent := s.pix n }).maskCheck

/-- A slice starts on an engine: the first of a picture begins it (R101), and it carries the marks of this moment (R105). Where those code every CTU intra, its
floor forms are intra and its cap covers them (R112). A band row that is not staged makes the engine wait, which is reported (R94). -/
def State.engStart (s : State) (d e : Nat) : State :=
  let s := s.maskLoad d
  let t := s.task d
  let n := t.ch
  if !s.live n then s else
  let s := s.beginPicture n t.frame
  let s := s.openGate e
  let intra := s.allIntra n t.frame
  let forms := if intra then t.rc.forms.map (fun _ => true) else t.rc.forms
  let s := s.setTask d { t with
    state := 4, target := e, start := s.ns, bound := none, allIntra := intra, list := s.listOf n t.frame, live := s.usable n t.frame,
    rc := { t.rc with forms }, cap := if intra then max t.cap (sliceFloor (s.chan n).coding.codec forms) else t.cap }
  let s := (s.setEng e { s.eng e with task := some d }).wr Reg.ENC_ENGSTAT_STATE 1 e
  let s := ((s.wr Reg.ENC_CURTASK_CHANNEL n e).wr Reg.ENC_CURTASK_ROW t.row e).wr Reg.ENC_CURTASK_COLUMN t.col e
  let s := (s.wr Reg.ENC_CURTASK_STANDIN (bit t.standin) e).wr Reg.ENC_CURFRAME_FRAME t.frame e
  if (s.stagedAt (s.task d)).isNone then s.ev (evRef 7) else s

/-! ### A coded slice (R73, R83, R107, R114, R119) -/

/-- FLAGS of a record: first or last of its access unit, parameter-set access unit (R69, R73). -/
def State.recFlags (s : State) (n frame row col : Nat) (first : Bool) : Nat :=
  let c := s.chan n
  let blank := frame = c.startFrame
  let last := !first && ((blank && row = 0) || (row + 1 = c.rows && col + 1 = sliceCols c.raster))
  bit first + 2 * bit last + 4 * bit (c.psUnit frame)

/-- A floor picture is counted and reported once, at its first slice that makes it one (R119). -/
def State.floorSlice (s : State) (n frame row col forced : Nat) (wholly : Bool) (cap floorCap : Nat) : State :=
  let s := s.incWrap Reg.CHC_FLOORCNT_CTUS forced n
  if forced = 0 ∧ !(wholly ∧ cap = floorCap) then s else
  let s := s.onSlot n frame row fun x => { x with floor := true }
  let c := s.chan n
  if c.rc.floorEv.contains frame then s else
  let s := s.setChan n { c with rc := { c.rc with floorEv := (c.rc.floorEv.filter (frame < · + 4)) ++ [frame] } }
  (s.incSat Reg.CHC_FLOORCNT_PICS 1 n).ev (evCh n 2) n (row + 65536 * col) frame

/-- The floor charge of a row's forms, for the test of R119. -/
def State.rowFloor (s : State) (n frame row : Nat) : Nat × Nat :=
  let c := s.chan n
  match c.rc.slots.find? fun x => x.frame = frame && x.row = row with
  | some x => (x.cap, floorRow c.coding.codec (sliceCols c.raster) x.forms)
  | none => (0, 1)

end Sys2Proof.Machine
end

