-- ==== Sys2Proof/Machine/EventRows.lean ====
section
/-! DEFINITION. The commands of the event unit: room in the ring, the AO records, and the clears of status bits and counters
(R444, R445, R448, R449). -/

namespace Sys2Proof.Machine

/-- Room appears in the event ring. -/
def execEventBacklogDrain (s : State) : Host.Outcome State Fault Refusal := finish (if s.fclk then s.drain else s)

/-- FCLK runs again. -/
def execAoRecordFlush (s : State) : Host.Outcome State Fault Refusal := finish (if s.fclk then s.aoFlush else s)

/-- Sources that occur, as (source, channel, DETAIL, AUX): a reserved one never does (R442). -/
def State.evAll (s : State) (l : List (Nat × Nat × Nat × Nat)) : State :=
  (l.filter fun e => evNamed e.1).foldl (fun s e => s.ev e.1 e.2.1 e.2.2.1 e.2.2.2) s

/-- A write of ones to a status word clears those bits. Sources of the word that occur in its cycle occur as they ever do, so their bits stay 1 (R444). -/
def execEvtStatClear (w : Fin 22) (bits : Nat) (hw : List (Nat × Nat × Nat × Nat)) (s : State) : Host.Outcome State Fault Refusal :=
  finish (
    let s := s.hostAccess Reg.EVT_STAT_BITS 0 w
    let old := s.rd Reg.EVT_STAT_BITS 0 w
    (s.wr Reg.EVT_STAT_BITS (old ^^^ (old &&& bits)) 0 w).evAll (hw.filter fun e => e.1 / 32 = w.val))

/-- The selected occurrence counter is cleared. -/
def State.occClear (s : State) : State :=
  if 691 < s.rd Reg.EVT_OCCSEL_SRC then s else { s with evt := { s.evt with occ := tset 0 s.evt.occ (s.rd Reg.EVT_OCCSEL_SRC) 0 } }

/-- A write of OCCCLR; an occurrence of the source in its cycle (channel, DETAIL, AUX) counts after it (R445). -/
def execOccclr (occ : Option (Nat × Nat × Nat)) (s : State) : Host.Outcome State Fault Refusal :=
  finish (
    let s := (s.hostAccess Reg.EVT_OCCCLR_CLEAR).occClear
    match occ with
    | some (c, d, a) => s.evAll [(s.rd Reg.EVT_OCCSEL_SRC, c, d, a)]
    | none => s)

end Sys2Proof.Machine
end

