-- ==== Sys2Proof/Machine/Queues.lean ====
section
/-! DEFINITION. Queue commands, doorbells, fetches, completion rings, barriers, command cores and mirrors
(R229 to R256, R263). -/

namespace Sys2Proof.Machine

/-! ### OP_NOP, OP_DEV_INFO -/

def runNop : OpRun := fun _ _ s => (s, ok2 0 0)

/-- OP_NOP: checked and replied ST_OK on any queue (R263). -/
def execOpNop (h : Hdr) (p : Bytes) (s : State) : Host.Outcome State Fault Refusal :=
  finish (s.hostCmd (.opNop h p) 0x0000 h p noChk runNop)

/-- Part 0x6480 and revision 0xA1; firmware and pair protocol version. -/
def runDevInfo : OpRun := fun _ _ s =>
  (s, ok2 (0x6480 + 0xA1 * 65536) (s.rd Reg.MGT_ACTVER_VERSION + s.actImg.ppv * 2 ^ 32))

def execOpDevInfo (h : Hdr) (p : Bytes) (s : State) : Host.Outcome State Fault Refusal :=
  finish (s.hostCmd (.opDevInfo h p) 0x0001 h p noChk runDevInfo)

/-! ### Queue creation, deletion, resume (R229, R230, R246) -/

/-- A queue exists. -/
def State.qExists (s : State) (q : Nat) : Bool := decide (s.rd Reg.HIF_QSTAT_ENABLED 0 q = 1)

/-- The QSTAT registers of a queue at their reset values, with ENABLED as given. -/
def State.qstatInit (s : State) (q en : Nat) : State :=
  ((((((s.wr Reg.HIF_QSTAT_HEAD 0 0 q).wr Reg.HIF_QSTAT_TAIL 0 0 q).wr Reg.HIF_QSTAT_CQTAIL 0 0 q).wr
    Reg.HIF_QSTAT_PHASE 1 0 q).wr Reg.HIF_QSTAT_HALTED 0 0 q).wr Reg.HIF_QSTAT_CQFULL 0 0 q).wr Reg.HIF_QSTAT_ENABLED en 0 q

/-- The commits on replies of a queue that were not posted are handed on: their commands have been interpreted (R242). -/
def State.handReplies (s : State) (q : Nat) : State :=
  (s.que q).replies.foldl (fun s r => r.commits.foldl State.handCommit s) s

/-- What was fetched of a queue and is not interpreted is gone, and the copies of its parameters with it. -/
def State.dropFetched (s : State) (q : Nat) : State :=
  let copies := (s.spd.tasks.filter fun e => decide (e.2.kind = kParamDma ∧ e.2.key % 128 = q ∧ e.2.state ≠ 0)).map (·.1)
  let s := (copies.foldl State.freeTask s).resetFlow (dmaFlow q)
  let s := { s with hif := { s.hif with dmaUse := s.hif.dmaUse.filter fun e => e.2.1 ≠ q } }
  s.setQue q { s.que q with fetched := [], held := none, snaps := [] }

/-- A queue comes into being. -/
def State.openQue (s : State) (q : Nat) (u : Que) : State :=
  let s := ((s.handReplies q).setQue q u).qstatInit q 1
  if q = 1 ∨ q = 66 then s
  else s.setFlow (blitFlow q) { s.flow (blitFlow q) with valid := true, window := 64, atomic := u.order }

def chkQueueCreate : OpChk := fun s _ p =>
  let q := fld p 0 1
  firstBad [
    (q < 2 || q > 66, badAt 0),
    (q ≠ 66 && (fld p 1 1 < 4 || fld p 1 1 > 16), badAt 1),
    (fld p 2 1 < 4 || fld p 2 1 > 16, badAt 2),
    (fld p 3 1 > 63, badAt 3),
    (fld p 4 1 > 1, badAt 4),
    (fld p 8 8 % 64 ≠ 0 || (q = 66 && nz p 8 8), badAt 8),
    (fld p 16 8 % 64 ≠ 0, badAt 16),
    (nz p 24 8, badAt 24),
    (s.qExists q, { status := stBusy, detail := 1 })]

def runQueueCreate : OpRun := fun _ p s =>
  (s.openQue (fld p 0 1)
    { sqlog2 := fld p 1 1, cqlog2 := fld p 2 1, vector := fld p 3 1, order := fld p 4 1 = 1, coalCount := fld p 5 1,
      coalUs := fld p 6 2, sqbase := fld p 8 8, cqbase := fld p 16 8 }, ok2 0 0)

def execOpQueueCreate (h : Hdr) (p : Bytes) (s : State) : Host.Outcome State Fault Refusal :=
  finish (s.hostCmd (.opQueueCreate h p) 0x0002 h p chkQueueCreate runQueueCreate)

def chkQueueDelete : OpChk := fun s _ p =>
  let q := fld p 0 1
  firstBad [(q < 2 || q > 66 || !s.qExists q || (s.que q).deleting.isSome, badAt 0), (nz p 1 7, badAt 1)]

/-- Fetching stops at the tail held now; the completion follows in QUEUE_DELETE_DONE. -/
def runQueueDelete : OpRun := fun c p s =>
  let q := fld p 0 1
  (s.setQue q { s.que q with deleting := some (c.key, (s.que q).tailAbs) }, .later false)

def execOpQueueDelete (h : Hdr) (p : Bytes) (s : State) : Host.Outcome State Fault Refusal :=
  finish (s.hostCmd (.opQueueDelete h p) 0x0003 h p chkQueueDelete runQueueDelete)

/-- A halted queue runs again; with FLUSH every command up to the present tail is to be aborted (R246). -/
def State.resumeQue (s : State) (q : Nat) (flush : Bool) : State :=
  if s.rd Reg.HIF_QSTAT_HALTED 0 q = 0 then s else
  let u := s.que q
  let s := (s.setQue q { u with flush := if flush then some u.tailAbs else u.flush }).wr Reg.HIF_QSTAT_HALTED 0 0 q
  if flush then s.abortBlits q else s

def chkQueueResume : OpChk := fun _ _ p =>
  let q := fld p 0 1
  firstBad [(q < 2 || q > 65, badAt 0), (fld p 1 1 > 1, badAt 1), (nz p 2 6, badAt 2)]

def runQueueResume : OpRun := fun _ p s => (s.resumeQue (fld p 0 1) (fld p 1 1 = 1), ok2 0 0)

def execOpQueueResume (h : Hdr) (p : Bytes) (s : State) : Host.Outcome State Fault Refusal :=
  finish (s.hostCmd (.opQueueResume h p) 0x0004 h p chkQueueResume runQueueResume)

/-- The end of a deletion: every command up to the tail has its final reply (R230). -/
def execQueueDeleteDone (q : Fin 67) (s : State) : Host.Outcome State Fault Refusal :=
  finish (
    let u := s.que q
    match u.deleting with
    | none => s
    | some (key, tail) =>
      if q.val ≠ 66 ∧ (u.headAbs < tail ∨ u.openPos ≠ [] ∨ u.replies ≠ [] ∨ u.outst ≠ []) then s
      else (((s.setQue q {}).qstatInit q 0)).complete key stOk)

/-! ### OP_BARRIER (R248) -/

def chkBarrier : OpChk := fun _ _ p =>
  firstBad [(fld p 0 16 / 2 ^ 67 ≠ 0, badAt 0), (fld p 16 4 = 0 || fld p 16 4 > 10000000, badAt 16), (nz p 20 4, badAt 20)]

def runBarrier : OpRun := fun _ p s => (s, .barrier (fld p 0 16) (fld p 16 4))

def execOpBarrier (h : Hdr) (p : Bytes) (s : State) : Host.Outcome State Fault Refusal :=
  finish (s.hostCmd (.opBarrier h p) 0x0005 h p chkBarrier runBarrier)

/-- Every command of a queue before a tail has its final reply. -/
def State.upTo (s : State) (q tail : Nat) : Bool :=
  !s.qExists q || (decide (tail ≤ (s.que q).headAbs) && (s.que q).openPos.all fun x => decide (tail ≤ x))

/-- Reply to the barrier a queue waits for. -/
def State.endBarrier (s : State) (q : Nat) (b : Barrier) (status : Nat) : State :=
  let hlt := status ≠ stOk ∧ b.flags % 2 = 1
  let s := s.setQue q { s.que q with barrier := none }
  let s := if hlt then s.halt q else s
  s.reply q (mkRply b.pos b.tag 0x0005 255 status 0 0 0 b.flags hlt [])

def execBarrierSatisfied (q : Fin 66) (s : State) : Host.Outcome State Fault Refusal :=
  finish (match (s.que q).barrier with
    | none => s
    | some b => if b.tails.all fun e => s.upTo e.1 e.2 then s.endBarrier q b stOk else s)

def execBarrierTimeout (q : Fin 66) (s : State) : Host.Outcome State Fault Refusal :=
  finish (match (s.que q).barrier with
    | none => s
    | some b => if s.ns < b.expiry then s else (s.ev (evHif 10)).endBarrier q b stTimeout)

/-! ### Doorbells (R231, R232, R234) -/

/-- A doorbell write is discarded (R232). -/
def State.badBell (s : State) : State := (s.incSat Reg.HIF_ERRCNT_DOORBELL).ev (evHif 4)

/-- The submission tail doorbell of a queue; BAR4 pages of reserved QIDs discard (R231), and so does DEV_BOOT (R514). -/
def execSubmissionTailDoorbell (qid v : Nat) (s : State) : Host.Outcome State Fault Refusal :=
  finish (
    let u := s.que qid
    let v := v % 2 ^ 32
    let size := if qid = 66 then 0 else 2 ^ u.sqlog2
    if s.dev = 0 ∨ 66 < qid then s
    else if !s.qExists qid ∨ u.deleting.isSome ∨ size ≤ v then s.badBell
    else
      let tail := s.rd Reg.HIF_QSTAT_TAIL 0 qid
      let head := s.rd Reg.HIF_QSTAT_HEAD 0 qid
      let adv := (v + size - tail) % size
      if adv = 0 then s
      else if size - 1 < (tail + size - head) % size + adv then s.badBell
      else
        let s := s.wr Reg.HIF_QSTAT_TAIL v 0 qid
        let s := s.setQue qid { u with tailAbs := u.tailAbs + adv }
        let snap := s.hif.ques.map fun e => (e.1, e.2.tailAbs)
        s.setQue qid { s.que qid with snaps := (s.que qid).snaps ++ [(u.tailAbs + adv, snap)] })

/-- The completion head doorbell: slots up to it are released; a full ring is released whole by a head equal to the
present tail. -/
def execCompletionHeadDoorbell (qid v : Nat) (s : State) : Host.Outcome State Fault Refusal :=
  finish (
    let u := s.que qid
    let v := v % 2 ^ 32
    if s.dev = 0 ∨ 66 < qid then s
    else if !s.qExists qid ∨ 2 ^ u.cqlog2 ≤ v then s.badBell
    else s.setQue qid { u with cqHead := v, cqUsed := (s.rd Reg.HIF_QSTAT_CQTAIL 0 qid + 2 ^ u.cqlog2 - v) % 2 ^ u.cqlog2 })

/-- Room appears on a full completion ring: the queue continues (R234). -/
def execCqRoom (q : Fin 66) (s : State) : Host.Outcome State Fault Refusal :=
  finish (if s.rd Reg.HIF_QSTAT_CQFULL 0 q = 1 ∧ s.ringRoom q then (s.wr Reg.HIF_QSTAT_CQFULL 0 0 q).post q else s)

/-- Room on the completion ring of EQ for one more reply. -/
def State.eqRoom (s : State) : Bool :=
  decide ((s.que 1).cqUsed + (s.que 1).fetched.length + (s.que 1).replies.length < 2 ^ (s.que 1).cqlog2)

/-- Room appears for the EQ reply whose fetch was held (R252). -/
def execEqCqRoom (s : State) : Host.Outcome State Fault Refusal :=
  finish (if (s.que 1).eqHeld ∧ s.eqRoom then s.setQue 1 { s.que 1 with eqHeld := false } else s)

/-! ### Fetching (R233, R235, R247) -/

/-- Slots of a command (R235); a PLEN above 4,064 consumes one. -/
def slotsOf (plen : Nat) : Nat := if plen > 4064 then 1 else cdiv (32 + plen) 64

/-- The device can fetch from a queue. -/
def State.canFetch (s : State) (q : Nat) : Bool :=
  s.dev ≠ 0 && s.fclk && s.qExists q && s.rd Reg.HIF_QSTAT_HALTED 0 q = 0

/-- The position fetching stops at. -/
def Que.limit (u : Que) : Nat := match u.deleting with | some (_, t) => t | none => u.tailAbs

/-- No parameter DMA channel. -/
def noDma : Nat × Nat := (255, 0)

/-- A command whose parameters a parameter DMA channel must copy (R235); one of EQ needs none (R252). -/
def needsDma (q plen : Nat) : Bool := decide (32 < plen) && decide (plen ≤ 4064) && q ≠ 1

/-- The first slot of a command as it is fetched, and the PARAM_DMA task of its copy. -/
def State.fetchSlot (s : State) (q : Nat) (slot : Bytes) : State :=
  let u := s.que q
  let plen := fld slot 6 2
  let k := slotsOf plen
  let need := needsDma q plen
  let f : Fetched := { pos := u.headAbs, slots := k, opcode := fld slot 0 2, flags := fld slot 2 1, channel := fld slot 3 1,
                       tag := fld slot 4 2, plen := plen, dma := bit need }
  let s := s.setQue q { u with headAbs := u.headAbs + k, fetched := u.fetched ++ [f], openPos := u.openPos ++ [u.headAbs],
                               snaps := u.snaps.filter fun e => decide (u.headAbs < e.1) }
  let s := s.cvuItem 957 slot (some (u.sqbase + 64 * s.rd Reg.HIF_QSTAT_HEAD 0 q)) none
  let s := s.wr Reg.HIF_QSTAT_HEAD ((s.rd Reg.HIF_QSTAT_HEAD 0 q + k) % 2 ^ u.sqlog2) 0 q
  if need then (s.poolPut { newTask kParamDma with flow := dmaFlow q, ch := 255, key := u.headAbs * 128 + q, param := plen - 32 }).2 else s

/-- Fetch a command whose last slot the doorbell covers. An EQ fetch with no room for its reply is held; a queue whose command's copy finds no descriptor
stalls (R222). -/
def execCommandFetch (q : Fin 66) (slot : Bytes) (s : State) : Host.Outcome State Fault Refusal :=
  finish (
    let u := s.que q
    let plen := fld slot 6 2
    let k := slotsOf plen
    if !s.canFetch q ∨ u.limit < u.headAbs + k ∨ u.eqHeld then s
    else if q.val = 1 ∧ !s.eqRoom then (s.setQue 1 { u with eqHeld := true }).ev (evHif 7)
    else
      if needsDma q plen ∧ s.genCount = 0 then s.stallBegin
      else s.fetchSlot q slot)

/-- A fetch fails: the queue halts and an entry with TAG 0 is posted (R247). EQ never halts (R246). -/
def execFetchFailure (q : Fin 66) (s : State) : Host.Outcome State Fault Refusal :=
  finish (
    let u := s.que q
    if !s.canFetch q ∨ u.limit ≤ u.headAbs then s else
    let hlt := q.val ≠ 1
    let s := (s.incSat Reg.HIF_ERRCNT_FETCH).ev (evHif 3)
    let s := if hlt then s.wr Reg.HIF_QSTAT_HALTED 1 0 q else s
    s.reply q { mkRply u.headAbs 0 0 255 stAborted 0x20 0 0 0 hlt [] with final := false })

/-- Mark a fetched command's parameter copy. -/
def markDma (l : List Fetched) (pos v : Nat) : List Fetched := l.map fun f => if f.pos = pos then { f with dma := v } else f

/-- The PARAM_DMA task that a channel runs. -/
def State.dmaTask (s : State) (d : Nat) : Option Nat :=
  (s.spd.tasks.find? fun e => decide (e.2.kind = kParamDma ∧ e.2.target = 104 + d ∧ e.2.state = 4)).map (·.1)

/-- A parameter copy ends, well or badly. A store line of it that was found uncorrectable is counted, recorded and reported, and the command is refused (R197,
R198). -/
def execParamDmaDone (d : Fin 8) (bad : Option (List (Nat × Nat))) (s : State) : Host.Outcome State Fault Refusal :=
  finish (
    let (q, pos) := tget noDma s.hif.dmaUse d
    if q = 255 then s else
    let s := s.setQue q { s.que q with fetched := markDma (s.que q).fetched pos (if bad = some [] then 0 else 3) }
    let s := (bad.getD []).foldl (fun s e => s.lineFail (storeLine (e.1 / 64)) 47 e.2) s
    let s := { s with hif := { s.hif with dmaUse := tset noDma s.hif.dmaUse d noDma } }
    match s.dmaTask d with
    | some t => ((s.incWrap Reg.CST_PORT_BYTES (s.task t).param 0 47).cvuOpaque (904 + d) (cdiv (s.task t).param 64)).taskDone t
    | none => s)

/-! ### Signalling (R243) -/

/-- COAL_US after the first unsignalled entry. -/
def Que.coalDue (u : Que) (now : Nat) : Bool := u.unsig ≠ 0 && decide (u.unsigAt + 1000 * u.coalUs ≤ now)

def execCoalesceTimeout (q : Fin 67) (s : State) : Host.Outcome State Fault Refusal :=
  finish (if (s.que q).coalDue s.ns then (s.setQue q { s.que q with unsig := 0 }).emit (.msix (s.que q).vector) else s)

/-! ### Command cores (R251) -/

/-- The command that a core was interpreting, the oldest fetched of queue `q`, is answered ST_INTERNAL. -/
def State.coreAnswer (s : State) (q detail : Nat) : State :=
  match (s.que q).fetched with
  | [] => s
  | f :: rest =>
    let hlt := f.flags % 2 = 1 ∧ q ≠ 1
    let s := s.setQue q { s.que q with fetched := rest }
    let s := if hlt then s.halt q else s
    s.reply q (mkRply f.pos f.tag f.opcode f.channel stInternal detail 0 0 f.flags hlt [])

/-- A command core receives an error response while it interprets a command (R419): of its queues, the lowest whose oldest fetched command is ready to interpret
(DEDUCED: log entry 110). -/
def State.coreError (s : State) (c : Nat) : State :=
  match (List.range 66).find? fun q => coreOf q = c && (match (s.que q).fetched with | f :: _ => f.dma = 0 | [] => false) with
  | some q => s.coreAnswer q 1
  | none => s

/-- A command core stops: EV_HIF_CORE_HALT; the command it was interpreting, the oldest fetched of queue `q`, is answered
ST_INTERNAL. The third restart within 60 s enters DEV_SAFE (R437, R438). -/
def execCommandCoreWatchdog (c : Fin 4) (q : Option (Fin 66)) (s : State) : Host.Outcome State Fault Refusal :=
  finish (
    if tget false s.hif.coreDown c then s else
    let s := (({ s with hif := { s.hif with coreDown := tset false s.hif.coreDown c true } }).incSat Reg.HIF_CORECNT_RESTARTS).ev (evHif 8)
    let recent := (s.hif.restarts ++ [(s.ns, c.val)]).filter fun e => decide (s.ns ≤ e.1 + 60000000000)
    let s := { s with hif := { s.hif with restarts := recent } }
    let s := match q with
      | none => s
      | some q => if coreOf q ≠ c then s else s.coreAnswer q 2
    if 3 ≤ recent.length then s.enterSafe 5 ((List.range 4).foldl (fun m i => if recent.any (·.2 = i) then m + 2 ^ i else m) 0) else s)

/-- The restart ends and the core's queues continue. -/
def execCommandCoreRestartDone (c : Fin 4) (s : State) : Host.Outcome State Fault Refusal :=
  finish ({ s with hif := { s.hif with coreDown := tset false s.hif.coreDown c false } })

/-! ### Mirrors (R256) -/

/-- The reply waits for the acknowledgement of a mirror. -/
def Rply.awaits (r : Rply) (seq : Nat) : Bool := match r.hold with | .ack k _ => k = seq | _ => false

/-- Release the reply that waits for a mirror; a reply delay begins then (R496). -/
def State.releaseAck (s : State) (seq : Nat) (un : Bool) : State :=
  s.forEach (keys s.hif.ques) fun s q =>
    let u := s.que q
    let hold : Hold := if 0 < s.replyDelay q then .until (s.ns + s.replyDelay q) else .none
    (s.setQue q { u with replies := u.replies.map fun r => if r.awaits seq then { r with hold, unmirrored := r.unmirrored || un } else r }).post q

/-- TAILSTOCK acknowledges a mirror: its reply is posted. -/
def execMirrorAck (seq _status : Nat) (s : State) : Host.Outcome State Fault Refusal := finish (s.releaseAck seq false)

/-- A reply has waited 150 µs for a mirror. -/
def State.ackLate (s : State) (seq : Nat) : Bool :=
  s.hif.ques.any fun e => e.2.replies.any fun r => match r.hold with | .ack k sent => k = seq && decide (sent + 150000 ≤ s.ns) | _ => false

/-- 150 µs without an acknowledgement: the reply is posted UNMIRRORED. -/
def execMirrorAckTimeout (seq : Nat) (s : State) : Host.Outcome State Fault Refusal :=
  finish (if s.ackLate seq then ((s.incSat Reg.HIF_PAIRCNT_UNACKED).ev (evHif 9)).releaseAck seq true else s)

/-! ### AQ and EQ control (R229, R257) -/

/-- AQ or EQ stops: it fetches and interprets no more, and replies and completions that it owes are still posted (R257;
DESIGN CHOICE: log entry 111). -/
def State.stopQue (s : State) (q : Nat) : State := (s.dropFetched q).wr Reg.HIF_QSTAT_ENABLED 0 0 q

/-- Write AQCTL.ENABLE or EQCTL.ENABLE: 1 creates the queue afresh, where its sizes are in range (R229; DEDUCED: log entry 111), 0 stops it. -/
def State.ctlEnable (s : State) (q : Nat) (v : Bool) : State :=
  let en := if q = 0 then Reg.HIF_AQCTL_ENABLE else Reg.HIF_EQCTL_ENABLE
  let sq := s.rd (if q = 0 then Reg.HIF_AQSIZE_SQLOG2 else Reg.HIF_EQSIZE_SQLOG2)
  let cq := s.rd (if q = 0 then Reg.HIF_AQSIZE_CQLOG2 else Reg.HIF_EQSIZE_CQLOG2)
  let hi := if q = 0 then 16 else 8
  if s.dev = 0 then s
  else if !v then (if s.rd en = 1 then (s.wr en 0).stopQue q else s)
  else if s.rd en = 1 ∨ sq < 4 ∨ hi < sq ∨ cq < 4 ∨ hi < cq then s
  else (s.wr en 1).openQue q
    { sqlog2 := sq, cqlog2 := cq, vector := s.rd (if q = 0 then Reg.HIF_AQSIZE_VECTOR else Reg.HIF_EQSIZE_VECTOR),
      order := q = 0 && s.rd Reg.HIF_AQSIZE_ORDER = 1,
      sqbase := s.rd (if q = 0 then Reg.HIF_AQSQBASE_ADDR else Reg.HIF_EQSQBASE_ADDR),
      cqbase := s.rd (if q = 0 then Reg.HIF_AQCQBASE_ADDR else Reg.HIF_EQCQBASE_ADDR) }

def execAqctlEnable (v : Bool) (s : State) : Host.Outcome State Fault Refusal :=
  finish (
    let s := s.hostAccess Reg.HIF_AQCTL_ENABLE
    s.ctlEnable 0 v)
def execEqctlEnable (v : Bool) (s : State) : Host.Outcome State Fault Refusal :=
  finish (
    let s := s.hostAccess Reg.HIF_EQCTL_ENABLE
    s.ctlEnable 1 v)

/-- AQCTL.RESUME, with FLUSH as written beside it (R246). -/
def execAqctlResume (flush : Bool) (s : State) : Host.Outcome State Fault Refusal :=
  finish (
    let s := s.hostAccess Reg.HIF_AQCTL_RESUME
    if s.dev = 0 then s else s.resumeQue 0 flush)

/-! ### Reply delay (R496) and reserved opcodes (R15) -/

/-- A delayed reply's time has come. -/
def execReplyDelayExpiry (q : Fin 66) (s : State) : Host.Outcome State Fault Refusal :=
  finish (
    let u := s.que q
    match u.replies with
    | [] => s
    | r :: rest =>
      match r.hold with
      | .until t => let s := s.at t
                    (s.setQue q { s.que q with replies := { r with hold := .none } :: rest }).post q
      | _ => s)

/-- A reserved opcode is refused at check 1 and never echoed. An assigned opcode is not this command. -/
def execReservedOpcodeCommand (opcode : Nat) (h : Hdr) (p : Bytes) (s : State) : Host.Outcome State Fault Refusal :=
  finish (if (opDef opcode).isSome then s else s.hostCmd (.reservedOpcodeCommand opcode h p) opcode h p noChk runNop)

end Sys2Proof.Machine
end

