-- ==== Sys2Proof/Machine/Input.lean ====
section
/-! DEFINITION. A frame arrives at a MAC and is sorted (R271 to R273, R278): to the time base, to the protocol firmware, or to
an input flow. -/

namespace Sys2Proof.Machine

/-- A received frame taken apart: where its IP or other payload starts, its EtherType, and the payload without FCS. -/
structure RxFrame where
  src : Nat
  o   : Nat
  typ : Nat
  p   : Bytes
deriving DecidableEq, Repr

/-- Take off one 802.1Q tag; a second tag is unsupported. -/
def untag (fr : Bytes) : Option RxFrame :=
  let t := nfld fr 12 2
  let o := if t = 0x8100 then 18 else 14
  let typ := nfld fr (o - 2) 2
  if t = 0x88A8 ∨ typ = 0x88A8 ∨ (o = 18 ∧ typ = 0x8100) then none
  else some { src := nfld fr 6 6, o, typ, p := (fr.drop o).take (fr.length - 4 - o) }

/-- An IP packet taken apart: source, destination, protocol, where its payload starts, and the payload. -/
structure RxIp where
  src   : Nat
  dst   : Nat
  proto : Nat
  o     : Nat
  hops  : Nat
  p     : Bytes
deriving DecidableEq, Repr

/-- IPv4: no options but before IGMP, no fragments (log entry 31). -/
def ipv4In (p : Bytes) : Option RxIp :=
  let hl := nfld p 0 1 % 16 * 4
  let len := nfld p 2 2
  let proto := nfld p 9 1
  if nfld p 0 1 / 16 ≠ 4 ∨ hl < 20 ∨ (hl ≠ 20 ∧ proto ≠ 2) ∨ nfld p 6 2 % 2 ^ 14 ≠ 0 ∨ p.length < len ∨ len < hl ∨ inetSum (p.take hl) ≠ 0 then none
  else some { src := 0xFFFF * 2 ^ 32 + nfld p 12 4, dst := 0xFFFF * 2 ^ 32 + nfld p 16 4, proto, o := hl, hops := nfld p 8 1,
              p := (p.drop hl).take (len - hl) }

/-- IPv6 extension headers and fragments. -/
def ip6Ext : List Nat := [0, 43, 44, 50, 51, 60, 135, 139, 140]

/-- IPv6: no extension headers but hop-by-hop options before ICMPv6 (log entry 31). -/
def ipv6In (p : Bytes) : Option RxIp :=
  let len := nfld p 4 2
  let nh := nfld p 6 1
  let hop := nh = 0 ∧ nfld p 40 1 = 58
  let o := if hop then 48 + 8 * nfld p 41 1 else 40
  if nfld p 0 1 / 16 ≠ 6 ∨ p.length < 40 + len ∨ (ip6Ext.contains nh ∧ !hop) ∨ 40 + len < o then none
  else some { src := nfld p 8 16, dst := nfld p 24 16, proto := if hop then 58 else nh, o, hops := nfld p 7 1, p := (p.drop o).take (40 + len - o) }

/-- The checksum over the pseudo-header of an IP payload is right. -/
def l4Good (ip : RxIp) : Bool :=
  let a := if isV4 ip.dst then toBe 4 ip.src ++ toBe 4 ip.dst ++ toBe 2 ip.proto ++ toBe 2 ip.p.length
    else toBe 16 ip.src ++ toBe 16 ip.dst ++ toBe 4 ip.p.length ++ toBe 4 ip.proto
  decide (inetSum (a ++ ip.p) = 0)

/-- A UDP form the device supports: a whole datagram, its checksum right, or zero on IPv4. -/
def udpGood (ip : RxIp) : Bool :=
  decide (8 ≤ ip.p.length) && decide (nfld ip.p 4 2 = ip.p.length) && (if nfld ip.p 6 2 = 0 then isV4 ip.dst else l4Good ip)

/-! ### Protocol firmware (R271 to R273) -/

/-- Learn or refresh a neighbour. -/
def State.learn (s : State) (m a mac : Nat) : State :=
  { s with inp := { s.inp with neigh := (s.inp.neigh.filter fun e => !(e.1 = m && e.2.1 = a)) ++ [(m, a, mac)] } }

/-- A frame of the firmware leaves a MAC. -/
def State.fwFrame (s : State) (m dst typ : Nat) (body : Bytes) : State :=
  (s.emit (.frame m s.ns (etherFrame dst (s.macAddr m) typ body))).incWrap Reg.NET_TXFRAMES_COUNT 1 (m / 4) (m % 4)

/-- ARP: a packet for the MAC's address teaches its sender, and a request is answered. -/
def State.arpIn (s : State) (m : Nat) (p : Bytes) : State :=
  let sha := nfld p 8 6
  let spa := nfld p 14 4
  let tpa := nfld p 24 4
  if p.length < 28 ∨ nfld p 0 2 ≠ 1 ∨ nfld p 2 2 ≠ 0x0800 ∨ s.ip4 m = 0 ∨ tpa ≠ s.ip4 m then s else
  let s := if spa = 0 then s else s.learn m (0xFFFF * 2 ^ 32 + spa) sha
  if nfld p 6 2 = 1 then s.fwFrame m sha 0x0806 (arpBody 2 (s.macAddr m) (s.ip4 m) sha spa) else s

/-- Both IPv6 addresses of a MAC. -/
def State.ownIp6 (s : State) (m a : Nat) : Bool := (s.ip6 m ≠ 0 && a = s.ip6 m) || a = s.linkLocal m

/-- The link-layer address option of a type in neighbour-discovery options. -/
def ndOption : Nat → Nat → Bytes → Option Nat
  | 0, _, _ => none
  | n + 1, t, p =>
    if p.length < 8 ∨ nfld p 1 1 = 0 then none
    else if nfld p 0 1 = t then some (nfld p 2 6)
    else ndOption n t (p.drop (8 * nfld p 1 1))

/-- Membership reports of a MAC's copies, for every group (0) or one (R273); the first query after link-up is an event. -/
def State.queryIn (s : State) (m : Nat) (v4 : Bool) (group : Nat) : State :=
  let s := if tget false s.inp.query m then s
    else ({ s with inp := { s.inp with query := tset false s.inp.query m true } }).ev (evNet (m / 4) 7)
  let net := netOf m
  s.copies.foldl (fun s c =>
    match s.flowIn c.1 with
    | some x =>
      if c.2 = net ∧ s.rd (joinRow net) c.1 = m ∧ isV4 (x.group net) = v4 ∧ (group = 0 ∨ x.group net = group) ∧ s.canReport x net m
      then s.emit (.join m c.1 false) else s
    | none => s) s

/-- ICMPv6: echo, neighbour discovery, router advertisements, membership queries. -/
def State.icmp6In (s : State) (m ethSrc : Nat) (ip : RxIp) : State :=
  let p := ip.p
  let typ := nfld p 0 1
  let ours := s.ownIp6 m ip.dst
  if !l4Good ip then s
  else if typ = 128 then
    if ours then s.fwFrame m ethSrc 0x86DD (icmp6 ip.dst ip.src (Config.freeValue 4 % 256) ([129, 0, 0, 0] ++ p.drop 4)) else s
  else if typ = 130 then s.queryIn m false (nfld p 8 16)
  else if ip.hops ≠ 255 then s
  else if typ = 135 then
    let target := nfld p 8 16
    if p.length < 24 ∨ !s.ownIp6 m target then s else
    let s := match (if ip.src = 0 then none else ndOption 8 1 (p.drop 24)) with | some a => s.learn m ip.src a | none => s
    let dst := if ip.src = 0 then 0xFF02 * 2 ^ 112 + 1 else ip.src
    let fl := if ip.src = 0 then 0x20 else 0x60
    s.fwFrame m (if ip.src = 0 then groupMac dst else ethSrc) 0x86DD
      (icmp6 target dst 255 ([136, 0, 0, 0] ++ toBe 1 fl ++ [0, 0, 0] ++ toBe 16 target ++ [2, 1] ++ toBe 6 (s.macAddr m)))
  else if typ = 136 then
    if p.length < 24 then s else s.learn m (nfld p 8 16) ((ndOption 8 2 (p.drop 24)).getD ethSrc)
  else if typ = 134 then
    if nfld p 6 2 = 0 then (if tget 0 s.inp.router m = ip.src then { s with inp := { s.inp with router := tset 0 s.inp.router m 0 } } else s)
    else
      let s := { s with inp := { s.inp with router := tset 0 s.inp.router m ip.src } }
      s.learn m ip.src ((ndOption 8 1 (p.drop 16)).getD ethSrc)
  else s

/-- ICMP echo for the MAC's IPv4 address. -/
def State.icmpIn (s : State) (m ethSrc : Nat) (ip : RxIp) : State :=
  if nfld ip.p 0 1 ≠ 8 ∨ s.ip4 m = 0 ∨ ip.dst ≠ 0xFFFF * 2 ^ 32 + s.ip4 m ∨ inetSum ip.p ≠ 0 then s else
  let msg := [0, 0] ++ toBe 2 (inetSum ([0, 0, 0, 0] ++ ip.p.drop 4)) ++ ip.p.drop 4
  let ih (c : Nat) := [0x45] ++ toBe 1 (Config.freeValue 5 % 64 * 4) ++ toBe 2 (20 + msg.length) ++ toBe 2 0 ++ toBe 2 0x4000 ++
    toBe 1 (Config.freeValue 4 % 256) ++ [1] ++ toBe 2 c ++ toBe 4 (s.ip4 m) ++ toBe 4 ip.src
  s.fwFrame m ethSrc 0x0800 (ih (inetSum (ih 0)) ++ msg)

/-- The firmware takes at most 10,000 frames a second of a MAC; what is over is dropped. -/
def State.firmware (s : State) (m : Nat) (act : State → State) : State :=
  let (sec, n) := tget (0, 0) s.inp.ctrl m
  let n := if sec = s.sec then n else 0
  if 10000 ≤ n then s.incWrap Reg.NET_CTRLDROP_COUNT 1 (m / 4) (m % 4)
  else act { s with inp := { s.inp with ctrl := tset (0, 0) s.inp.ctrl m (s.sec, n + 1) } }

/-! ### Flows (R272, R278) -/

/-- The flow whose copy on a network a UDP datagram belongs to. -/
def State.flowFor (s : State) (net src dst dport : Nat) : Option Nat :=
  (s.inp.flows.find? fun e => match e.2 with
    | some x => x.nets.testBit net && x.group net = dst && x.dport net = dport && (x.src net = 0 || x.src net = src)
    | none => false).map (·.1)

/-- A datagram of a flow is metered, then merged. -/
def State.flowPkt (s : State) (f net bytes : Nat) (rtp : Bytes) (w ch rate : Nat) : State :=
  match s.flowIn f with
  | none => s
  | some x =>
    let was := (s.meter x.meter).red
    let (c, s) := s.colour x.meter net bytes
    if c = 2 then (if (s.meter x.meter).red = was then s else s.inpEv 8 f) else s.rtpIn f net rtp w ch rate

/-- The rows of R272 after the first, on a frame of good form. -/
def State.sortFrame (s : State) (m t : Nat) (fr : Bytes) (x : RxFrame) (w ch rate : Nat) : State :=
  let bad (s : State) : State := s.incWrap Reg.NET_BADFRAME_COUNT 1 (m / 4) (m % 4)
  let none_ (s : State) : State := s.incWrap Reg.NET_NOMATCH_COUNT 1 (m / 4) (m % 4)
  if x.typ = 0x88F7 then (s.tcForward m x.o 0 fr).ptpIn m t 0 x.p
  else if x.typ = 0x0806 then s.firmware m fun s => s.arpIn m x.p
  else if x.typ ≠ 0x0800 ∧ x.typ ≠ 0x86DD then none_ s
  else
    match (if x.typ = 0x0800 then ipv4In x.p else ipv6In x.p) with
    | none => bad s
    | some ip =>
      if ip.proto = 17 then
        if !udpGood ip then bad s else
        let port := nfld ip.p 2 2
        if port = 319 ∨ port = 320 then
          (s.tcForward m (x.o + ip.o + 8) (if x.typ = 0x0800 then 4 else 6) fr).ptpIn m t ip.dst (ip.p.drop 8)
        else match s.flowFor (netOf m) ip.src ip.dst port with
          | some f => s.flowPkt f (netOf m) fr.length (ip.p.drop 8) w ch rate
          | none => none_ s
      else if x.typ = 0x0800 ∧ ip.proto = 1 then s.firmware m fun s => s.icmpIn m x.src ip
      else if x.typ = 0x0800 ∧ ip.proto = 2 then
        s.firmware m fun s => if nfld ip.p 0 1 = 0x11 ∧ inetSum ip.p = 0 then s.queryIn m true (let g := nfld ip.p 4 4; if g = 0 then 0 else 0xFFFF * 2 ^ 32 + g) else s
      else if x.typ = 0x86DD ∧ ip.proto = 58 then s.firmware m fun s => s.icmp6In m x.src ip
      else none_ s

/-- A MAC that is up receives a frame: `fr` runs from destination address through FCS. -/
def execFrameReceive (m : Fin 16) (t : Nat) (fr : Bytes) (w ch rate : Nat) (s : State) : Host.Outcome State Fault Refusal :=
  finish (
    if !s.macUp m ∨ !s.fclk then s else
    let s := s.atU t
    let s := (s.incWrap Reg.NET_RXFRAMES_COUNT 1 (m / 4) (m % 4)).incWrap Reg.NET_RXBYTES_COUNT fr.length (m / 4) (m % 4)
    let n := fr.length
    if n < 64 ∨ 9216 < n ∨ crc32 (fr.take (n - 4)) ≠ fld fr (n - 4) 4 then s.incWrap Reg.NET_FCSERR_COUNT 1 (m / 4) (m % 4)
    else match untag fr with
      | none => s.incWrap Reg.NET_BADFRAME_COUNT 1 (m / 4) (m % 4)
      | some x => s.sortFrame m t fr x w ch rate)

end Sys2Proof.Machine
end

