-- ==== Sys2Proof/Machine/Rows.lean ====
section
/-! DEFINITION. The row sequencer: row slots, row release, the end of a channel's last picture, protected windows and
descriptor errors (R58, R67, R94, R206, R212, R221, R223, R384, R516). -/

namespace Sys2Proof.Machine

/-! ### Building a row slot (R212) -/

/-- What the band fills of a row slot stage: the picture and the row, rows 0 to a of the next picture for the last row slot (R94); nothing for the blank
picture's slots, past the picture's rows, or past the last picture. -/
def Chan.fillsOf (c : Chan) (frame row : Nat) : Option (Nat × Nat) :=
  let last := row + 1 = c.rows
  let target := if last then frame + 1 else frame
  let k := if last then 0 else row + 256 / ctuH c.coding.codec + 1
  let past : Bool := match c.lastPic with | some l => decide (l < target) | none => false
  if frame = c.startFrame ∨ past ∨ c.rows ≤ k then none else some (target, k)

/-- The picture that a fill reads is named at its release; until then its task holds this. -/
def noRef : Nat := 1024

/-- The tasks of a row slot that wait in the delay lists; each waits for its row release as well. The blank picture has
the HEADER alone (R67). -/
def State.buildSlot (s : State) (n frame row : Nat) : State :=
  let c := s.chan n
  let release := cdiv (s.boundaryNs n frame row) 1000
  let base (k : Nat) : Task := { newTask k with
    flow := n, ch := n, frame, row, release, dep := 1, deadline := some (s.encNs n frame row) }
  let s := if frame = c.startFrame then s else
    let (q, s) := s.nextFseq (0x40 + n)
    let s := s.slabPut n { base kCompose with flow := 0x40 + n, fseq := q }
    (List.range (sliceCols c.raster)).foldl (fun s col =>
      let (q, s) := s.nextFseq n
      s.slabPut n { base kSlice with col, fseq := q, dep := if row = 0 ∧ col = 0 then 2 else 1 }) s
  let s := match c.fillsOf frame row with
    | none => s
    | some (target, k) =>
      let next := if row + 1 = c.rows then s.boundaryNs n (frame + 1) 0 else s.boundaryNs n frame (row + 1)
      (List.range c.refs).foldl (fun s pos =>
        s.slabPut n { base kBandFill with frame := target, row := k, col := pos, param := noRef, deadline := some (1000 * cdiv next 1000) }) s
  if row ≠ 0 then s else
  let first := s.slab n fun t => t.kind = kSlice && t.frame = frame && t.row = 0 && t.col = 0
  s.slabPut n { base kHeader with succ := first, deadline := some (s.packNs n frame row) }

/-- Tasks of a kind of a row slot. -/
def State.slotTasks (s : State) (n k frame row : Nat) : List Nat := s.slab n fun t => t.kind = k && t.frame = frame && t.row = row

/-! ### Steps of a row release -/

/-- The header unit knows the prefix record of a picture from the release of its row 0, which fixes its sweeps (R68, R115). Answers its length. -/
def State.setPfx (s : State) (n frame : Nat) : Nat × State :=
  let p := s.prefixNal n frame
  (p.length, s.setChan n { s.chan n with pfx := tset [] (s.chan n).pfx frame p })

/-- The rate-control state that a partner's record gives a row slot (R384). -/
def RcSt.follow (st : RcSt) (frame row cap qp : Nat) (floor : List Bool) (units : List Nat) : Option RcSt → RcSt
  | some x => x
  | none => { st with slots := st.slots.map fun x => if x.frame = frame ∧ x.row = row then { x with cap, qp, forms := floor } else x,
                      units, lastQp := qp, lastCap := cap }

/-- A record's state in place of the channel's own; at row 0 the prefix record follows it while the header unit has not written it. -/
def State.takeRcrec (s : State) (n frame row cap qp : Nat) (floor : List Bool) (units : List Nat) (rc : Option RcSt) : State :=
  let s := s.setRc n ((s.chan n).rc.follow frame row cap qp floor units rc)
  if row = 0 ∧ s.slotTasks n kHeader frame 0 ≠ [] then (s.setPfx n frame).2 else s

/-- The rate-control step, or what a followed partner sent (R384). Answers the plan, and whether the slices wait for the
record. -/
def State.planRow (s : State) (n frame row pfx : Nat) : RowPlan × Bool × State :=
  let (p, s) := s.ratePlan n frame row pfx
  if !(s.chan n).follow then (p, false, s) else
  match s.pair.rcrecs.find? fun r => match r with | .rcrec ch f k .. => ch = n && f = frame && k = row | _ => false with
  | some (.rcrec ch f k cap qp floor units cv rc) =>
    let s := s.setPair { s.pair with rcrecs := s.pair.rcrecs.erase (.rcrec ch f k cap qp floor units cv rc) }
    ({ cap, qp, forms := floor }, false, s.takeRcrec n frame row cap qp floor units rc)
  | _ => (p, s.role = 3 && frame ≠ (s.chan n).startFrame, s)

/-- The slices of a row take what rate control gives them, and go on (steps 3 and 4); the parameter record of each passes its check value unit (R426). -/
def State.gateSlices (s : State) (n frame row : Nat) (p : RowPlan) : State :=
  let c := s.chan n
  let ns := sliceCols c.raster
  let ds := s.slotTasks n kSlice frame row
  let s := s.cvuOpaque (960 + n) ds.length
  let s := if row + 1 = c.rows ∧ ds ≠ [] then s.cvuEnd (960 + n) else s
  ds.foldl (fun s d =>
    let t := s.task d
    (s.setTask d { t with cap := sliceCap c.coding.codec ns t.col p, qp := p.qp,
                          rc := { set := c.rc.set, forms := sliceForms ns t.col p.forms, units := c.rc.units, sweeps := c.rc.sweeps } }).decDep d) s

/-- The composition task of a row takes its settings, and goes on (R22, step 4). -/
def State.gateCompose (s : State) (n frame row : Nat) : State :=
  let snap := s.snapOf n
  (s.slotTasks n kCompose frame row).foldl (fun s d => (s.setTask d { s.task d with snap := some snap }).decDep d) s

/-- The band fills of a row slot go on (step 5): each reads the picture that its list position holds. A position that holds none, a MISSING picture or the blank
one, whose samples are constant, stages nothing. A fill waits for a reconstruction copy of what it stages (R79). -/
def State.gateFills (s : State) (n frame row : Nat) : State :=
  match (s.chan n).fillsOf frame row with
  | none => s
  | some (target, k) =>
    (s.slab n fun t => t.kind = kBandFill && t.frame = target && t.row = k && t.param = noRef).foldl (fun s d =>
      match (s.listOf n target)[(s.task d).col]? with
      | none => s.freeTask d
      | some r =>
        if (s.ref r).mark = mkMissing ∨ (s.ref r).const then s.freeTask d else
        let copies := s.slab n fun t => t.kind = kReconCopy && t.frame = (s.ref r).frame &&
          (t.row = k || (k = 0 && decide (t.row ≤ 256 / ctuH (s.chan n).coding.codec)))
        ((s.setTask d { s.task d with param := r }).precede copies d).decDep d) s

/-- PACK waits for the slices of its row, for the prefix record at row 0, and for the PACK before it (step 7, R297). -/
def State.makePack (s : State) (n frame row : Nat) : State :=
  match s.slabFree n with
  | [] => s
  | d :: _ =>
    let head := if row = 0 then s.slotTasks n kHeader frame row else []
    let prev := s.slab n fun t => t.kind = kPack
    let ended := s.slab n fun t => (t.kind = kReencode || t.kind = kSubst) && t.frame = frame && t.row = row
    let before := s.slotTasks n kSlice frame row ++ ended ++ head ++ prev
    let s := s.putTask d { newTask kPack with flow := n, ch := n, frame, row, release := cdiv (s.boundaryNs n frame row) 1000,
                                              deadline := some (s.packNs n frame row) }
    s.precede before d

/-- The next row slot of a channel. -/
def Chan.after (c : Chan) (frame row : Nat) : Nat × Nat := if row + 1 < c.rows then (frame, row + 1) else (frame + 1, 0)

/-- HEADSTOCK sends its record of the row slot (R384). -/
def State.sendRcrec (s : State) (n frame row : Nat) (p : RowPlan) : State :=
  if s.role ≠ 1 then s else
  let st := (s.chan n).rc
  let conv := match st.newest with | some w => w.conv && w.start = frame | none => false
  s.linkSend 2 (.rcrec n frame row p.cap p.qp p.forms st.units conv (if row = 0 then some st else none))

/-- Steps 1 to 3 of the release of a row: the emergency selection (R56; the blank picture composes no row), the commits, at row 0 the frame boundary, and the
rate-control step, with the emergency cap of a new selection (R128) and at row 0 the prefix record. -/
def State.rowSteps (s : State) (n f r : Nat) : RowPlan × Bool × State :=
  let (on, s) := if f = (s.chan n).startFrame then (false, s) else s.emApply n f r
  let s := s.applyDue n f r
  let s := if r = 0 then s.frameBoundary n f else s
  let s := s.rateLatch n f r
  let s := if on then s.setRc n ((s.chan n).rc.emSwitch (s.chan n).rc.set f) else s
  let (pfx, s) := if r = 0 then s.setPfx n f else (0, s)
  s.planRow n f r pfx

/-- The next row slot becomes current, and the one after it is built (R212). -/
def State.advance (s : State) (n f r : Nat) : State :=
  let (f', r') := (s.chan n).after f r
  let s := s.setChan n { s.chan n with nextFrame := f', nextRow := r' }
  let past : Bool := match (s.chan n).lastPic with | some l => decide (l < f') | none => false
  if past then s else s.buildSlot n f' r'

/-- The release of the next row slot of a channel, once its tick has come. -/
def State.releaseRow (s : State) (n : Nat) : State :=
  let f := (s.chan n).nextFrame
  let r := (s.chan n).nextRow
  let (p, wait, s) := s.rowSteps n f r
  let s := if s.role ≠ 3 ∧ r = 0 ∧ (s.chan n).follow then s.setFollow n false else s
  let s := s.gateCompose n f r
  let s := if wait then s.setChan n { s.chan n with rcWait := some (f, r) } else s.gateSlices n f r p
  let s := s.gateFills n f r
  let s := if r = 0 then (s.slotTasks n kHeader f r).foldl State.decDep (s.wr Reg.CHC_FRAMECNT_COUNT (f + 1) n) else s
  ((s.makePack n f r).sendRcrec n f r p).advance n f r

/-- The tick of a channel's next row slot has come, and the channel still runs to it. -/
def State.rowDue (s : State) (n : Nat) : Bool :=
  let c := s.chan n
  let past : Bool := match c.lastPic with | some l => decide (l < c.nextFrame) | none => false
  s.live n && s.fclk && !past && decide (cdiv (s.boundaryNs n c.nextFrame c.nextRow) 1000 ≤ s.tick)

/-- The release of a row slot, at its tick. -/
def execRowRelease (n : Fin 64) (t : Nat) (s : State) : Host.Outcome State Fault Refusal :=
  finish (
    let s := s.at t
    if s.rowDue n then s.releaseRow n else s)

/-! ### Sweeps and the emergency period by the clock (R121, R125, R129) -/

/-- The rate settings in force in picture `frame`: the active ones, with the commits due at its row 0. -/
def State.setAt (s : State) (n frame : Nat) : RcSet :=
  ((s.chan n).dueCommits frame 0).foldl (fun v x => match x.kind with
    | .rate mr em tq lo hi dqp sl ofs => { v with maxrate := mr, emcap := em, tq := tq, qmin := lo, qmax := hi, dqp := dqp, slack := sl, ofs := ofTwos 4 ofs }
    | .refresh mode per => { v with mode := mode, period := per }
    | _ => v) (s.rcSet n)

/-- A step of rate control at the start of the next picture, before the release of its row 0, with that picture's settings. The release finds it done. -/
def State.atPicture (s : State) (n : Nat) (f : RcSt → Nat → RcSt) : State :=
  let c := s.chan n
  if !s.rowDue n ∨ c.nextRow ≠ 0 ∨ c.nextFrame ≤ c.startFrame + 1 ∨ c.follow then s else
  s.setRc n { f { c.rc with set := s.setAt n c.nextFrame } c.nextFrame with set := c.rc.set }

/-- A periodic start falls due: a sweep begins, or is held while two run (R121). -/
def execSweepPeriodicStart (n : Fin 64) (s : State) : Host.Outcome State Fault Refusal :=
  finish (s.atPicture n fun st f =>
    let c := s.chan n
    if st.req then st else st.turn c.rows c.cols f false)

/-- The older sweep has ended: the held request begins its sweep (R125). -/
def execHeldSweepBegin (n : Fin 64) (s : State) : Host.Outcome State Fault Refusal :=
  finish (s.atPicture n fun st f =>
    let c := s.chan n
    if st.heldTo.isSome then st.turn c.rows c.cols f false else st)

/-- P pictures after the switch, the return phase begins (R128, R129). -/
def execEmergencyPeriodEnd (n : Fin 64) (s : State) : Host.Outcome State Fault Refusal :=
  finish (s.atPicture n RcSt.emTurn)

/-! ### Following (R384) -/

/-- The plan of a slot as the channel's own state holds it. -/
def State.ownPlan (s : State) (n frame row : Nat) : RowPlan :=
  match (s.chan n).rc.slots.find? fun x => x.frame = frame && x.row = row with
  | some x => { cap := x.cap, qp := x.qp, forms := x.forms }
  | none => { cap := 0, qp := 0, forms := [] }

/-- A record of the partner's arrives: kept for its slot, or used by the slot that waits for it. -/
def State.rcrecIn (s : State) (r : LRec) : State :=
  match r with
  | .rcrec n f k cap qp floor units _ rc =>
    if s.role ≠ 3 ∧ !(s.chan n).follow then s else
    let c := s.chan n
    if c.rcWait = some (f, k) then
      ((s.setChan n { c with rcWait := none }).takeRcrec n f k cap qp floor units rc).gateSlices n f k { cap, qp, forms := floor }
    else if rowLt (f, k) (c.nextFrame, c.nextRow) then s
    else s.setPair { s.pair with rcrecs := s.pair.rcrecs ++ [r] }
  | _ => s

/-- The record has not come 20 µs after the release: the slot uses its own step (R384). -/
def execRcrecWaitExpiry (n : Fin 64) (s : State) : Host.Outcome State Fault Refusal :=
  finish (
    let c := s.chan n
    match c.rcWait with
    | none => s
    | some (f, k) =>
      if s.ns < s.boundaryNs n f k + 20000 then s else
      ((s.setChan n { c with rcWait := none }).incSat Reg.PAIR_RCWAIT_COUNT).gateSlices n f k (s.ownPlan n f k))

/-! ### The last picture (R36, R516) -/

/-- The last picture of a draining channel has ended: it is packed and every frame of its units has been released. -/
def State.lastEnded (s : State) (n : Nat) : Bool :=
  let c := s.chan n
  s.chSt n = 4 && (match c.lastPic, c.packed with
    | some l, some p => decide (l ≤ p)
    | _, _ => false) &&
  ((s.prog n).isNone || [4 * n, 4 * n + 1, 4 * n + 2, 4 * n + 3].all fun i => (s.shp i).queue.isEmpty)

/-- The channel stops. Commits whose rows no longer come apply now (log entry 24). A slot mask that no first slice has copied stays pending, and SLOTMASK_ACT keeps
the old one (DESIGN CHOICE: log entry 102). -/
def State.stopChan (s : State) (n : Nat) : State :=
  let c := s.chan n
  let s := s.applyDue n (c.nextFrame + 2 ^ 46) 0
  let s := s.setChan n { s.chan n with lastPic := none, composed := [], bands := [], pfx := [], substs := [], rcWait := none }
  ((s.setChSt n 5 (s.rd Reg.CHC_FRAMECNT_COUNT n)).flowBoundary n).coefSettle

def execLastPictureEnd (n : Fin 64) (s : State) : Host.Outcome State Fault Refusal :=
  finish (if s.lastEnded n then s.stopChan n else s)

/-! ### Protected windows (R221) -/

/-- A task that reads or writes DRAM. -/
def State.dramTask (s : State) (t : Task) : Bool :=
  t.kind = kSlice || t.kind = kReencode || t.kind = kBandFill || t.kind = kBandRefetch ||
    (t.kind = kCompose && ((s.cache t.ch).valid || (List.range 4).any fun k =>
      match (s.layer (4 * t.ch + k)).bnd with | some b => (s.layer (4 * t.ch + k)).act.enable && b.fmt ≠ 6 && decide (Config.dramBase ≤ b.base) | none => false))

/-- The row deadlines of incomplete DRAM tasks, in ns. -/
def State.dramDeadlines (s : State) : List Nat :=
  (s.spd.tasks.filter fun e => 1 ≤ e.2.state && e.2.state ≤ 4 && s.dramTask e.2).filterMap fun e => e.2.deadline

def State.protLead (s : State) : Nat := s.rd Reg.SPD_PROTCTL_LEAD * 1000
def State.protTail (s : State) : Nat := s.rd Reg.SPD_PROTCTL_TAIL * 1000
def State.protMax (s : State) : Nat := s.rd Reg.SPD_PROTCTL_MAX * 1000
def State.protGap (s : State) : Nat := s.rd Reg.SPD_PROTCTL_GAP * 1000

/-- The end of a window that would close at `close`, with each deadline of a list whose window overlaps it or lies within PROT_GAP. -/
def State.mergeOnce (s : State) (ds : List Nat) (close : Nat) : Nat :=
  ds.foldl (fun c d => if d - s.protLead ≤ c + s.protGap then max c (d + s.protTail) else c) close

/-- The same with the windows that those reach in turn. -/
def State.mergeClose (s : State) (close : Nat) : Nat :=
  let ds := s.dramDeadlines
  ds.foldl (fun c _ => s.mergeOnce ds c) close

/-- A window opens PROT_LEAD before a row deadline of an incomplete DRAM task, not within PROT_GAP of the last one. -/
def execProtectedWindowOpen (s : State) : Host.Outcome State Fault Refusal :=
  finish (
    let now := s.dramDeadlines.filter fun d => d - s.protLead ≤ s.ns && s.ns < d + s.protTail
    let near := match s.spd.winLast with | some t => decide (s.ns < t + s.protGap) | none => false
    if s.rd Reg.SPD_SPDSTAT_WINDOW = 1 ∨ now.isEmpty ∨ near = true ∨ !s.fclk then s else
    let close := s.mergeClose ((now.map (· + s.protTail)).foldl max 0)
    let s := { s with spd := { s.spd with winOpen := s.ns, winClose := close } }
    let s := (s.wr Reg.SPD_SPDSTAT_WINDOW 1).wr Reg.SPD_PROTOPEN_TICK s.tick
    (s.incWrap Reg.SPD_PROTCNT_WINDOWS).traceDev 10 255 0 0 0)

/-- A window closes at its end, or at PROT_MAX. -/
def execProtectedWindowClose (s : State) : Host.Outcome State Fault Refusal :=
  finish (
    let close := s.mergeClose s.spd.winClose
    let cap := s.spd.winOpen + s.protMax
    if s.rd Reg.SPD_SPDSTAT_WINDOW = 0 ∨ s.ns < min close cap then
      { s with spd := { s.spd with winClose := if s.rd Reg.SPD_SPDSTAT_WINDOW = 0 then s.spd.winClose else close } }
    else
      let s := ({ s with spd := { s.spd with winLast := some s.ns } }).payback
      let s := (s.wr Reg.SPD_SPDSTAT_WINDOW 0).traceDev 11 255 0 0 s.tick
      if cap < close then (s.incSat Reg.SPD_PROTCNT_CAPPED).ev (evSpd 6) else s)

/-! ### Descriptor errors (R223) -/

/-- A descriptor in use is uncorrectable: a row or recovery task faults its channel; a task of the pool is built again
with the same numbers. -/
def execDescriptorError (d : Fin 16384) (s : State) : Host.Outcome State Fault Refusal :=
  finish (
    if (s.task d).state = 0 ∨ !s.fclk then s else
    let s := (s.incSat Reg.SPD_DESCERR_COUNT).ev (evSpd 9)
    if d.val < 2048 then s.faultChan (d / 32) 4 else s)

end Sys2Proof.Machine
end

