-- ==== Sys2Proof/Machine/Pair.lean ====
section
/-! DEFINITION. The redundant pair: interlock and claims, heartbeats, the Tyhorn link layer, checks, repair, port audio,
resync requests, and the OP_PAIR_* commands (R364 to R390). -/

namespace Sys2Proof.Machine

/-! ### What the device sees of its partner -/

/-- The device may hold the interlock: booted, not in DEV_SAFE, clocks running (R365). -/
def State.pairOn (s : State) : Bool := s.fclk && (s.dev = 1 || s.dev = 3)
def State.paired (s : State) : Bool := decide (s.rd Reg.PAIR_PAIRSTAT_ENABLED = 1)
def State.lockIn (s : State) : Bool := decide (s.rd Reg.PAIR_PAIRSTAT_LOCKIN = 1)
def State.slot (s : State) : Nat := s.rd Reg.PAIR_PAIRSTAT_SLOT

/-- REV, PPV and OCN are equal on both devices (R382). -/
def State.versionsMatch (s : State) : Bool :=
  s.pair.pRev = 0xA1 && s.rd Reg.PAIR_PARTNER_PPV = s.actImg.ppv && s.rd Reg.PAIR_OCN_PARTNER = s.rd Reg.PAIR_OCN_LOCAL

/-- A change of what a HEADSTOCK sees of its partner: its network B flows switch at bases 100 µs later (R374). -/
def State.viewChange (s : State) (f : State → State) : State :=
  let old := s.coversB
  let s := f s
  if s.role = 1 ∧ s.coversB ≠ old then s.setPair { s.pair with bCut := s.ns + 100000, bWas := old } else s

/-! ### Enabling (R51, R366) -/

/-- L_min is recomputed for every channel that is not CH_ABSENT. -/
def State.lminAll (s : State) : State :=
  s.forEach (List.range 64) fun s n => if s.chSt n = 0 then s else if s.live n then s.chanFigures n else (s.rereserve n).chanFigures n

/-- Pairing ends at the first instant after a disable with no channel live (R366). -/
def State.pairLift (s : State) : State :=
  if s.pair.disabling ∧ !s.anyLive then ((s.setPair { s.pair with disabling := false }).wr Reg.PAIR_PAIRSTAT_ENABLED 0).lminAll else s

/-- The lowest admitted channel whose L would break R50 with M at 200 µs. -/
def State.pairShort (s : State) : Option Nat :=
  (List.range 64).find? fun n =>
    let c := s.chan n
    s.admitted n && decide (s.latNs n < lMin c.raster c.rate c.coding.codec 200000 + c.tRow)

/-- Complete the OP_PAIR_ENABLE commands that wait. -/
def State.enableDone (s : State) (status : Nat) : State :=
  let ks := s.pair.enableKeys
  ks.foldl (fun (s : State) k => s.complete k status) (s.setPair { s.pair with enableKeys := [], joinBy := none })

/-! ### Claims (R367, R368, R369) -/

/-- The device claims as soon as the line is released: TAILSTOCK, but for one that waits for the claim of a handover (R388); RESYNC with an
image applied; a preferred device in SOLO that waits and whose partner has the other slot (R382). -/
def State.mayClaim (s : State) : Bool :=
  s.pairOn && s.paired && !s.pair.disabling &&
    ((s.role = 2 && s.pair.handKey = 0) || (s.role = 3 && s.rd Reg.PAIR_PAIRSTAT_IMAGE = 1) ||
      (s.role = 0 && s.pair.prefer && !s.pair.enableKeys.isEmpty && !s.pair.slotSaid))

/-- Begin a claim: 1 µs of a released line first. -/
def State.claimBegin (s : State) : State :=
  if s.pair.claim = .idle ∧ s.mayClaim ∧ !s.lockIn ∧ s.pair.backoff ≤ s.ns then s.setPair { s.pair with claim := .wait s.ns } else s

/-- The claim is lost: the line is released, and the device waits 1 ms. -/
def State.claimLost (s : State) : State :=
  ((s.lockOut false).setPair { s.pair with claim := .idle, backoff := s.ns + 1000000 }).ev (evPair 4)

/-- A claim in progress is given up. -/
def State.claimStop (s : State) : State := if s.pair.claim = .idle then s else (s.lockOut false).setPair { s.pair with claim := .idle }

/-- The claim is won (R367, R371). The sweep that a RESYNC device asks for is one that the pair controller requests, so it is a convergence
sweep (R385; DEDUCED: log entry 118). -/
def State.claimWon (s : State) : State :=
  let old := s.role
  let cause := s.rd Reg.PAIR_PAIRSTAT_CAUSE
  let s := (s.setPair { s.pair with claim := .idle, handBack := false }).incSat Reg.PAIR_ROLECNT_CLAIMS
  let s := (s.setRole 1 0).wr Reg.PAIR_PAIRSTAT_LOCKOUT 1
  let s := s.enableDone stOk
  if old = 3 ∧ cause ≠ 3 then s.running.foldl (fun (s : State) n => (s.setFollow n false).askSweep n true) s
  else s.running.foldl (fun (s : State) n => s.setFollow n false) s

/-- A claim moves on at a tick: it begins as soon as it may, the line is driven after 1 µs, and a contested claim is won after 1 µs of a
released line within 50 µs. -/
def State.claimTick (s : State) : State :=
  match s.pair.claim with
  | .idle => s.claimBegin
  | .wait t =>
    if s.lockIn ∨ !s.mayClaim then s.setPair { s.pair with claim := .idle }
    else if s.ns < t + 1000 then s
    else (s.lockOut true).setPair { s.pair with claim := .guard s.ns }
  | .contest a (some t) =>
    if s.lockIn then s.setPair { s.pair with claim := .contest a none }
    else if t + 1000 ≤ s.ns ∧ t + 1000 ≤ a + 50000 then s.claimWon else s
  | _ => s

/-- The partner's interlock line is released. -/
def State.lockReleased (s : State) : State :=
  let s := if s.lockIn then (s.wr Reg.PAIR_PAIRSTAT_LOCKIN 0).ev (evPair 3) else s
  match s.pair.claim with
  | .contest a none => s.setPair { s.pair with claim := .contest a (some s.ns) }
  | _ => s.claimBegin

def execPartnerLockReleased (s : State) : Host.Outcome State Fault Refusal := finish s.lockReleased

/-- The 10 µs guard ends; `lock`: the partner's line reads low. -/
def execClaimGuardEnd (lock : Bool) (s : State) : Host.Outcome State Fault Refusal :=
  finish (
    match s.pair.claim with
    | .guard t =>
      if s.ns < t + 10000 then s else
      let s := s.wr Reg.PAIR_PAIRSTAT_LOCKIN (bit lock)
      if !lock then s.claimWon
      else if s.slot = 1 then s.claimLost
      else s.setPair { s.pair with claim := .contest t none }
    | _ => s)

/-- 50 µs after its assertion a contested claim is lost. -/
def execClaimWaitTimeout (s : State) : Host.Outcome State Fault Refusal :=
  finish (
    match s.pair.claim with
    | .contest t high =>
      if s.ns < t + 50000 then s
      else if !s.lockIn && (match high with | some h => decide (h + 1000 ≤ t + 50000) | none => false) then s.claimWon else s.claimLost
    | _ => s)

/-- 1 ms after a lost claim the device may claim again. -/
def execClaimBackoffEnd (s : State) : Host.Outcome State Fault Refusal := finish s.claimBegin

/-- A HEADSTOCK reads the partner's line low for 1 µs. -/
def execClaimConflict (s : State) : Host.Outcome State Fault Refusal :=
  finish (
    if s.role ≠ 1 then s else
    let s := (s.wr Reg.PAIR_PAIRSTAT_LOCKIN 1).ev (evPair 5)
    if s.slot = 1 then s.mute 9 0 (s.ns + 100000) else s)

/-- JOIN_TIMEOUT_MS expires in SOLO. -/
def execJoinTimeout (s : State) : Host.Outcome State Fault Refusal :=
  finish (
    match s.pair.joinBy with
    | some t =>
      if s.role ≠ 0 ∨ s.ns < t then s else s.claimStop.enableDone stTimeout
    | none => s)

/-! ### Heartbeats (R370, R371) -/

/-- The heartbeat record. -/
def State.heartbeat (s : State) : Bytes :=
  let fl := s.rd Reg.PAIR_PAIRSTAT_IMAGE + 2 * s.rd Reg.PAIR_PAIRSTAT_HBLINE + 4 * bit s.mgt.upd
  toLe 1 s.role ++ toLe 1 fl ++ toLe 1 s.slot ++ toLe 1 0xA1 ++ toLe 4 s.pair.hbSeq ++ toLe 4 s.actImg.ppv ++
    toLe 4 (s.rd Reg.MGT_ACTVER_VERSION) ++ toLe 2 (s.rd Reg.PAIR_OCN_LOCAL) ++ toLe 1 (s.rd Reg.PAIR_PAIRSTAT_CAUSE) ++ toLe 1 0 ++
    toLe 4 s.sec ++ toLe 4 s.nsec ++ toLe 4 0

/-- Every HB_PERIOD_US the record is sent and PAIR_HB_OUT toggles, unless the management core restarts (R19). -/
def execHeartbeatSend (s : State) : Host.Outcome State Fault Refusal :=
  finish (
    if !s.paired ∨ !s.fclk ∨ s.dev = 0 ∨ s.ns < s.pair.hbNext then s else
    let s := s.linkSend 0 (.heartbeat s.heartbeat)
    let lvl := !s.pair.hbLevel
    let s := s.setPair { s.pair with hbSeq := (s.pair.hbSeq + 1) % 2 ^ 32, hbSent := s.ns, hbNext := s.ns + s.rd Reg.PAIR_HBCFG_PERIOD_US * 1000 }
    if s.hbSilent true || s.mgt.down then s else (s.setPair { s.pair with hbLevel := lvl }).emit (.pin .hbOut lvl))

/-- A path shows life again. -/
def State.hbAlive (s : State) (r : Row) : State :=
  if s.rd r = 1 then s else let s := s.wr r 1; if s.paired then s.ev (evPair 1) else s

/-- A mismatch of versions seen in a heartbeat (R382). -/
def State.versionBad (s : State) : State :=
  let was := s.pair.failed
  let s := s.setPair { s.pair with failed := true }
  if s.role = 0 then (if s.pair.enableKeys.isEmpty then s else (s.claimStop.ev (evPair 10)).enableDone stPairVersion)
  else
    let s := if was then s else s.ev (evPair 10)
    if s.role = 2 then s.mute 10 0 (s.ns + 100000) else s

/-- A SOLO device that waits to join sees its partner (R367, R382). -/
def State.joinSees (s : State) : State :=
  if s.pair.enableKeys.isEmpty then s
  else if s.pair.pSlot = s.slot then
    (if s.pair.slotSaid then s else (s.claimStop.setPair { s.claimStop.pair with slotSaid := true }).ev (evPair 11))
  else if s.pair.pRole = 1 ∧ s.lockIn then (s.mute 1 0 (s.ns + 100000)).enableDone stOk
  else s.claimBegin

/-- A heartbeat record arrives; `lock`: the partner's interlock line reads low. -/
def execHeartbeatReceive (body : Bytes) (lock : Bool) (s : State) : Host.Outcome State Fault Refusal :=
  finish (
    if s.rd Reg.PAIR_PAIRSTAT_LINKUP = 0 ∨ !s.fclk ∨ s.dev = 0 then s else
    let s := (s.setPair { s.pair with hbLinkAt := s.ns }).hbAlive Reg.PAIR_PAIRSTAT_HBLINK
    let s := if lock then s.wr Reg.PAIR_PAIRSTAT_LOCKIN 1 else if s.lockIn then s.lockReleased else s
    let s := ((s.wr Reg.PAIR_PARTNER_PPV (fld body 8 4)).wr Reg.PAIR_PARTNER_FWVER (fld body 12 4)).wr Reg.PAIR_OCN_PARTNER (fld body 16 2)
    let s := s.viewChange fun s =>
      s.setPair { s.pair with pRole := fld body 0 1 % 4, pImage := decide (fld body 1 1 % 2 = 1), pUpd := (fld body 1 1).testBit 2, pSlot := fld body 2 1 % 2, pRev := fld body 3 1,
                              imageSending := s.pair.imageSending && fld body 1 1 % 2 = 0 && fld body 0 1 % 4 = 3, failed := s.pair.failed && !s.versionsMatch }
    if !s.paired ∨ s.pair.disabling then s else
    let s := if s.versionsMatch then s.setPair { s.pair with failed := false } else s.viewChange State.versionBad
    let s := if s.role = 0 ∧ !s.pair.failed then s.joinSees else s
    if s.pair.handKey ≠ 0 ∧ s.pair.pRole = 1 then
      let k := s.pair.handKey
      ((s.setPair { s.pair with handKey := 0, handAt := none }).ev (evPair 14)).complete k stOk
    else s)

/-- A heartbeat path shows nothing for HB_TIMEOUT_US: `line` names the path. With both silent a HEADSTOCK, whose partner's line is released in
any event, treats the partner as absent whatever that line reads (DEDUCED: log entry 109). -/
def execHeartbeatPathSilent (line : Bool) (s : State) : Host.Outcome State Fault Refusal :=
  finish (
    let r := if line then Reg.PAIR_PAIRSTAT_HBLINE else Reg.PAIR_PAIRSTAT_HBLINK
    let at_ := if line then s.pair.hbLineAt else s.pair.hbLinkAt
    if !s.paired ∨ s.rd r = 0 ∨ s.ns < at_ + s.rd Reg.PAIR_HBTIMEOUT_US * 1000 then s else
    let s := (s.wr r 0).incSat (if line then Reg.PAIR_HBSILENT_LINE else Reg.PAIR_HBSILENT_LINK)
    if !s.bothSilent then s.ev (evPair 1)
    else if !s.lockIn ∧ s.role ≠ 1 then s
    else
      let s := s.ev (evPair 2)
      let s := s.viewChange fun s => s.setPair { s.pair with pRole := 0, pImage := false, imageSending := false }
      if s.role = 2 then s.mute 8 0 (s.ns + 100000) else s)

/-- An edge on PAIR_HB_IN, which the management plane watches with FCLK stopped too (R18); one less than 1 µs after another ends a pulse that
is ignored. -/
def execPairHbInEdge (s : State) : Host.Outcome State Fault Refusal :=
  finish (
    if s.rd Reg.PCR_DEVSTAT_PSTATE = 0 ∨ (s.fclk ∧ s.pair.hbLineAt ≠ 0 ∧ s.ns < s.pair.hbLineAt + 1000) then s
    else (s.setPair { s.pair with hbLineAt := s.ns }).hbAlive Reg.PAIR_PAIRSTAT_HBLINE)

/-- The AO watchdog finds that the heartbeat generator has produced nothing for HB_TIMEOUT_US / 2: HEADSTOCK stops network
A and releases its line (R369). -/
def execHbGeneratorWatchdog (s : State) : Host.Outcome State Fault Refusal :=
  finish (
    if s.role ≠ 1 ∨ s.ns < s.pair.hbSent + s.rd Reg.PAIR_HBTIMEOUT_US * 500 then s
    else (s.setPair { s.pair with aStop := true }).lockOut false)

/-! ### Link layer (R372, R373) -/

/-- Every channel is reset when the link goes down. -/
def State.linkDown (s : State) : State :=
  if s.rd Reg.PAIR_PAIRSTAT_LINKUP = 0 then s else
  s.viewChange fun s =>
    let s := (s.wr Reg.PAIR_PAIRSTAT_LINKUP 0).setPair { s.pair with tx := [], rx := [], imageSending := false }
    (s.wr Reg.PAIR_MIRRORSEQ_TX 0).wr Reg.PAIR_MIRRORSEQ_RX 0

/-- The link comes up; a RESYNC device asks again for its resync (R383). -/
def State.linkUp (s : State) : State :=
  if s.rd Reg.PAIR_PAIRSTAT_LINKUP = 1 then s else
  let s := s.viewChange fun s => s.wr Reg.PAIR_PAIRSTAT_LINKUP 1
  if s.role = 3 ∧ s.rd Reg.PAIR_PAIRSTAT_CAUSE ≠ 11 then
    s.linkSend 2 (.resyncReq s.pair.fullPend (s.running.foldl (fun m n => m + (if (s.chan n).matchRun = 0 then 2 ^ n else 0)) 0))
  else s

/-- Acknowledgements of a frame: what lies before the next SEQ expected is done. -/
def State.takeAck (s : State) (c ack : Nat) : State :=
  let t := s.tx c
  let s := s.setTx c { t with unacked := t.unacked.filter fun e => decide ((ack + 65536 - e.1 - 1) % 65536 ≥ 32768) }
  linkPumpFuel (t.wait.length + 1) c s

/-- A mirror fails (R376). -/
def State.mirrorFail (s : State) (cause : Nat) : State :=
  if s.role < 2 then s else
  let s := s.ev (evPair 9)
  if s.role = 3 then (s.wr Reg.PAIR_PAIRSTAT_CAUSE cause).askResync cause 0 else s.mute cause 0 (s.ns + 100000)

/-- A link frame arrives, 2,048 bytes. `reset` is what a link-control RESET names, as (channel, next SEQ); the spec gives
its payload no layout. -/
def execLinkFrameReceive (fr : Bytes) (reset : Option (Fin 3 × Fin 65536)) (s : State) : Host.Outcome State Fault Refusal :=
  finish (
    if s.rd Reg.PAIR_PAIRSTAT_LINKUP = 0 then s
    else
      let c := fld fr 0 1
      let seq := fld fr 2 2
      if fr.length ≠ 2048 then s.incSat Reg.PAIR_LINKRETX_COUNT
      else if crc32c (fr.take 2044) ≠ fld fr 2044 4 then
        (s.incSat Reg.PAIR_LINKRETX_COUNT).setPair { s.pair with lastBad := tset none s.pair.lastBad c (some (seq, fr.take 2044)) }
      else
      if 3 < c ∨ (c < 3 ∧ seq ≠ tget 0 s.pair.rx c) then s else
      let s := if tget none s.pair.lastBad c = some (seq, fr.take 2044) then s.incSat Reg.CVU_CHKONLY_TYH else s
      let s := s.cvuItem (916 + c) fr none (some seq)
      let s := if c < 3 then s.setPair { s.pair with rx := tset 0 s.pair.rx c ((seq + 1) % 65536) } else s
      let s := ((s.takeAck 0 (fld fr 4 2)).takeAck 1 (fld fr 6 2)).takeAck 2 (fld fr 8 2)
      if c ≠ 3 then s else
      match reset with
      | none => s
      | some (k, n) =>
        let s := s.setPair { s.pair with rx := tset 0 s.pair.rx k n }
        if k = 1 then (s.wr Reg.PAIR_MIRRORSEQ_RX n).mirrorFail 5 else s)

/-- 4 µs without the acknowledgement of a channel's oldest frame: everything from it is sent again. -/
def execLinkRetransmit (c : Fin 3) (s : State) : Host.Outcome State Fault Refusal :=
  finish (
    let t := s.tx c
    match t.unacked with
    | [] => s
    | e :: _ =>
      if s.ns < e.2.2.1 + 4000 then s else
      let s := s.setTx c { t with unacked := t.unacked.map fun e => (e.1, e.2.1, s.ns, e.2.2.2) }
      t.unacked.foldl (fun (s : State) e => s.linkOut c e.1 e.2.2.2) s)

/-- A frame is unacknowledged 150 µs after it was first sent: it and every later frame of its channel are abandoned. -/
def execLinkGiveup (c : Fin 3) (s : State) : Host.Outcome State Fault Refusal :=
  finish (
    let t := s.tx c
    match t.unacked with
    | [] => s
    | e :: _ =>
      if s.ns < e.2.1 + 150000 then s else
      let s := s.setTx c { t with unacked := [], wait := [] }
      let r := if c = 0 then Reg.PAIR_LINKGIVEUP_HB else if c = 1 then Reg.PAIR_LINKGIVEUP_MIRROR else Reg.PAIR_LINKGIVEUP_DATA
      ((s.incSat r).linkOut 3 0 (.reset c t.next)).ev (evPair 6))

/-- A link-control frame goes out while frames are unacknowledged. -/
def execLinkControlSend (s : State) : Host.Outcome State Fault Refusal :=
  finish (if s.rd Reg.PAIR_PAIRSTAT_LINKUP = 1 ∧ (List.range 3).any (fun c => !(s.tx c).unacked.isEmpty) then s.linkOut 3 0 .ackOnly else s)

/-! ### Checks, repair, audio, records (R378 to R384) -/

/-- A CHECK record's body arrives. -/
def execCheckRecordReceive (body : Bytes) (s : State) : Host.Outcome State Fault Refusal :=
  finish (if s.role = 0 then s else s.checkArrived (checkOf body))

/-- The oldest unmatched unit whose check deadline has passed: missing, unless the partner's line is released (R371). -/
def execCheckDeadline (s : State) : Host.Outcome State Fault Refusal :=
  finish (
    match s.pair.own.find? fun e => decide (e.2.2 ≤ s.ns) with
    | none => s
    | some e => s.checkMissed e)

/-- The ring still holds what a kept packet brought (R380). -/
def InFlow.holds (x : InFlow) (now : Nat) (hdr pl : Bytes) : Bool :=
  let ts := nfld hdr 4 4
  if x.kind = 0 then
    match x.fmt with
    | none => false
    | some m => ((srdHeaders 3 (pl.drop 2)).1).all fun h =>
      match tget none x.ring (h.2.2.1 % max 1 x.lines) with | some l => m.stamp l.frame = ts && l.line = h.2.2.1 | none => false
  else x.kind ≠ 1 || !(tget [] x.aud (stampNear x.audRate now ts)).isEmpty

/-- The kept packet of a sequence that a partner may have. -/
def State.repairOf (s : State) (f ext : Nat) : Option (Nat × Bytes × Bytes) :=
  match s.flowIn f with
  | some x => x.answer.find? fun e => decide (e.1 % 2 ^ 32 = ext % 2 ^ 32) && x.holds s.ns e.2.1 e.2.2
  | none => none

/-- The partner asks for a packet (R380). -/
def execRepairReq (f : Fin 384) (ext : Nat) (s : State) : Host.Outcome State Fault Refusal :=
  finish (
    if s.role = 0 then s else
    match s.repairOf f ext with
    | some (_, hdr, pl) => s.linkSend 2 (.repairAns f ext hdr pl)
    | none => s.linkSend 2 (.repairAbsent f ext))

/-- The group of a repaired video packet has been latched. -/
def State.repairLatched (s : State) (f : Nat) (hdr pl : Bytes) : Bool :=
  match s.flowIn f with
  | none => true
  | some x =>
    match x.fmt with
    | none => x.kind = 0
    | some m =>
      let g0 := m.frameAt s.ns
      match [g0, g0 + 1, g0 + 2].find? fun g => m.stamp g = nfld hdr 4 4 with
      | none => true
      | some gf => ((srdHeaders 3 (pl.drop 2)).1).any fun h => x.latched gf h.2.2.1

/-- The request that an answer is for: flow, sequence, time of the loss. -/
def State.repairAsked (s : State) (f ext : Nat) : Option (Nat × Nat × Nat) := s.pair.repairs.find? fun e => e.1 = f ∧ e.2.1 % 2 ^ 32 = ext % 2 ^ 32

/-- A repair answer (R381): written as if received, or discarded as late. `w`, `ch`, `rate` are the format of an audio
packet (log entry 16). -/
def execRepairAns (f : Fin 384) (ext : Nat) (hdr pl : Bytes) (w ch rate : Nat) (s : State) : Host.Outcome State Fault Refusal :=
  finish (
    match s.repairAsked f ext with
    | none => s
    | some e =>
      let s := s.setPair { s.pair with repairs := s.pair.repairs.erase e }
      match s.flowIn f with
      | none => s
      | some x =>
        let n := e.2.1
        let q := tget ({} : SeqSt) x.win n
        if e.2.2 + 500000 < s.ns ∨ q.a ∨ q.b ∨ q.rep ∨ s.repairLatched f hdr pl then s.incSat Reg.PAIR_REPAIRLATE_COUNT else
        let s := (s.setFlowIn f (some { x with win := tset {} x.win n { q with rep := true } })).incSat Reg.PAIR_REPAIRANS_COUNT
        let ts := nfld hdr 4 4
        if x.kind = 0 then s.videoIn f 0 n ts hdr pl true
        else if x.kind = 1 then s.audioIn f 0 n ts w ch rate hdr pl true
        else s.ancIn f 0 n ts hdr pl true)

/-- The partner does not hold the packet: the sequence stays lost. -/
def execRepairAbsent (f : Fin 384) (ext : Nat) (s : State) : Host.Outcome State Fault Refusal :=
  finish (s.setPair { s.pair with repairs := s.pair.repairs.filter fun e => !(e.1 = f.val && e.2.1 % 2 ^ 32 = ext % 2 ^ 32) })

/-- Eight sample periods of HEADSTOCK's port arrive. -/
def execAudioRecordReceive (port : Fin 16) (first : Nat) (samples : List Int) (s : State) : Host.Outcome State Fault Refusal :=
  finish (
    if s.role < 2 then s else
    let new := (List.range 8).map fun i => (first + i, samples.getD (2 * i) 0, samples.getD (2 * i + 1) 0)
    let l := ((tget [] s.pair.portAudio port).filter fun e => !(decide (first ≤ e.1) && decide (e.1 < first + 8))) ++ new
    s.setPair { s.pair with portAudio := tset [] s.pair.portAudio port (l.reverse.take 8192).reverse })

/-- HEADSTOCK's rate-control record of a row slot arrives. -/
def execRcrecReceive (ch : Fin 64) (frame row cap qp : Nat) (floor : List Bool) (units : List Nat) (conv : Bool) (rc : Option RcSt) (s : State) :
    Host.Outcome State Fault Refusal :=
  finish (s.rcrecIn (.rcrec ch frame row cap qp floor units conv rc))

/-! ### Join (R383, R385, R387) -/

/-- The register fields the image holds: those of the channels, the emergency selections, and the settings of programs and shapers. -/
def imageRows : List Row :=
  Reg.rowsCHC ++ [Reg.CMP_CHCMP_EMSEL, Reg.CMP_CHCMP_EMPEND, Reg.PKT_PKTSTAT_PROGS, Reg.PKT_PROG_VALID, Reg.PKT_PROG_MODE, Reg.PKT_PROG_NETS,
    Reg.PKT_PROG_AUDIO, Reg.PKT_PROG_SEQ_NEXT, Reg.PKT_PROG_SEQ_AUDNEXT, Reg.SHP_SHPSTAT_INUSE, Reg.SHP_SHAPER_RATE, Reg.SHP_SHAPER_AUTO,
    Reg.SHP_SHAPER_RESET_MODE, Reg.SHP_SHAPER_INUSE, Reg.SHP_SHPVIEW_BURST, Reg.SHP_SHPVIEW_OVERHEAD, Reg.SHP_SHPVIEW_CREDIT, Reg.SHP_SHPVIEW_RMIN]

/-- The join image as HEADSTOCK fixes it. -/
def State.imageOf (s : State) : Image :=
  let ids := imageRows.map (·.id)
  { ts := s.ns, regs := s.regs.filter (fun e => ids.contains (e.1 / 2 ^ 24)), flows := s.inp.flows, meters := s.inp.meters, chans := s.chans,
    refs := s.refs, layers := s.cmp.layers, banks := s.cmp.banks, chBank := s.cmp.chBank, coefWait := s.cmp.coefWait, progs := s.progs,
    routes := s.routes, routesAct := s.routesAct, shps := s.shps, pkrs := s.pkrs, pages := s.cst.pages, runs := s.cst.runs,
    devCommits := s.spd.devCommits }

/-- F_j of a channel: the first frame whose reference time is at or after 50 ms past the image time. -/
def State.joinFrame (s : State) (n ts : Nat) : Nat :=
  let r := s.rowAt n (ts + 50000000)
  if r.2 = 0 then r.1 else r.1 + 1

/-- During frame F_j − 1 HEADSTOCK asks for a convergence sweep on each running channel (R387). -/
def State.joinSweeps (s : State) : State :=
  match s.pair.imageAt with
  | none => s
  | some ts =>
    let due := s.running.filter fun n => !s.pair.asked.contains n && decide (s.joinFrame n ts ≤ (s.chan n).nextFrame + 1)
    let s := due.foldl (fun (s : State) n => (s.askSweep n true).setPair { (s.askSweep n true).pair with asked := n :: s.pair.asked }) s
    if s.running.all s.pair.asked.contains ∧ ts + 50000000 ≤ s.ns then s.setPair { s.pair with imageAt := none, asked := [] } else s

/-- A resync request reaches HEADSTOCK: convergence sweeps on the channels named, or the image first (R383). -/
def execResyncReq (full : Bool) (mask : Nat) (s : State) : Host.Outcome State Fault Refusal :=
  finish (
    if s.role ≠ 1 then s
    else if full then
      let s := s.viewChange fun s => s.setPair { s.pair with imageSending := true, imageAt := some s.ns, asked := [] }
      s.linkSend 2 (.image s.imageOf)
    else s.running.foldl (fun (s : State) n => if mask.testBit n then s.askSweep n true else s) s)

/-! ### Commands (R367, R388) -/

/-- The checks of OP_PAIR_ENABLE. The first result word of the capacity refusal, which no rule lays out, is 0 (DESIGN CHOICE: log entry 101). -/
def chkPairEnable : OpChk := fun s _ p =>
  let per := fld p 2 2
  let tmo := fld p 4 4
  let jt := fld p 8 4
  firstBad [(1 < fld p 0 1, badAt 0), (nz p 1 1, badAt 1), (per < 50 || 1000 < per, badAt 2), (tmo < 1000 || tmo < 3 * (150 + per), badAt 4),
    (jt < 10 || 600000 < jt, badAt 8), (nz p 12 4, badAt 12), (s.role ≠ 0, { status := stRefused, detail := s.role }),
    (s.pairShort.isSome, { status := stCapacity, detail := 1, r1 := s.pairShort.getD 0 })]

def runPairEnable : OpRun := fun c p s =>
  let s := (s.wr Reg.PAIR_HBCFG_PERIOD_US (fld p 2 2)).wr Reg.PAIR_HBTIMEOUT_US (fld p 4 4)
  let s := (s.wr Reg.PAIR_JOINTO_MS (fld p 8 4)).wr Reg.PAIR_PAIRSTAT_ENABLED 1
  let s := s.setPair { s.pair with prefer := decide (fld p 0 1 = 1), joinBy := some (s.ns + fld p 8 4 * 1000000), enableKeys := s.pair.enableKeys ++ [c.key],
                                   disabling := false, hbNext := s.ns, hbSent := s.ns, slotSaid := false, failed := false, claim := .idle, backoff := 0 }
  (s.lminAll.claimBegin, .later false)

def execOpPairEnable (h : Hdr) (p : Bytes) (s : State) : Host.Outcome State Fault Refusal :=
  finish (s.hostCmd (.opPairEnable h p) 0x0700 h p chkPairEnable runPairEnable)

def runPairDisable : OpRun := fun _ _ s =>
  let s := (s.setRole 0 0).lockOut false
  let s := s.enableDone stAborted
  let s := if s.pair.handKey = 0 then s else s.complete s.pair.handKey stAborted 0x11
  let s := s.setPair { s.pair with claim := .idle, handKey := 0, handAt := none, handBack := false, disabling := s.paired, own := [], theirs := [],
                                   fullPend := false, imageSending := false, imageAt := none, heldMirrors := [], repairs := [], rcrecs := [] }
  let s := s.wr Reg.PAIR_PAIRSTAT_IMAGE 0
  let s := s.running.foldl (fun (s : State) n => s.setFollow n false) s
  (s.pairLift, .accDone stOk 0 0 0)

def execOpPairDisable (h : Hdr) (p : Bytes) (s : State) : Host.Outcome State Fault Refusal :=
  finish (s.hostCmd (.opPairDisable h p) 0x0701 h p noChk runPairDisable)

/-- The point of a handover (R388). -/
def State.handover (s : State) (key : Nat) : State :=
  if s.role = 1 ∧ s.partnerGood then
    (s.setRole 2 0).setPair { (s.setRole 2 0).pair with handKey := key, handAt := some (s.ns + 1000000) }
  else (s.ev (evPair 14)).complete key stAborted 0x11

def chkPairHandover : OpChk := fun s _ _ =>
  if s.role = 1 && s.partnerGood then none else some { status := stRefused, detail := s.role }

def runPairHandover : OpRun := fun c _ s =>
  if c.ns ≤ s.ns then (s.handover c.key, .later false)
  else
    let (f, s) := s.nextFseq 0x140
    ({ s with spd := { s.spd with devCommits := s.spd.devCommits ++ [{ c.commit (.handover c.key) with ch := 255, fseq := f }] } }, .later false)

def execOpPairHandover (h : Hdr) (p : Bytes) (s : State) : Host.Outcome State Fault Refusal :=
  finish (s.hostCmd (.opPairHandover h p) 0x0702 h p chkPairHandover runPairHandover)

/-- The partner has not claimed 1 ms after a handover: the device claims the role back. -/
def execHandoverClaimTimeout (s : State) : Host.Outcome State Fault Refusal :=
  finish (
    match s.pair.handAt with
    | some t =>
      if s.ns < t ∨ s.pair.handKey = 0 then s else
      let k := s.pair.handKey
      let s := (s.setPair { s.pair with handKey := 0, handAt := none, handBack := true }).ev (evPair 14)
      (s.complete k stAborted 0x11).claimBegin
    | none => s)

def runPairStatus : OpRun := fun _ _ s =>
  (s, ok2 (s.role + 4 * bit (s.role = 3) + 8 * s.rd Reg.PAIR_PAIRSTAT_LINKUP + 16 * s.rd Reg.PAIR_PAIRSTAT_HBLINE + 32 * s.rd Reg.PAIR_PAIRSTAT_LOCKIN)
    (s.rd Reg.PAIR_PARTNER_PPV))

def execOpPairStatus (h : Hdr) (p : Bytes) (s : State) : Host.Outcome State Fault Refusal :=
  finish (s.hostCmd (.opPairStatus h p) 0x0703 h p noChk runPairStatus)

end Sys2Proof.Machine
end

