-- ==== Sys2Proof/Machine/Lanes.lean ====
section
/-! DEFINITION. Serial lanes: states, adaptation, polarity, the Tyhorn line code, the eye monitor and error injection
(R347 to R363). -/

namespace Sys2Proof.Machine

/-! ### States (R349) -/

def State.lane (s : State) (l : Nat) : Lane := tget {} s.lanes l
def State.setLane (s : State) (l : Nat) (v : Lane) : State := { s with lanes := tset {} s.lanes l v }
def State.laneSt (s : State) (l : Nat) : Nat := s.rd Reg.SDS_LSTAT_STATE l
/-- Data passes only in LN_UP and LN_DEGRADED. -/
def State.lanePasses (s : State) (l : Nat) : Bool := s.laneSt l = 4 || s.laneSt l = 5

/-- The MAC that uses a network lane (R269). -/
def State.laneMac (s : State) (l : Nat) : Nat :=
  let p := l / 4
  if s.split p = 0 then 4 * p else if s.split p = 1 then 4 * p + l % 4 / 2 else l

/-- The PCIe link goes down (R258, R424). -/
def State.pcieDown (s : State) : State :=
  if s.rd Reg.HIF_LINKSTAT_DLUP = 0 then s else
  (((s.wr Reg.HIF_LINKSTAT_SPEED 0).wr Reg.HIF_LINKSTAT_WIDTH 0).wr Reg.HIF_LINKSTAT_DLUP 0).ev (evHif 1)

/-- The PCIe link trains to a speed of at most MAXSPEED. -/
def State.pcieUp (s : State) (speed width : Nat) : State :=
  let sp := max 1 (min speed (max 1 (s.rd Reg.HIF_LINKCTL_MAXSPEED)))
  let w := if width = 1 ∨ width = 2 ∨ width = 4 then width else 8
  (((s.wr Reg.HIF_LINKSTAT_SPEED sp).wr Reg.HIF_LINKSTAT_WIDTH w).wr Reg.HIF_LINKSTAT_DLUP 1).ev (evHif 0)

/-- It trains by itself once its first lane passes data while PERST_N is high; the spec states neither the speed nor the width that
results, so both are free values. -/
def State.pcieTrain (s : State) : State :=
  if s.rd Reg.HIF_LINKSTAT_DLUP = 1 ∨ !s.pcr.perstN ∨ !s.lanePasses 24 then s else
  let (a, s) := s.free
  let (b, s) := s.free
  s.pcieUp (1 + a % 5) (2 ^ (b % 4))

/-- What a lane leaves behind with LN_UP and LN_DEGRADED: the MAC, the Tyhorn link or the PCIe link that runs on it. -/
def State.laneLost (s : State) (l : Nat) : State :=
  if l < 16 then s.macDown (s.laneMac l) false else if l < 24 then s.linkDown else if l = 24 then s.pcieDown else s

/-- A scan that runs ends without a count (R360). -/
def State.scanCut (s : State) (l : Nat) : State :=
  if !(s.lane l).scan then s else
  ((s.setLane l { s.lane l with scan := false }).wr Reg.SDS_EYECTL_DONE 1 l).wr Reg.SDS_EYERES_COUNT 0xFFFFFFFF l

/-- A transition: the lane's flags and counts of the state it enters, what it leaves behind, and EV_SDS_LANE. -/
def State.laneTo (s : State) (l new : Nat) : State :=
  let old := s.laneSt l
  let was := s.lanePasses l
  let s := s.wr Reg.SDS_LSTAT_STATE new l
  let s := s.setLane l { s.lane l with low := 0, high := 0, fail := 0, since := s.ns }
  let s := if new = 4 ∨ new = 5 then s else s.scanCut l
  let s := if new = 4 ∨ new = 5 then s else ((s.setLane l { s.lane l with good := 0, bad := 0, said := false }).wr Reg.SDS_TYH_SBLOCK 0 l).wr Reg.SDS_TYH_DESKEW 0 l
  let s := if new = 0 ∨ new = 1 ∨ new = 6 then
      ((s.wr Reg.SDS_LSTAT_PLLLOCK 0 l).wr Reg.SDS_LSTAT_CDRLOCK 0 l).wr Reg.SDS_LSTAT_SIGDET 0 l
    else if new = 2 then
      ((s.wr Reg.SDS_LSTAT_PLLLOCK 1 l).wr Reg.SDS_LSTAT_CDRLOCK 0 l).wr Reg.SDS_LSTAT_RXINV
        (if s.rd Reg.SDS_LCTL_RXINV_AUTO l = 1 then 0 else s.rd Reg.SDS_LCTL_RXINV_FORCE l) l
    else s
  let s := if new = 1 then
      s.setLane l { s.lane l with tx := [s.rd Reg.SDS_LCTL_TXINV l, s.rd Reg.SDS_TXEQ_PRE l, s.rd Reg.SDS_TXEQ_MAIN l, s.rd Reg.SDS_TXEQ_POST l] }
    else s
  let s := if new = 1 ∧ old ≠ 0 then s.incSat Reg.SDS_COUNTS_RESTARTS 1 l else s
  let s := if new = 6 then s.setLane l { s.lane l with faults := (s.lane l).faults + 1 } else s
  let s := s.ev (evSds l) 255 (new + 16 * old)
  if was && !(new = 4 || new = 5) then s.laneLost l else if !was && l = 24 then s.pcieTrain else s

/-- A quad clock starts: its lanes leave LN_OFF. -/
def State.quadOn (s : State) (q : Nat) : State :=
  s.forEach ((List.range 4).map (· + 4 * q)) fun s l => if s.laneSt l = 0 then (s.setLane l {}).laneTo l 1 else s

/-- A quad clock stops: its lanes are in LN_OFF. -/
def State.quadOff (s : State) (q : Nat) : State :=
  s.forEach ((List.range 4).map (· + 4 * q)) fun s l => if s.laneSt l = 0 then s else s.laneTo l 0

/-- The lane's PLL locks. -/
def execLanePllLock (l : Fin 32) (s : State) : Host.Outcome State Fault Refusal := finish (if s.laneSt l = 1 then s.laneTo l 2 else s)

/-- No lock within 500 µs. -/
def execLanePllTimeout (l : Fin 32) (s : State) : Host.Outcome State Fault Refusal := 
  finish (if s.laneSt l = 1 ∧ (s.lane l).since + 500000 ≤ s.ns then s.laneTo l 6 else s)

/-- Signal detect and CDR lock. `inv`: a PCIe pair is inverted (R355). -/
def execLaneCdrLock (l : Fin 32) (inv : Bool) (s : State) : Host.Outcome State Fault Refusal :=
  finish (
    if s.laneSt l ≠ 2 then s else
    let s := (s.wr Reg.SDS_LSTAT_SIGDET 1 l).wr Reg.SDS_LSTAT_CDRLOCK 1 l
    let s := if 24 ≤ l.val ∧ inv ∧ s.rd Reg.SDS_LCTL_RXINV_AUTO l = 1 then s.wr Reg.SDS_LSTAT_RXINV 1 l else s
    s.laneTo l 3)

/-- The figure of merit of a window with mean level distance `d` and RMS slicer error `sig`, in one unit (R350):
clamp(round(160 × log10(d / (2 × sig))), 0, 255). It is k or more when d / (2 × sig) is at least 10^((2k − 1) / 320). -/
def fomOf (w : Nat × Nat) : Nat := ((List.range 255).filter fun k => decide (10 ^ (2 * k + 1) * (2 * w.2) ^ 320 ≤ w.1 ^ 320)).length

/-- One FOM window is measured (R350). -/
def State.fomSeen (s : State) (l f : Nat) : State :=
  (s.wr Reg.SDS_LSTAT_FOM f l).wr Reg.SDS_FOMMIN_FOM (min f (s.rd Reg.SDS_FOMMIN_FOM l)) l

/-- The step of highest FOM, the lower on a tie, with its FOM. -/
def bestStep (foms : List Nat) : Nat × Nat :=
  foms.zipIdx.foldl (fun (b : Nat × Nat) e => if b.2 < e.1 then (e.2, e.1) else b) (0, foms.headD 0)

/-- The adaptation search ends (R353): `ws` gives d and σ of the window of each step. -/
def execLaneAdaptEnd (l : Fin 32) (ws : List (Nat × Nat)) (dfe vga : Fin 256) (s : State) : Host.Outcome State Fault Refusal :=
  finish (
    if s.laneSt l ≠ 3 then s else
    let foms := (ws.take 16).map fomOf
    let s := foms.foldl (fun (s : State) f => s.fomSeen l f) s
    let (k, f) := bestStep foms
    let s := ((s.wr Reg.SDS_RXEQ_CTLE k l).wr Reg.SDS_RXEQ_DFE1 dfe l).wr Reg.SDS_RXEQ_VGA vga l
    if s.rd Reg.SDS_FOMTHR_WARN l ≤ f then s.laneTo l 4
    else if s.rd Reg.SDS_FOMTHR_FAIL l ≤ f then s.laneTo l 5
    else (s.incSat Reg.SDS_COUNTS_ADAPTFAIL 1 l).laneTo l 2)

/-- A counted FOM window ends, with its mean distance and RMS error: 16 in a row below WARN, 16 at WARN + HYST or above, or 4 below FAIL move the lane. -/
def execFomWindow (l : Fin 32) (w : Nat × Nat) (dfe : Fin 256) (s : State) : Host.Outcome State Fault Refusal :=
  finish (
    if !s.lanePasses l then s else
    let fom := fomOf w
    let s := (s.fomSeen l fom).wr Reg.SDS_RXEQ_DFE1 dfe l
    let x := s.lane l
    let warn := s.rd Reg.SDS_FOMTHR_WARN l
    let x := { x with low := if fom < warn then x.low + 1 else 0,
                      high := if warn + s.rd Reg.SDS_FOMTHR_HYST l ≤ fom then x.high + 1 else 0,
                      fail := if fom < s.rd Reg.SDS_FOMTHR_FAIL l then x.fail + 1 else 0 }
    let s := s.setLane l x
    if 4 ≤ x.fail then s.laneTo l 2
    else if s.laneSt l = 4 ∧ 16 ≤ x.low then s.laneTo l 5
    else if s.laneSt l = 5 ∧ 16 ≤ x.high then s.laneTo l 4
    else s)

/-- The signal is lost, or the CDR unlocks: a search counts as failed. -/
def execLaneSignalLoss (l : Fin 32) (unlock : Bool) (s : State) : Host.Outcome State Fault Refusal :=
  finish (
    if !(s.lanePasses l || s.laneSt l = 3) then s else
    let s := if s.laneSt l = 3 then s.incSat Reg.SDS_COUNTS_ADAPTFAIL 1 l else s
    if unlock then (s.incSat Reg.SDS_LOSS_CDRUNLOCK 1 l).laneTo l 2
    else ((s.incSat Reg.SDS_LOSS_LOS 1 l).laneTo l 2).wr Reg.SDS_LSTAT_SIGDET 0 l)

/-- 10 ms after a fault, for the first three. -/
def execLaneFaultRetry (l : Fin 32) (s : State) : Host.Outcome State Fault Refusal :=
  finish (if s.laneSt l = 6 ∧ (s.lane l).faults ≤ 3 ∧ (s.lane l).since + 10000000 ≤ s.ns then s.laneTo l 1 else s)

/-- A background trial of the step above or below, by turns (R354): its windows are not counted, and it reverts at once when one
falls below WARN. One begins every INTERVAL_MS. `ws` gives d and σ of its windows. -/
def execLaneBackgroundTrial (l : Fin 32) (ws : List (Nat × Nat)) (s : State) : Host.Outcome State Fault Refusal :=
  finish (
    let x := s.lane l
    if !s.lanePasses l ∨ s.rd Reg.SDS_ADAPTCTL_BG l = 0 ∨ ws = [] ∨ s.ns < max x.since x.trialAt + s.rd Reg.SDS_ADAPTCTL_INTERVAL_MS l * 1000000 then s else
    let old := s.rd Reg.SDS_LSTAT_FOM l
    let k := s.rd Reg.SDS_RXEQ_CTLE l
    let s := s.setLane l { x with down := !x.down, trialAt := s.ns }
    if (x.down ∧ k = 0) ∨ (!x.down ∧ k = 15) then s else
    let foms := ws.map fomOf
    let bad := foms.any fun f => decide (f < s.rd Reg.SDS_FOMTHR_WARN l)
    let s := foms.foldl (fun (s : State) f => s.fomSeen l f) s
    if !bad ∧ old + s.rd Reg.SDS_FOMTHR_HYST l ≤ foms.getLastD 0 then s.wr Reg.SDS_RXEQ_CTLE (if x.down then k - 1 else k + 1) l else s)

/-- A restart: from any state but LN_OFF to LN_PLL; the faults count afresh. -/
def State.laneRestart (s : State) (l : Nat) : State :=
  if s.laneSt l = 0 then s else (s.setLane l { s.lane l with faults := 0 }).laneTo l 1

def execLctlRestart (l : Fin 32) (s : State) : Host.Outcome State Fault Refusal :=
  finish (
    let s := s.hostAccess Reg.SDS_LCTL_RESTART l
    s.laneRestart l)

/-! ### The Tyhorn line code (R356 to R359) -/

/-- The bits of bytes, most significant first. -/
def bitsMsb (p : Bytes) : List Bool := p.flatMap fun b => (List.range 8).map fun i => b.getLsbD (7 - i)

/-- Take out each bit that follows 31 identical bits, until `n` bits are found; `run` identical bits equal to `last` came before. -/
def unstuff : Nat → Bool → Nat → List Bool → List Bool
  | 0, _, _, _ => []
  | _, _, _, [] => []
  | n + 1, last, run, b :: r =>
    let k := if b = last then run + 1 else 1
    if k = 31 then
      match r with
      | [] => [b]
      | x :: r' => b :: unstuff n x 1 r'
    else b :: unstuff n b k r

/-- Bytes from bits, most significant first. -/
def bitsBytes : Nat → List Bool → Bytes
  | 0, _ => []
  | n + 1, l => BitVec.ofNat 8 (bitsVal (l.take 8)) :: bitsBytes n (l.drop 8)

/-- The PRBS of x^31 + x^28 + 1 from a state: `n` bits and what it leaves. -/
def prbs : Nat → Nat → List Bool
  | 0, _ => []
  | n + 1, st =>
    let b := (st.testBit 30) != (st.testBit 27)
    b :: prbs n ((2 * st + bit b) % 2 ^ 31)

/-- A superblock's header after unstuffing, and its payload descrambled: LANE, TYPE, SBCOUNT, whether HCRC is good, payload. -/
def superblock (bits : List Bool) : Nat × Nat × Nat × Bool × Bytes :=
  let u := unstuff 2088 (bits.getD 15 false) 1 (bits.drop 16)
  let lane := bitsVal (u.take 4)
  let typ := bitsVal ((u.drop 4).take 4)
  let cnt := bitsVal ((u.drop 8).take 24)
  let good := crcMsb 8 0x07 0xFF (bitsBytes 4 (u.take 32)) = bitsVal ((u.drop 32).take 8)
  let pl := (u.drop 40).take 2048
  let st := cnt % 2 ^ 24 * 128 + lane % 16 * 8 + 5
  (lane, typ, cnt, good, bitsBytes 256 (List.zipWith (fun a b => a != b) pl (prbs 2048 st)))

/-- Insert a bit of the opposite value after each 31st identical bit (R358); `run` identical bits equal to `last` came before. -/
def stuff : Bool → Nat → List Bool → List Bool
  | _, _, [] => []
  | last, run, b :: r =>
    let k := if b = last then run + 1 else 1
    if k = 31 then b :: (!b) :: stuff (!b) 1 r else b :: stuff b k r

/-- Alternating bits that start with the inverse of `last`. -/
def fillBits : Nat → Bool → List Bool
  | 0, _ => []
  | n + 1, last => (!last) :: fillBits n (!last)

/-- The low `n` bits of a number, most significant first. -/
def natBits (n v : Nat) : List Bool := (List.range n).map fun i => v.testBit (n - 1 - i)

/-- The superblock a transmitter sends (R356 to R358): header, scrambled payload, stuff bits and fill, 2,192 bits. -/
def sbBits (lane typ cnt : Nat) (payload : Bytes) : List Bool :=
  let h := toBe 1 (lane % 16 * 16 + typ % 16) ++ toBe 3 cnt
  let pl := List.zipWith (fun a b => a != b) (bitsMsb (bytesAt payload 0 256)) (prbs 2048 (cnt % 2 ^ 24 * 128 + lane % 16 * 8 + 5))
  let body := stuff true 1 (bitsMsb h ++ natBits 8 (crcMsb 8 0x07 0xFF h) ++ pl)
  natBits 16 0x6A9D ++ body ++ fillBits (2176 - body.length) (body.getLastD true)

/-- Arrival places are modulo the wrap of SBCOUNT. -/
def laneWrap : Nat := 2192 * 2 ^ 24

/-- The lanes of the link, and the skew of each behind the earliest, in superblocks. -/
def tyhLanes : List Nat := (List.range 8).map (· + 16)
def State.laneBehind (s : State) (l ref : Nat) : Nat := ((s.lane l).align + laneWrap - (s.lane ref).align) % laneWrap
def State.earliest (s : State) : Nat :=
  tyhLanes.foldl (fun b l => if laneWrap / 2 ≤ s.laneBehind l b then l else b) 16
def State.laneSkew (s : State) (l : Nat) : Nat := cdiv (s.laneBehind l s.earliest) 2192

/-- All eight lanes locked: the link comes up when each logical lane is there once within 4 superblocks, and otherwise each
lane concerned says so once (R359). -/
def State.alignTry (s : State) : State :=
  if s.rd Reg.PAIR_PAIRSTAT_LINKUP = 1 ∨ tyhLanes.any (fun l => s.rd Reg.SDS_TYH_SBLOCK l = 0) then s else
  let id (l : Nat) := s.rd Reg.SDS_TYH_LANEID l
  let wrong := tyhLanes.filter fun l => 7 < id l || (tyhLanes.any fun k => k ≠ l && id k = id l) || 4 < s.laneSkew l
  if wrong = [] then
    (tyhLanes.foldl (fun (s : State) l => s.wr Reg.SDS_TYH_DESKEW (s.laneSkew l) l) s).linkUp
  else wrong.foldl (fun (s : State) l =>
    if (s.lane l).said then s else (s.setLane l { s.lane l with said := true }).ev (evSds l) 255 (s.laneSt l + 16 * s.laneSt l)) s

/-- A Tyhorn superblock arrives on a lane that passes data. -/
def execSuperblockReceive (l : Fin 32) (ui : Nat) (sb : Bytes) (s : State) : Host.Outcome State Fault Refusal :=
  finish (
    if l.val < 16 ∨ 24 ≤ l.val ∨ !s.lanePasses l then s else
    let raw := bitsMsb (bytesAt sb 0 274)
    let flip (v : Nat) := if v = 1 then raw.map (!·) else raw
    let bits := flip (s.rd Reg.SDS_LSTAT_RXINV l)
    let s := if bitsVal (bits.take 16) = 0x9562 ∧ s.rd Reg.SDS_LCTL_RXINV_AUTO l = 1 ∧ s.rd Reg.SDS_LSTAT_RXINV l = 0 then
      s.wr Reg.SDS_LSTAT_RXINV 1 l else s
    let bits := flip (s.rd Reg.SDS_LSTAT_RXINV l)
    let (lane, typ, cnt, good, pl) := superblock bits
    let ok := bitsVal (bits.take 16) = 0x6A9D ∧ good
    let s := if !good ∨ 3 ≤ typ then s.incSat Reg.SDS_HCRCERR_COUNT 1 l
      else s.setLane l { s.lane l with payload := if typ = 0 then pl else [] }
    let x := s.lane l
    let spaced := x.good = 0 ∨ ui = x.sbAt + 2192
    let s := s.setLane l { x with good := if ok then (if spaced then min 8 (x.good + 1) else 1) else 0, bad := if ok ∧ spaced then 0 else x.bad + 1, sbAt := ui }
    if ok ∧ spaced then
      let s := (s.setLane l { s.lane l with align := (ui % laneWrap + laneWrap - 2192 * cnt) % laneWrap }).wr Reg.SDS_TYH_LANEID lane l
      (if 8 ≤ (s.lane l).good then s.wr Reg.SDS_TYH_SBLOCK 1 l else s).alignTry
    else if s.rd Reg.SDS_TYH_SBLOCK l = 1 ∧ 4 ≤ (s.lane l).bad then s.laneTo l 2
    else s)

/-! ### Eye monitor and injection (R360, R361) -/

/-- A scan begins, afresh where one runs. -/
def State.eyeStart (s : State) (l : Nat) : State := (s.setLane l { s.lane l with scan := true }).wr Reg.SDS_EYECTL_DONE 0 l

def execEyectlStart (l : Fin 32) (s : State) : Host.Outcome State Fault Refusal :=
  finish (
    let s := s.hostAccess Reg.SDS_EYECTL_START l
    s.eyeStart l)

/-- A scan ends with its count. -/
def execEyeScanEnd (l : Fin 32) (count : Nat) (s : State) : Host.Outcome State Fault Refusal :=
  finish (
    if !(s.lane l).scan then s else
    ((s.setLane l { s.lane l with scan := false }).wr Reg.SDS_EYECTL_DONE 1 l).wr Reg.SDS_EYERES_COUNT (min count (2 ^ 32 - 1)) l)

/-- BITS consecutive bits leave a lane inverted. -/
def State.injectLane (s : State) (l : Nat) : State :=
  (s.incWrap Reg.SDS_INJCNT_COUNT 1 l).emit (.inject l (s.rd Reg.SDS_INJCTL_BITS l))

/-- FIRE, in mode 1, under the lock of the TST block. -/
def State.injFire (s : State) (l : Nat) : State :=
  if s.rd Reg.TST_LOCKSTAT_OPEN = 1 ∧ s.rd Reg.SDS_INJCTL_MODE l = 1 ∧ s.lanePasses l then s.injectLane l else s

def execInjctlFire (l : Fin 32) (s : State) : Host.Outcome State Fault Refusal :=
  finish (
    let s := s.hostAccess Reg.SDS_INJCTL_FIRE l
    s.injFire l)

/-- A lane's UI in 10^-15 s (R347); PCIe at the trained speed, 2.5 to 32 GT/s. -/
def State.uiFs (s : State) (l : Nat) : Nat :=
  if l < 24 then 18824 else [400000, 400000, 200000, 125000, 62500, 31250].getD (s.rd Reg.HIF_LINKSTAT_SPEED) 31250

/-- The spacing of mode 2 in ns: INJPERIOD UI, at least 1,024. -/
def State.injSpace (s : State) (l : Nat) : Nat := max 1024 (s.rd Reg.SDS_INJPERIOD_UI l) * s.uiFs l / 1000000

/-- Mode 2: every INJPERIOD UI. -/
def execInjectionPeriod (l : Fin 32) (s : State) : Host.Outcome State Fault Refusal :=
  finish (
    let due : Bool := match (s.lane l).injAt with | some t => decide (t + s.injSpace l ≤ s.ns) | none => true
    if s.rd Reg.SDS_INJCTL_MODE l = 2 ∧ s.lanePasses l ∧ due then (s.setLane l { s.lane l with injAt := some s.ns }).injectLane l else s)

/-! ### Reference clocks (R508) -/

/-- A SerDes reference clock stops: pair p feeds quads 2p and 2p + 1. -/
def execSerdesRefclkLoss (pair : Fin 4) (s : State) : Host.Outcome State Fault Refusal :=
  finish (
    let s := { s with pcr := { s.pcr with quadsOff := s.pcr.quadsOff ||| (3 * 4 ^ pair.val) } }
    (s.quadOff (2 * pair)).quadOff (2 * pair + 1))

/-- It returns: the quads start again while their clocks may run. -/
def execSerdesRefclkReturn (pair : Fin 4) (s : State) : Host.Outcome State Fault Refusal :=
  finish (
    if !s.pcr.quadsOff.testBit (2 * pair) then s else
    let s := { s with pcr := { s.pcr with quadsOff := s.pcr.quadsOff ^^^ (3 * 4 ^ pair.val) } }
    if s.fclk ∧ (s.dev ≠ 0 ∨ s.pcr.stage = 2) then (s.quadOn (2 * pair)).quadOn (2 * pair + 1) else s)

end Sys2Proof.Machine
end

