-- ==== Sys2Proof/Machine/Tick.lean ====
section
/-! DEFINITION. The Spindle's tick (R210, R211): delay lists, commits of no channel (R220), starts, and what the pair controller
does by the clock. -/

namespace Sys2Proof.Machine

/-- The order in which due tasks leave the delay lists: what an earlier tick left first, then list number, release tick, GSEQ
(R211). -/
def delayBefore (prev : Nat) (a b : Task) : Bool :=
  let k (t : Task) : List Nat := [bit (!decide (t.release ≤ prev)), t.flow % 16, t.release, t.gseq]
  decide (k a < k b)

/-- Insertion by that order. -/
def insDelay (prev : Nat) (e : Nat × Task) : List (Nat × Task) → List (Nat × Task)
  | [] => [e]
  | x :: r => if delayBefore prev e.2 x.2 then e :: x :: r else x :: insDelay prev e r

/-- Due tasks leave the delay lists, at most 1,500 at a tick. -/
def State.moveDue (s : State) (prev : Nat) : State :=
  let due := (s.spd.tasks.filter fun e => e.2.state = 2 && decide (e.2.release ≤ s.tick)).foldl (fun l e => insDelay prev e l) []
  let s := (due.take 1500).foldl (fun (s : State) e => s.moveTask e.1) s
  if due.length ≤ 1500 then s else (s.incSat Reg.SPD_DELAYLATE_COUNT).ev (evSpd 4)

/-- A commit of no channel applies (R220). -/
def State.devApply (s : State) (c : Commit) : State :=
  let s := match c.kind with
    | .window m w en cyc st len => s.applyWindow m w en cyc st len
    | .audPort p flags frame slot rate pre post group => s.audApply p flags frame slot rate pre post group
    | .handover key => s.handover key
    | _ => s
  s.commitDone c

/-- Commits of no channel whose points have come, in the order of their flow. -/
def State.devDue (s : State) : State :=
  let due := s.spd.devCommits.filter fun c => decide (c.ns ≤ s.ns)
  let due := due.foldl (fun l c => insCommit c l) []
  let s := { s with spd := { s.spd with devCommits := s.spd.devCommits.filter fun c => !decide (c.ns ≤ s.ns) } }
  due.foldl State.devApply s

/-- A start whose time has come takes effect, and the tasks of the first row slot are placed (R36, R212). -/
def State.startDue (s : State) (n : Nat) : State :=
  match (s.chan n).commits.find? fun c => c.kind = .start && decide (c.ns ≤ s.ns) with
  | none => s
  | some c =>
    let s := s.setChan n { s.chan n with commits := (s.chan n).commits.erase c }
    let s := s.startChan n
    ((s.buildSlot n (s.chan n).nextFrame (s.chan n).nextRow).commitDone c).maskCheck

/-- The time base reaches its next whole microsecond. A tick that lags after a step forward catches up at once, and one that a
step backward left ahead waits. -/
def State.tickTime (s : State) : State :=
  let t := s.ns / 1000
  let s := if s.tick < t then s else s.at ((t + 1) * 1000)
  s.wr Reg.SPD_TICK_US (max s.tick (s.ns / 1000))

/-- One tick. -/
def execSpindleTick (s : State) : Host.Outcome State Fault Refusal :=
  finish (
    if !s.fclk then s else
    let prev := s.tick
    let s := s.tickTime.txDue
    let s := ((s.moveDue prev).devDue).forEach (List.range 64) State.startDue
    ((s.claimTick).pairLift).joinSweeps.tryUnmute)

end Sys2Proof.Machine
end

