-- ==== Sys2Proof/Machine/RegCore.lean ====
section
/-! DEFINITION. Register fields as they are written: locks (R10), the bounds and reserved values of each field, and the settings
that the management core loads (R108, R487). -/

namespace Sys2Proof.Machine

def Row.is (r q : Row) : Bool := r.id == q.id

/-- A value kept between two bounds. -/
def nearer (lo hi v : Nat) : Option Nat := some (max lo (min hi v))

/-- What a write of `v` to a field stores (none: the field keeps its value): bounds, values that other fields limit, reserved
values (R12) and bits that read as zero. -/
def State.fieldRule (s : State) (r : Row) (v i : Nat) : Option Nat :=
  if Row.is r Reg.INP_MERGECTL_WIN_US then nearer 20 1000 v
  else if Row.is r Reg.SPD_PROTCTL_MAX then some (max 1 v)
  else if Row.is r Reg.SHP_MACSTAT_LATETOL then some (max 100 v)
  else if Row.is r Reg.CST_SCRUBCTL_INTERVAL then some (max 256 v)
  else if Row.is r Reg.BLT_DEADMIN_CYCLES then some v
  else if Row.is r Reg.DMC_REFCFG_POSTMAX then nearer 0 8 v
  else if Row.is r Reg.DMC_REFCFG_MR4_INT then some (max 16 v)
  else if Row.is r Reg.DMC_GUARDCFG_THR then nearer 256 16384 v
  else if Row.is r Reg.DMC_GUARDCFG_RADIUS then (if v = 1 ∨ v = 2 then some v else none)
  else if Row.is r Reg.DMC_SCRUB_INTERVAL then some (max 64 v)
  else if Row.is r Reg.MTX_PARK_MASTER then (if v = 15 then none else some v)
  else if Row.is r Reg.HIF_LINKCTL_MAXSPEED then (if 1 ≤ v ∧ v ≤ 5 then some v else none)
  else if Row.is r Reg.NET_PORTCFG_SPLIT then (if v = 3 then none else some v)
  else if Row.is r Reg.TIM_SERVOCTL_LOCK_NS then some (max 1 v)
  else if Row.is r Reg.TIM_SERVOCTL_UNLOCK_NS then some (max (s.rd Reg.TIM_SERVOCTL_LOCK_NS) v)
  else if Row.is r Reg.TIM_SLEW_PPM then nearer 1 200 v
  else if Row.is r Reg.TIM_STEPCTL_STEP_NS then some (max 1000 v)
  else if Row.is r Reg.SDS_ADAPTCTL_INTERVAL_MS then some (max 1 v)
  else if Row.is r Reg.SDS_EYECTL_LOG2BITS then nearer 20 31 v
  else if Row.is r Reg.SDS_EYECTL_PHASE then (if v < 32 ∨ 96 ≤ v then some v else none)
  else if Row.is r Reg.SDS_INJCTL_MODE then (if v = 3 then none else some v)
  else if Row.is r Reg.SDS_INJCTL_BITS then nearer 1 8 v
  else if Row.is r Reg.PCR_TEMPWARN_DECI_C then nearer 600 1050 v
  else if Row.is r Reg.PCR_TEMPWARN_BTEMP then nearer 0 1250 v
  else if Row.is r Reg.TST_BPINJ_PORT then (if 48 ≤ v then none else some v)
  else if Row.is r Reg.TST_CPLDELAY_QID then (if 67 ≤ v then none else some v)
  else if Row.is r Reg.TST_REFSKEW_NS then some (toTwos 32 (clampZ (-100000) 100000 (ofTwos 32 v)))
  else if Row.is r Reg.TST_CHKINJ_KIND then (if 5 ≤ v then none else some v)
  else if Row.is r Reg.TST_CHKINJ_TARGET then
    (let k := s.rd Reg.TST_CHKINJ_KIND
     if k = 0 then some v else some (min v (if k ≤ 2 then 47 else if k = 3 then 3 else 23)))
  else if Row.is r Reg.TST_CHKINJ_COUNT then some (max 1 v)
  else if Row.is r Reg.EVT_MASK_BITS then some (if i = 21 then v % 2 ^ 20 else v)
  else if Row.is r Reg.REF_DESCBASE_ADDR ∨ Row.is r Reg.CMP_TILEBASE_ADDR ∨ Row.is r Reg.HIF_AQSQBASE_ADDR ∨ Row.is r Reg.HIF_AQCQBASE_ADDR ∨
      Row.is r Reg.HIF_EQSQBASE_ADDR ∨ Row.is r Reg.HIF_EQCQBASE_ADDR then some (v / 64 * 64)
  else if Row.is r Reg.REF_FBBASE_ADDR ∨ Row.is r Reg.REF_FBSIZE_BYTES then some (v / 65536 * 65536)
  else some v

/-- A field is written: REFCFG is device-wide (R407), FBFREE and FBLARGEST follow the region (R108), and RXINV shows RXINV_FORCE where detection is off (R355). -/
def State.fieldPut (s : State) (r : Row) (v i j : Nat) : State :=
  match s.fieldRule r (v % 2 ^ r.w) (if Row.is r Reg.EVT_MASK_BITS then j else i) with
  | none => s
  | some v =>
    if Row.is r Reg.DMC_REFCFG_POSTMAX ∨ Row.is r Reg.DMC_REFCFG_MR4_INT then s.allDmc fun s c => s.wr r v c
    else
      let s := s.wr r v i j
      if (Row.is r Reg.SDS_LCTL_RXINV_FORCE ∨ Row.is r Reg.SDS_LCTL_RXINV_AUTO) ∧ s.rd Reg.SDS_LCTL_RXINV_AUTO i = 0 then
        s.wr Reg.SDS_LSTAT_RXINV (s.rd Reg.SDS_LCTL_RXINV_FORCE i) i
      else if Row.is r Reg.REF_FBBASE_ADDR ∨ Row.is r Reg.REF_FBSIZE_BYTES then s.fbCounts
      else s

/-- Fields of one register are written together, as (row, instance, index, value). A write whose FAIL is not below WARN, or whose
PRE, MAIN and POST exceed 63 together, is discarded whole (R351, R352). -/
def State.regPut (s : State) (l : List (Row × Nat × Nat × Nat)) : State :=
  let get (q : Row) := match l.find? fun e => Row.is e.1 q with | some e => e.2.2.2 % 2 ^ q.w | none => 0
  let has (q : Row) := l.any fun e => Row.is e.1 q
  if has Reg.SDS_FOMTHR_FAIL && decide (get Reg.SDS_FOMTHR_WARN ≤ get Reg.SDS_FOMTHR_FAIL) then s
  else if has Reg.SDS_TXEQ_MAIN && decide (63 < get Reg.SDS_TXEQ_PRE + get Reg.SDS_TXEQ_MAIN + get Reg.SDS_TXEQ_POST) then s
  else l.foldl (fun s e => s.fieldPut e.1 e.2.2.2 e.2.1 e.2.2.1) s

/-! ### Locks -/

/-- The injection fields of a lane stand under the lock of the TST block (R361). -/
def injField (r : Row) : Bool :=
  Row.is r Reg.SDS_INJCTL_MODE || Row.is r Reg.SDS_INJCTL_BITS || Row.is r Reg.SDS_INJPERIOD_UI

/-- The lock of an RWL field is open: TST's own, HIF's while AQ and EQ are off (R257), or DEV_BOOT (R108, R423). -/
def State.lockOpen (s : State) (r : Row) : Bool :=
  if r.base = 0x50000 ∨ injField r then s.rd Reg.TST_LOCKSTAT_OPEN = 1
  else if r.base = 0 then s.rd Reg.HIF_AQCTL_ENABLE = 0 && s.rd Reg.HIF_EQCTL_ENABLE = 0
  else s.dev = 0

/-- A write reaches a field: RW always, RWL while its lock is open; REFCFG through `DMC[0]` alone. -/
def State.writable (s : State) (r : Row) (i : Nat) : Bool :=
  (match r.typ with
   | .rw => true
   | .rwl => s.lockOpen r
   | _ => false) &&
  !((Row.is r Reg.DMC_REFCFG_POSTMAX || Row.is r Reg.DMC_REFCFG_MR4_INT) && i ≠ 0)

/-- Where a BAR0 word holds a field: instance, index and the word's bit offset in the register. Selected entries share one address
(instance 0 here). -/
def rowPlace (r : Row) (a : Nat) : Option (Nat × Nat × Nat) :=
  let d := a - r.base
  let i := if r.stride = 0 ∨ r.view ≠ 0 then 0 else d / r.stride
  let e := d - i * r.stride
  let f := e - r.off
  let j := if r.rs = 0 then 0 else f / r.rs
  let k := (f - j * r.rs) * 8
  if a < r.base ∨ e < r.off ∨ r.n ≤ i ∨ r.rn ≤ j ∨ r.lo + r.w ≤ k ∨ k + 32 ≤ r.lo ∨ 64 ≤ k then none else some (i, j, k)

/-- The bits of a field that lie in the word at bit offset `k` of its register, in place. -/
def rowMask (r : Row) (k : Nat) : Nat := (2 ^ r.w - 1) * 2 ^ r.lo / 2 ^ k % 2 ^ 32

/-- A field with the word at bit offset `k` replaced. -/
def rowMerge (r : Row) (k old word : Nat) : Nat :=
  let reg := old * 2 ^ r.lo
  let keep := reg - reg / 2 ^ k % 2 ^ 32 * 2 ^ k
  (keep + (word &&& rowMask r k) * 2 ^ k) / 2 ^ r.lo % 2 ^ r.w

/-! ### Settings (R487, R488) -/

/-- The fields that the settings store holds as items: the RWL fields of the blocks loaded from it, and the time base's defaults. -/
def settable (r : Row) : Bool :=
  (r.typ = .rwl && !injField r &&
    ([0x480000, 0x80000, 0x780000, 0x100000, 0x120000, 0x160000, 0x180000, 0x200000, 0x40000].contains r.base || Row.is r Reg.HIF_LINKCTL_MAXSPEED)) ||
  [Reg.TIM_TIMSTAT_TC_A, Reg.TIM_TIMSTAT_TC_B, Reg.TIM_TIMSTAT_PROFILE, Reg.TIM_TIMSTAT_DOMAIN, Reg.TIM_TIMSTAT_ANNOUNCE_TO,
    Reg.TIM_MACCOMP_INGRESS_PS, Reg.TIM_MACCOMP_EGRESS_PS, Reg.TIM_MACCOMP_ASYM_PS].any (Row.is r)

/-- The row of a field by its number. -/
def rowById (id : Nat) : Option Row := Reg.all.find? fun r => r.id = id

/-- One register takes its items: each of its fields at the item's value, or as it stands. -/
def State.loadItem (s : State) (area : Tab (Option Nat)) (key : Nat) : State :=
  match rowById (key / 2 ^ 24) with
  | none => s
  | some r =>
    let i := key / 4096 % 4096
    let j := key % 4096
    let mates := Reg.all.filter fun q => q.base = r.base && q.off = r.off && q.rs = r.rs && settable q
    s.regPut (mates.map fun q => (q, i, j, ((tget none area (rowKey q i j)).getD (s.rd q i j))))

/-- The settings area in force is loaded. -/
def State.loadSettings (s : State) (area : Tab (Option Nat)) : State := (keys area).foldl (fun s k => s.loadItem area k) s

end Sys2Proof.Machine
end

