-- ==== Sys2Proof/Machine/Reset.lean ====
section
/-! DEFINITION. Reset and boot (R452 to R464, R472 to R489): what a reset leaves, the fuses, the choice of an image, the settings
and DRAM of a boot, and its end. -/

namespace Sys2Proof.Machine

/-! ### What a reset leaves (R10, R459 to R463) -/

/-- The fields a warm reset keeps: the RWS fields, and the strap, which only a cold reset samples. -/
def keptRows : List Row := Reg.PAIR_PAIRSTAT_SLOT :: Reg.all.filter fun r => r.typ = .rws

/-- The output pins take their levels in reset (R464). -/
def State.pinsOff (s : State) : State :=
  let s := s.giveUpLock
  let s := if s.pair.hbLevel then (s.setPair { s.pair with hbLevel := false }).emit (.pin .hbOut false) else s
  if s.rd Reg.AUD_MCLKCTL_OUT = 1 then s.emit (.pin .mclkOut false) else s

/-- PWR_MAIN_EN is driven. -/
def State.mainEn (s : State) (v : Bool) : State :=
  if s.pcr.en = v then s else ({ s with pcr := { s.pcr with en := v } }).emit (.pin .pwrMainEn v)

/-- The state right after a reset is asserted. What is non-volatile, the commands that wait and what has left the block stand; a warm
reset keeps DRAM and the fields of `keptRows` as well. -/
def State.afterReset (s : State) (cold : Bool) : State :=
  { State.reset with
    pending := s.pending, out := s.out, fresh := s.fresh,
    regs := if cold then [] else s.regs.filter fun e => keptRows.any fun r => r.id = e.1 / 2 ^ 24,
    mem := { flash := s.mem.flash, dram := if cold then [] else s.mem.dram, dramBad := if cold then [] else s.mem.dramBad },
    pcr := { kind := if cold then 1 else 2, fails := 0, en := s.pcr.en, rails := !cold && s.pcr.rails, refLost := s.pcr.refLost,
             quadsOff := s.pcr.quadsOff, perstN := s.pcr.perstN },
    mgt := { nv := s.mgt.nv, confirming := s.mgt.confirming, erase := s.mgt.erase, allow := s.mgt.nv.allow } }

/-- A reset is recognised (R459, R460). A warm one in the middle of another is discarded and counted; a cold one restarts it. The lock of the TST block closes with it (R494). The records of what came
before it are out; entry to DEV_BOOT is an event of the reset itself (R458), which the AO domain holds. -/
def State.startReset (s : State) (cold : Bool) (cause : Nat) : State :=
  if !cold && decide (s.pcr.kind ≠ 0) then s.incSat Reg.PCR_RSTCNT_MERGED else
  let trip := s.rd Reg.PCR_ALARM_BITS &&& 64
  let old := s.dev
  let s := s.tstClose.evFlush.pinsOff
  let s := if cold then s.mainEn false else s
  let s := s.afterReset cold
  let s := if cold then s else (s.incSat Reg.PCR_RSTCNT_WARM).wr Reg.PCR_ALARM_BITS trip
  let s := s.wr Reg.PCR_RSTCAUSE_CAUSE cause
  if old = 0 then s else s.ev (evPcr 0) 255 (16 * old)

/-! ### Fuses, slots and settings -/

/-- The fuses are sensed (R462). The VDD_CORE target is rounded up to 5 mV (R454). -/
def State.senseFuses (s : State) : State :=
  let f := s.mgt.nv.fuse
  let s := (s.wr Reg.PCR_LCSTAT_STATE f.lc).wr Reg.PCR_LCSTAT_RELEASES f.releases
  ((s.wr Reg.PCR_AVS_MV (cdiv f.avs 5 * 5)).wr Reg.MGT_SVN_MIN f.svnMin).wr Reg.PAIR_OCN_LOCAL f.ocn

def NonVol.img (v : NonVol) (slot : Nat) : Img := if slot = 0 then v.imgA else v.imgB
def NonVol.setImg (v : NonVol) (slot : Nat) (i : Img) : NonVol := if slot = 0 then { v with imgA := i } else { v with imgB := i }

/-- The settings area of the image in a slot. -/
def SlotRec.area (r : SlotRec) (slot : Nat) : Nat := if slot = 0 then r.areaA else r.areaB
def SlotRec.setArea (r : SlotRec) (slot a : Nat) : SlotRec := if slot = 0 then { r with areaA := a } else { r with areaB := a }
/-- The journal of an area, and the newest record of each item in it (R487). -/
def NonVol.log (v : NonVol) (a : Nat) : List (Nat × Nat) := if a = 0 then v.log0 else v.log1
def NonVol.setLog (v : NonVol) (a : Nat) (l : List (Nat × Nat)) : NonVol := if a = 0 then { v with log0 := l } else { v with log1 := l }
def newest (l : List (Nat × Nat)) : Tab (Option Nat) := l.foldl (fun t e => tset none t e.1 (some e.2)) []
def NonVol.items (v : NonVol) (a : Nat) : Tab (Option Nat) := newest (v.log a)
/-- A journal with the newest record of each item alone. -/
def packLog (l : List (Nat × Nat)) : List (Nat × Nat) := (newest l).filterMap fun e => e.2.map fun x => (e.1, x)
/-- The settings area in force. -/
def NonVol.live (v : NonVol) : Nat := v.slots.area v.slots.active

def State.setNv (s : State) (v : NonVol) : State := { s with mgt := { s.mgt with nv := v } }

/-- The slot record is written over its older copy, with the next sequence number (R476). -/
def State.putSlots (s : State) (r : SlotRec) : State :=
  let v := s.mgt.nv
  s.setNv { v with slots := { r with seq := v.slots.seq + 1 }, slots2 := v.slots }

/-- The MGT mirror shows the records (R491). -/
def State.mgtShow (s : State) : State :=
  let v := s.mgt.nv
  let r := v.slots
  let g := v.staged
  let s := (s.wr Reg.MGT_UPDSTAT_STATE (if r.trial then 6 else g.st)).wr Reg.MGT_UPDSTAT_TRIALS r.trials
  let s := (s.wr Reg.MGT_UPDSTAT_SLOT r.active).wr Reg.MGT_UPDSTAT_LASTFAIL r.lastFail
  let s := (s.wr Reg.MGT_ACTVER_VERSION (v.img r.active).version).wr Reg.MGT_PREVVER_VERSION (v.img r.prev).version
  let s := (s.wr Reg.MGT_STAGEVER_VERSION (if g.st = 0 then 0 else g.version)).wr Reg.MGT_SVN_MIN v.fuse.svnMin
  let s := (s.wr Reg.MGT_SVN_ACTIVE (v.img r.active).svn).wr Reg.MGT_SETAREA_ACTIVE v.live
  let s := (s.wr Reg.MGT_SETAREA_FORMAT (v.img r.active).setfmt).wr Reg.MGT_SETWEAR_PASSES v.passes
  let s := (s.wr Reg.MGT_BLOCKS_TOTAL (if g.st = 0 then 0 else cdiv g.length 1024)).wr Reg.MGT_BLOCKS_WRITTEN s.mgt.blocks.length
  s.wr Reg.PCR_LCSTAT_UPDATE_LOCK (bit (v.updLock && v.fuse.lc = 2))

/-- The staging slot is erased in the background, as after a confirmation, a discard or a fallback (R479). -/
def State.eraseStaging (s : State) : State := { s with mgt := { s.mgt with erase := some [], blocks := [] } }

/-- Fall back to the previous image (R477): it becomes active and confirmed; what was set during the trial is lost (R489). -/
def State.fallBack (s : State) (why : Nat) : State :=
  let v := s.mgt.nv
  let r := v.slots
  let s := s.setNv (v.setLog (r.area r.active) [])
  (s.putSlots { r with active := r.prev, prev := r.active, trial := false, trials := 0, lastFail := why, fell := true }).eraseStaging

/-- The trial image is confirmed (R484): both copies of the record say so, the fused minimum SVN rises, the other area is released. -/
def State.confirmWrite (s : State) : State :=
  let r := { s.mgt.nv.slots with trial := false, trials := 0, lastFail := 0 }
  let s := (s.putSlots r).putSlots r
  let v := s.mgt.nv
  let v := { v with fuse := { v.fuse with svnMin := max v.fuse.svnMin (v.img r.active).svn } }
  ((s.setNv (v.setLog (r.area r.prev) [])).eraseStaging).mgtShow

/-! ### The image of a boot (R475 to R477, R485, R489) -/

/-- The staging record at a boot: what was being received is discarded, and a container received is verified from its first byte. -/
def State.bootStaging (s : State) : State :=
  let v := s.mgt.nv
  let st := v.staged.st
  if st = 1 then (s.setNv { v with staged := {} }).eraseStaging
  else if st = 2 ∨ st = 3 then
    { (s.setNv { v with staged := { v.staged with st := 3 } }) with mgt := { s.mgt with nv := { v with staged := { v.staged with st := 3 } }, blocks := List.range (cdiv v.staged.length 1024), upd := true } }
  else if st = 4 then { s with mgt := { s.mgt with blocks := List.range (cdiv v.staged.length 1024), upd := true } }
  else s

/-- A confirmation that a loss of power or a reset cut short is in force when its new copy is whole (R484, R485). -/
def State.bootConfirm (s : State) (torn : Bool) : State :=
  if !s.mgt.confirming then s else
  let s := { s with mgt := { s.mgt with confirming := false } }
  if torn then s else s.confirmWrite

/-- The trial's book-keeping at a boot: the third unconfirmed boot was the last, a trial image that fails R474 falls back, and the first
trial boot converts the settings into the area that the other image does not use. Answers whether the record fell back now, and
whether conversion failed. -/
def State.bootTrial (s : State) (b : BootInfo) : Bool × Bool × State :=
  let v := s.mgt.nv
  let r := v.slots
  if !r.trial then (false, false, s)
  else if 3 ≤ r.trials then (true, false, s.fallBack 1)
  else if b.bad.testBit 0 then (true, false, s.fallBack 3)
  else
    let s := s.putSlots { r with trials := r.trials + 1 }
    if 0 < r.trials then (false, false, s)
    else if !b.convert then (true, true, s.fallBack 2)
    else
      let a := 1 - r.area r.prev
      let s := s.putSlots (s.mgt.nv.slots.setArea r.active a)
      (false, false, s.setNv (s.mgt.nv.setLog a (packLog (s.mgt.nv.log (r.area r.prev)))))

/-- The candidates in order: active slot, previous slot, recovery image (R475). Answers 0 for a slot, 1 for the recovery image, 2 for
none. -/
def bootPick (bad : Nat) (fell : Bool) : Nat :=
  let first := if fell then bad.testBit 1 else bad.testBit 0
  let second := if fell then bad.testBit 0 else bad.testBit 1
  if !first || !second then 0 else if !bad.testBit 2 then 1 else 2

/-- The first boot of the previous image reports the fallback, and a failed conversion once more (R477, R489). -/
def State.bootFell (s : State) : State :=
  let r := s.mgt.nv.slots
  if !r.fell ∨ r.trial then s else
  let s := (s.setNv { s.mgt.nv with slots := { r with fell := false } }).ev (evMgt 7)
  if r.lastFail = 2 then s.ev (evMgt 8) else s

/-! ### DRAM of a boot (R391, R402, R410) -/

/-- Bytes of DRAM that software can use: 31/32 of the raw capacity (R393, R410). -/
def usableDram (density ranks : Nat) : Nat :=
  24 * (ranks % 2 + 1) * (([4, 6, 8, 12, 16, 24, 32].getD density 4) * 2 ^ 27) / 32 * 31

/-- The lowest point trained on every channel (R392). -/
def commonPoint (trained : List Nat) : Option Nat :=
  (List.range 4).find? fun p => (List.range 24).all fun c => (trained.getD c 0).testBit p

/-- Every channel's geometry and trained points are found; a channel of another population, or that trains at no point, is in FAULT.
Answers the channels in FAULT, and whether a point is common. -/
def State.bootDram (s : State) (b : BootInfo) : Nat × Bool × State :=
  let fault (c : Nat) : Bool := b.pop.testBit c || b.trained.getD c 0 % 16 = 0
  let pt := (commonPoint b.trained).getD 0
  let s := s.allDmc fun s c =>
    let s := ((s.wr Reg.DMC_GEOM_DENSITY b.density c).wr Reg.DMC_GEOM_RANKS b.ranks c).wr Reg.DMC_TRFC_NS (tRfc b.density) c
    let s := (s.wr Reg.DMC_CHSTAT_TRAINED (b.trained.getD c 0) c).wr Reg.DMC_CHSTAT_POINT pt c
    (s.wr Reg.DMC_CHSTAT_STATE (if fault c then 5 else 3) c).dmcStatus c (if fault c then 7 else 3)
  let s := s.wr Reg.MTX_DRAMSIZE_BYTES (usableDram b.density b.ranks)
  let s := ((s.fieldPut Reg.REF_DESCBASE_ADDR (b.layout.getD 0 0) 0 0).fieldPut Reg.REF_FBBASE_ADDR (b.layout.getD 1 0) 0 0).fieldPut
    Reg.REF_FBSIZE_BYTES (b.layout.getD 2 0) 0 0
  let s := (s.fieldPut Reg.CMP_TILEBASE_ADDR (b.layout.getD 3 0) 0 0).fieldPut Reg.CMP_TILESIZE_BYTES (b.layout.getD 4 0) 0 0
  let s := (s.wr Reg.CMP_TILEFREE_TILES (s.rd Reg.CMP_TILESIZE_BYTES / 20480)).fbCounts
  let due := s.t16 + tRefi 0
  let s := { s with dmc := { s.dmc with last := s.t16, due := due }, spd := { s.spd with refNext := some (cdiv due 16) } }
  ((List.range 24).foldl (fun m c => m + 2 ^ c * bit (fault c)) 0, (commonPoint b.trained).isSome, s)

/-! ### The boot -/

/-- A change of power state raises EV_PCR_POWER_STATE (R455). -/
def State.setPower (s : State) (new : Nat) : State :=
  let old := s.rd Reg.PCR_DEVSTAT_PSTATE
  if old = new then s else (s.wr Reg.PCR_DEVSTAT_PSTATE new).ev (evPcr 1) 255 (new + 16 * old)

/-- The quads whose clocks run leave LN_OFF. -/
def State.quadsStart (s : State) : State :=
  s.forEach (List.range 8) fun s q => if s.pcr.quadsOff.testBit q then s else s.quadOn q

/-- Why a boot ends in DEV_SAFE: the image, the code of a processor, the DRAM. -/
def bootStop (pick : Nat) (code : Option Nat) (faults : Nat) (common : Bool) : Option (Nat × Nat) :=
  if pick = 1 then some (6, 0x1FE) else if pick = 2 then some (6, 0xFF)
  else match code with
    | some p => some (6, p % 256)
    | none => if faults ≠ 0 ∨ !common then some (1, faults) else none

/-- The engines and the blitters go through self-test (R81, R181). That a blitter, which a reset leaves out of service, returns to it by a self-test of the boot
is DEDUCED from R181 and R209 (log entry 105). -/
def State.bootTests (s : State) : State :=
  let s := s.forEach (List.range 32) fun s e => s.engTest e true 0
  s.forEach (List.range 8) fun s u => (s.wr Reg.BLT_UNITSTAT_STATE 2 u).putSelftest (96 + u) 3

/-- The descriptor table stands in DRAM from the end of the boot, with no descriptor reserved (R99). -/
def State.refInit (s : State) : State := s.forEach (List.range 1024) State.descWrite

/-- Records of the live settings area fail their CRC as they are loaded: each is ignored, so that its item keeps its previous value (R487). -/
def State.badRecords (s : State) (bad : List Nat) : State :=
  let v := s.mgt.nv
  let l := (v.log v.live).zipIdx
  let s := (l.filter fun e => bad.contains e.2).foldl (fun s _ => s.ev (evMgt 9)) s
  s.setNv (v.setLog v.live ((l.filter fun e => !bad.contains e.2).map (·.1)))

/-- From the PLL step on (R462): power state IDLE, the wipes, the image, settings, DRAM, quads and self-tests. -/
def State.bootPll (s : State) (b : BootInfo) : State :=
  let s := { s with pcr := { s.pcr with stage := 2, boot := some b, fails := 0 } }
  let s := s.setPower 2
  let s := ((s.wr Reg.CST_CSTSTAT_WIPING 1).wr Reg.CST_CSTSTAT_READY 0).wr Reg.CMP_EMBASE_ADDR 0x5F000000
  let s := { s with cst := { s.cst with wipeAt := s.ns } }
  let s := s.senseFuses.bootStaging.bootConfirm b.torn
  let (fell, failed, s) := s.bootTrial b
  if failed then { (s.ev (evMgt 8)) with pcr := { s.pcr with kind := 0 } }.startReset false 5 else
  let pick := bootPick b.bad fell
  let s := (if pick = 0 then s.bootFell else s).mgtShow
  let s := s.wr Reg.PAIR_OCN_LOCAL s.actImg.ocn
  let s := s.badRecords b.badRecs
  let s := s.loadSettings (s.mgt.nv.items s.mgt.nv.live)
  let (faults, common, s) := s.bootDram b
  let s := s.loadBanks.quadsStart.bootTests
  let s := if pick = 1 then (s.wr Reg.MGT_UPDSTAT_RECOVERY 1).ev (evMgt 11) else s
  match bootStop pick b.code faults common with
  | some (c, i) => s.enterSafe c i
  | none => s

/-- REMAP.ZERO is written (R412): a change raises EV_MTX_REMAP. -/
def State.remap (s : State) (v : Bool) : State :=
  if s.dev ≠ 0 ∨ s.rd Reg.MTX_REMAP_ZERO = bit v then s else (s.wr Reg.MTX_REMAP_ZERO (bit v)).ev (evMtx 3)

/-- HFLAGS[2] (R482). -/
def State.setUpd (s : State) (v : Bool) : State := { s with mgt := { s.mgt with upd := v } }

/-- Boot ends (R458, R471, R492); a trial image keeps HFLAGS[2] set until it is confirmed. -/
def State.endBoot (s : State) : State :=
  let b := s.pcr.boot.getD {}
  let s := (s.wr Reg.PCR_BOOTTIME_MS b.ms).wr Reg.PCR_WIPETIME_DRAM_MS (if s.pcr.kind = 1 then b.dramMs else 0)
  let s := { (s.remap true) with pcr := { s.pcr with kind := 0 } }
  let trial := s.mgt.nv.slots.trial
  let s := s.refInit
  let s := (s.setDev (if trial then 3 else 1) 0).ev (evPcr 2) 255 (s.rd Reg.PCR_RSTCAUSE_CAUSE)
  if trial then (s.ev (evMgt 5)).setUpd true else s

end Sys2Proof.Machine
end

