-- ==== Sys2Proof/Machine/Tasks.lean ====
section
/-! DEFINITION. Dispatch and completion of tasks (R164, R165, R208, R213 to R216, R221, R225), and what each completed
task leaves behind (R67, R73, R77, R79, R83, R94, R95, R104, R107, R119, R138, R157, R159, R198, R297). -/

namespace Sys2Proof.Machine

/-! ### Targets (R213, R215) -/

/-- Tasks dispatched to a target. -/
def State.atTarget (s : State) (u : Nat) : Nat := (s.spd.tasks.filter fun e => e.2.state = 4 && e.2.target = u).length

/-- The lowest target of a range with a free slot. -/
def State.freeTarget (s : State) (lo n slots : Nat) : Option Nat := ((List.range n).map (· + lo)).find? fun u => decide (s.atTarget u < slots)

/-- Within 1 µs before a reported refresh, or while one runs, no BLIT or FLATTEN goes to DRAM (R221). -/
def State.nearRefresh (s : State) : Bool :=
  decide (s.ns < s.spd.refEnd) || (match s.spd.refNext with | some t => decide (t ≤ s.ns + 1000) && decide (s.ns ≤ t) | none => false)

/-- The target a READY task can take now. Commits are applied by row releases and ticks; a faulted channel is stopped, and its
tasks wait for OP_CH_RESET (R36, log entry 32). -/
def State.targetFor (s : State) (d : Nat) : Option Nat :=
  let t := s.task d
  if !s.flowOpen t ∨ (t.ch < 64 ∧ s.chSt t.ch = 6) then none
  else if t.kind = kSlice ∨ t.kind = kReencode then s.engineFor t
  else if t.kind = kCompose then s.freeTarget 32 16 1
  else if t.kind = kFlatten then (if s.nearRefresh then none else s.freeTarget 48 1 2)
  else if t.kind = kPack then s.freeTarget 64 16 1
  else if t.kind = kHeader ∨ t.kind = kSubst ∨ t.kind = kReconCopy then s.freeTarget 80 1 4
  else if t.kind = kBlit then
    if s.blitDram (s.blitAt d).2.2 && s.nearRefresh then none
    else ((List.range 8).find? fun u => s.rd Reg.BLT_UNITSTAT_STATE u = 0).map (· + 96)
  else if t.kind = kParamDma then s.freeTarget 104 8 1
  else if t.kind = kSelftest then some t.param
  else if t.kind = kBandFill ∨ t.kind = kBandRefetch then s.freeTarget 112 8 1
  else none

/-- The first task in rank that has a target: at most 16 tasks of each priority are looked at (R214). -/
def State.pickTask (s : State) (cls : Nat) : Option (Nat × Nat) :=
  let ready := (s.readyOf cls).filter fun d => (s.task d).kind ≠ kCommit
  ((List.range 8).flatMap fun p => (ready.filter fun d => (s.task d).prio = p).take 16).findSome? fun d => (s.targetFor d).map fun u => (d, u)

/-- Units that wait in self-test and found no descriptor when they entered it get their task now (R222). -/
def State.testsDue (s : State) (c : Nat) : State :=
  if c = 0 then ((List.range 32).filter fun e => s.engSt e = 3).foldl (fun s e => s.putSelftest e 0) s
  else if c = 3 then ((List.range 8).filter fun u => s.rd Reg.BLT_UNITSTAT_STATE u = 2).foldl (fun s u => s.putSelftest (96 + u) 3) s
  else s

/-- A parameter DMA channel takes the copy of a fetched command (R235). -/
def State.dmaStart (s : State) (d c : Nat) : State :=
  let q := (s.task d).key % 128
  let pos := (s.task d).key / 128
  let s := s.setQue q { s.que q with fetched := markDma (s.que q).fetched pos 2 }
  { s with hif := { s.hif with dmaUse := tset noDma s.hif.dmaUse c (q, pos) } }

/-- A class dispatches one task. -/
def execTaskDispatch (c : Fin 4) (s : State) : Host.Outcome State Fault Refusal :=
  finish (
    if !s.fclk then s else
    let s := (if c = 0 then s.bindStandins else s).testsDue c
    match s.pickTask c with
    | none => s
    | some (d, u) =>
      let k := (s.task d).kind
      let s := if k = kSlice ∨ k = kReencode then s.engStart d u
        else if k = kBlit then s.blitStart d (u - 96)
        else if k = kCompose then
          let t := s.task d
          s.setTask d { t with state := 4, target := u, start := s.ns, snap := t.snap.map fun p => { p with emv := s.emvOf t.ch } }
        else if k = kParamDma then (s.setTask d { s.task d with state := 4, target := u, start := s.ns }).dmaStart d (u - 104)
        else s.setTask d { s.task d with state := 4, target := u, start := s.ns }
      (s.trace 3 d (s.task d).fseq).incWrap Reg.SPD_DISPCNT_COUNT 1 0 c)

/-! ### Composition -/

/-- Store lines of the input ring that layer `k` reads for output line `y`. -/
def State.inLines (s : State) (n k y : Nat) : List Nat :=
  if k = 4 ∨ s.emFull n then [] else
  match (s.layer (4 * n + k)).bnd with
  | some b =>
    let v := (s.layer (4 * n + k)).act
    if b.fmt ≠ 6 || !v.enable || !(decide (v.dst.getD 1 0 ≤ y) && decide (y < v.dst.getD 1 0 + v.dst.getD 3 0)) then [] else
    (match s.flowIn b.flow with | some x => x.lineAddrs y | none => [])
  | none => []

/-- Every line of memory that the composition of lines `y0` to `y1` − 1 reads. -/
def State.rowReads (s : State) (n y0 y1 : Nat) : List Nat :=
  ((List.range 5).flatMap fun k => (List.range (y1 - y0)).flatMap fun y => s.readLines n k (y0 + y) ++ s.inLines n k (y0 + y)) ++
    (s.rowTiles n y0 y1).flatMap fun k => linesAt (s.tileAddr k) 20480

/-- Damaged layer lines that a composition met, each counted and reported (R157, R198). -/
def State.surfErrs (s : State) (lines : List Nat) : State :=
  lines.foldl (fun s a => ((s.lineRead a 41).incSat Reg.CMP_SURFERR_COUNT).ev (evCmp 4)) s

/-- Damaged lines of the input rings: each picture line that holds one is concealed, counted and reported for its flow (R289). -/
def State.inErrs (s : State) (n : Nat) (view : State) (y0 y1 : Nat) (seen : Nat → Bool) : State :=
  (List.range 4).foldl (fun s k => (List.range (y1 - y0)).foldl (fun s y =>
    let bad := (view.inLines n k (y0 + y)).filter seen
    if bad = [] then s else
    let s := bad.foldl (fun s a => s.lineRead a 41) s
    match (view.layer (4 * n + k)).bnd with
    | some b => (s.incSat Reg.INP_CONCEAL_LINES 1 b.flow).inpEvFrame 1 b.flow
    | none => s) s) s

/-- The variant of a channel's class is not VALID while its emergency layer is composed: once a picture (R159). -/
def State.emInvalid (s : State) (n frame : Nat) (p : CompSnap) : State :=
  let c := s.chan n
  if !p.em ∨ p.emv.getD 0 0 = 1 ∨ c.emInvalidPic = some frame then s
  else (s.setChan n { c with emInvalidPic := some frame }).ev (evCmp 8)

/-- The report of a column came later than R138 allows: release + (c + 2) × T_row / (2 × columns). -/
def Chan.colLate (c : Chan) (release now k : Nat) : Bool := decide ((k + 2) * c.tRow < (now - release) * (2 * c.cols))

/-- Composition writes the columns up to `upto` of its row and reports them (R60, R138). The surfaces are read as they are at this moment (R22), with what its release and
its dispatch fixed. -/
def State.composeDone (s : State) (d upto : Nat) (bad : List (Nat × Nat)) : State :=
  let t := s.task d
  let n := t.ch
  let c := s.chan n
  let p := t.snap.getD {}
  let old := (c.reports t.frame t.row).length
  let upto := min upto c.cols
  if upto ≤ old then s else
  let y0 := t.row * ctuH c.coding.codec
  let y1 := min (y0 + ctuH c.coding.codec) (height c.raster)
  let reads := (s.withSnap n p).rowReads n y0 y1
  let known := reads.filter s.badLine
  let s := (bad.filter fun e => reads.contains (e.1 / 64 * 64)).foldl (fun s e => s.lineDamage e.1 e.2) s
  let seen (a : Nat) : Bool := s.badLine a && (old = 0 || !known.contains a)
  let view := s.withSnap n p
  let rows := view.badRows n y0 y1
  let (lines, tiles) := view.rowBad n y0 y1
  let s := (s.surfErrs (lines.filter seen)).inErrs n view y0 y1 seen
  let s := s.tileErrs n (tiles.filter fun k => (linesAt (s.tileAddr k) 20480).any seen)
  let gf := s.gridOf n t.frame
  let w := ctuH c.coding.codec
  let s := s.rowStore c c.compPages (c.compBase t.frame t.row) t.row (old * w) (min (upto * w) (width c.raster)) (view.outSample n gf rows)
  let s := s.cvuLines (384 + n) ((c.rowLines c.compPages (c.compBase t.frame t.row) t.row (old * w) (min (upto * w) (width c.raster))).map storeLine)
  let s := s.setChan n { s.chan n with
    composed := tset [] (s.chan n).composed (t.frame * 1024 + t.row) (c.reports t.frame t.row ++ List.replicate (upto - old) s.ns) }
  let s := ((List.range upto).filter fun k => old ≤ k && c.colLate (1000 * t.release) s.ns k).foldl (fun s _ =>
    (s.incSat Reg.CMP_ROWLATE_COUNT).ev (evCmp 9)) s
  let s := s.emInvalid n t.frame p
  if upto ≠ c.cols then s else
  ((if t.row + 1 = c.rows then s.cvuEnd (384 + n) else s).taskDone d)

/-! ### The inputs of a slice (R75) -/

/-- The motion field that a buffer holds (R99). -/
def State.motionField (s : State) (n d : Nat) : Bytes :=
  let c := s.chan n
  let (lu, cu, tb) := c.bufParts
  let a := (s.ref d).addr + lu + cu + tb
  if (s.ref d).const || !(s.ref d).mf then [] else (List.range (cdiv (width c.raster) 16 * cdiv (height c.raster) 16 * 8)).map fun i => s.byte (a + i)

/-- What the slice of a task is coded from. Samples right of and below the composed row repeat its edge (log entry 87). -/
def State.sliceIn (s : State) (t : Task) : SliceIn :=
  let n := t.ch
  let c := s.chan n
  { raster := c.raster, coding := c.coding, allIntra := t.allIntra, set := t.rc.set, cap := t.cap, qp := t.qp, forms := t.rc.forms, units := t.rc.units,
    sweeps := t.rc.sweeps, frame := t.frame, poc := (t.frame - c.startFrame) % 65536, row := t.row, col := t.col,
    cur := fun comp x y =>
      let (a, h) := planeRows c.raster c.coding comp t.row
      s.compSample n t.frame t.row comp (padTo x (planeW c.raster comp)) (max a (min (a + h - 1) y.toNat)),
    refs := t.list.zipIdx.map fun (d, p) =>
      { frame := (s.ref d).frame, long := (s.ref d).mark = mkLong, live := t.live.contains d,
        px := if (s.ref d).const then fun _ _ _ => midLevel c.coding else s.bandSample n p t.frame, mf := s.motionField n d } }

/-- The NAL unit type of the slices of a task's picture. -/
def State.sliceNal (s : State) (t : Task) : Nat := picNal (s.chan t.ch).coding.codec false (t.rc.sweeps.any fun w => w.start = t.frame)

/-- A substitute's inputs: the picture's lists and marks as they are now (R106). -/
def State.substIn (s : State) (t : Task) : SliceIn :=
  s.sliceIn { t with list := s.listOf t.ch t.frame, live := s.usable t.ch t.frame, allIntra := s.allIntra t.ch t.frame }

/-- The first damaged store line that a slice reads, and whether it is a line of a band (R95, R198): composed rows over its columns, and the band rows of its window
over the columns of its windows. -/
def State.sliceBadLine (s : State) (t : Task) : Option (Nat × Bool) :=
  let c := s.chan t.ch
  let w := sliceCtus c.raster c.coding.codec * ctuH c.coding.codec
  let x0 := t.col * w
  let x1 := min (x0 + w) (width c.raster)
  match s.badAmong (c.rowLines c.compPages (c.compBase t.frame t.row) t.row x0 x1) with
  | some l => some (l, false)
  | none =>
    let (l, r, _, _) := winReach c.coding.codec
    let a := (x0 : Int) - l
    (s.badAmong ((t.list.zipIdx.filter fun e => t.live.contains e.1 && !(s.ref e.1).const).flatMap fun (_, p) => (c.bandNeeds t.row).flatMap fun k =>
      c.rowLines (c.bandRing p) (c.bandSlot t.frame k * c.rowBytes) k a.toNat (min (x1 + r.toNat) (width c.raster)))).map fun l => (l, true)

/-! ### Slices -/

/-- An engine's counters after a slice (R83, R107). -/
def State.engCounts (s : State) (e : Nat) (t : Task) (ctus : List CtuOut) (maxCtu winCorr : Nat) : State :=
  let c := s.chan t.ch
  let n := sliceCtus c.raster c.coding.codec
  let found (o : CtuOut) := o.found.filterMap id
  let clip := (ctus.map fun o => ((found o).map (·.clipped)).sum).sum
  let fill := ((List.range n).map fun k => fetchAt c.raster c.coding.codec (k = 0) (t.col * n + k)).sum * t.live.length
  let last (p : Nat) : Nat := match ctus.getLast? with | some o => (((o.found.getD p none).map (·.cands.length)).getD 0) | none => 0
  let s := (s.incWrap Reg.ENC_SLICECNT_COUNT 1 e).incWrap Reg.ENC_CTUCNT_COUNT n e
  let s := (s.wr Reg.ENC_LASTSLICE_CYCLES ((s.ns - t.start) * 3 / 2) e).wrMax Reg.ENC_MAXCTU_CYCLES (min maxCtu 65535) e
  let s := if t.standin then s.incWrap Reg.ENC_STANDIN_COUNT 1 e else s
  let s := (s.incWrap Reg.ENC_CLIPCNT_COUNT clip e).incWrap Reg.ENC_MISSCTU_COUNT (if t.allIntra && t.list ≠ [] then n else 0) e
  let s := (s.incWrap Reg.ENC_WINFILL_LINES fill e).incSat Reg.ENC_WINECC_CORR winCorr e
  let s := (s.wr Reg.ENC_LASTSEARCH_CANDS0 (last 0) e).wr Reg.ENC_LASTSEARCH_CANDS1 (last 1) e
  s.incWrap Reg.ENC_BANDWAIT_CYCLES (s.bandWait t) e

/-- Slices of a row wholly in floor form are counted; true when the whole row is (R119). -/
def State.wholeRow (s : State) (n frame row : Nat) (wholly : Bool) : Bool × State :=
  let s := if wholly then s.onSlot n frame row fun x => { x with whole := x.whole + 1 } else s
  match (s.chan n).rc.slots.find? fun x => x.frame = frame && x.row = row with
  | some x => (wholly && x.whole = sliceCols (s.chan n).raster, s)
  | none => (false, s)

/-- What an engine leaves of a coded slice: its record, the floor notes, the reconstruction and motion field (R73, R99, R119). -/
def State.slicePut (s : State) (t : Task) (o : SliceOut) : State :=
  let n := t.ch
  let s := (s.putRecord n 1 t.frame t.row t.col o.bits (s.recFlags n t.frame t.row t.col false) o.nal).recsEnd n t.frame t.row
  let (whole, s) := s.wholeRow n t.frame t.row (o.ctus.all (·.floor))
  let (cap, fl) := s.rowFloor n t.frame t.row
  let s := s.floorSlice n t.frame t.row t.col (o.ctus.filter (·.forced)).length whole cap fl
  match s.curDesc n t.frame with
  | some r => s.reconWrite n r t.row t.col o.recon o.mf
  | none => s

/-- A slice ends on its engine once its columns are composed and its band rows staged (R60, R94). A damaged line among what it read makes it fail instead (R76). -/
def State.sliceDone (s : State) (d maxCtu winCorr : Nat) : State :=
  let t := s.task d
  match s.engOf d with
  | none => s
  | some e =>
    if (s.sliceDue t).isNone then s else
    match s.sliceBadLine t with
    | some (l, band) => (s.lineRead (storeLine l) e).failInput d e (if band then some (64 * l) else none)
    | none =>
      let o := codeSlice (s.sliceIn t) (s.sliceNal t)
      let s := (s.engCounts e t o.ctus maxCtu winCorr).slicePut t o
      ((s.engIdle e).sliceEnded t.ch t.frame).taskDone d

/-- The header unit's own check value unit folds the record it has just placed (R426). -/
def State.headerUnit (s : State) (n : Nat) : State :=
  match (s.chan n).ring.getLast? with
  | some r => s.cvuItem 952 (r.body n) (some ((s.chan n).ringAddr r.off + Config.csBase)) none
  | none => s

/-- A substitute record is written (R79, R84). -/
def State.substDone (s : State) (d : Nat) : State :=
  let t := s.task d
  let o := substSlice (s.substIn t) (s.sliceNal t)
  let s := ((s.putRecord t.ch 2 t.frame t.row t.col o.bits (s.recFlags t.ch t.frame t.row t.col false) o.nal).headerUnit t.ch).recsEnd t.ch t.frame t.row
  ((s.substNote t.ch t.frame t.row t.col true).sliceEnded t.ch t.frame).taskDone d

/-! ### Header unit, bands, copies -/

/-- The prefix record of a picture as its release fixed it (R68, R115), and the blank picture (R67). -/
def State.headerDone (s : State) (d : Nat) : State :=
  let t := s.task d
  let n := t.ch
  let c := s.chan n
  let s := (s.putRecord n 0 t.frame 0 0 0 (s.recFlags n t.frame 0 0 true) (tget [] c.pfx t.frame)).headerUnit n
  let s := s.setChan n { s.chan n with pfx := tdel (s.chan n).pfx t.frame }
  let s := if t.frame ≠ c.startFrame then s
    else (((s.putRecord n 3 t.frame 0 0 0 (s.recFlags n t.frame 0 0 false) c.blankNal).headerUnit n).cvuEnd (448 + n)).blankRef n t.frame
  s.taskDone d

/-- CTU rows that a band task stages (R94). -/
def State.bandRowsOf (s : State) (t : Task) : List Nat :=
  let c := s.chan t.ch
  if t.kind = kBandFill ∧ t.row = 0 then (List.range (256 / ctuH c.coding.codec + 1)).filter (· < c.rows) else [t.row]

/-- Running slices of a picture that need a row of a reference which is not staged and never will be: they fail for their input (R105). -/
def State.bandLost (s : State) (n frame pos row : Nat) : State :=
  (List.range 32).foldl (fun s e =>
    match (s.eng e).task with
    | none => s
    | some d =>
      let t := s.task d
      let c := s.chan n
      if t.ch = n && t.frame = frame && t.live.contains (t.list.getD pos 1024) && (c.bandNeeds t.row).contains row && (c.bandAt pos frame row).isNone
      then s.failInput d e none else s) s

/-- A band fill or refetch has ended (R94, R95, R104, R433). The buffer is what it is: a unit that does not read well fails whatever the outcome says. -/
def State.bandDone (s : State) (d outcome : Nat) : State :=
  let t := s.task d
  let n := t.ch
  let r := t.param
  let rows := s.bandRowsOf t
  if (s.ref r).mark = mkMissing then s.taskDone d else
  let out := if s.badLine (s.descAddr r) then 3 else if rows.all (s.rowGood n r) then outcome else 2
  let s := if out = 4 then s.incSat Reg.CVU_CHKONLY2_REF else s
  let s := if out = 1 ∨ out = 4 then (s.incSat Reg.REF_RECOVER_RETRYOK).ev (evRef 2) else s
  if out = 2 ∨ out = 3 then
    let s := s.markMissing r (if out = 2 then 1 else 2)
    (rows.foldl (fun s k => s.bandLost n t.frame t.col k) s).taskDone d
  else (rows.foldl (fun s k => s.bandStage (t.target - 112) n t.col t.frame k r) s).taskDone d

/-- A reconstruction copy has ended (R79, R104): the region of the lowest reference that is not MISSING, or mid level. -/
def State.copyDone (s : State) (d : Nat) (error : Bool) : State :=
  let t := s.task d
  let n := t.ch
  let c := s.chan n
  match s.curDesc n t.frame with
  | none => s.taskDone d
  | some r =>
    let px := match s.usable n t.frame with
      | k :: _ => regionOf c.raster c.coding t.row t.col ((s.ref k).sample c)
      | [] => flatRegion c.raster c.coding t.row t.col (midLevel c.coding)
    let s := s.reconWrite n r t.row t.col px (substSlice (s.substIn t) (s.sliceNal t)).mf
    (if error then s.markMissing r 0 else s).taskDone d

/-! ### Packing -/

/-- Store lines of a whole record. -/
def Chan.recAll (c : Chan) (r : RingRec) : List Nat := ((List.range (r.size / 64)).map fun i => c.ringAddr (r.off + 64 * i) / 64).dedup

/-- The task of a slice as its row slot has it, for a substitute made after it ended. -/
def State.slotTask (s : State) (n frame row col : Nat) : Task :=
  let st := (s.chan n).rc
  let x := st.slots.find? fun x => x.frame = frame && x.row = row
  { newTask kSubst with flow := n, ch := n, frame, row, col, qp := (x.map (·.qp)).getD 0,
                        rc := { set := st.set, units := st.units, sweeps := st.sweeps.filter fun w => w.start ≤ frame } }

/-- A slice record uncorrectable at packing is replaced by a substitute, charged in its place, with its copy and its carry (R198). -/
def State.replaceRec (s : State) (n : Nat) (r : RingRec) : State :=
  let t := s.slotTask n r.frame r.row r.col
  let o := substSlice (s.substIn t) (s.sliceNal t)
  let s := s.setChan n { s.chan n with ring := (s.chan n).ring.erase r }
  let s := s.onSlot n r.frame r.row fun x => { x with charge := x.charge - 8 * r.nal.length, bits := x.bits - r.bits, floor := true }
  let s := s.putRecord n 2 r.frame r.row r.col o.bits r.flags o.nal
  (s.reconCopy n r.frame r.row r.col).substNote n r.frame r.row r.col true

/-- A prefix record uncorrectable at packing is written again with the same content; so is the blank picture. That it takes the same place in the ring is a DESIGN CHOICE
(log entry 85). -/
def State.rewriteRec (s : State) (n : Nat) (r : RingRec) : State := s.storeRec n r

/-- The records of a row are read and checked whole; what could not be read is replaced or written again. -/
def State.packCheck (s : State) (n frame row : Nat) (bad : List (Nat × Nat)) : State :=
  ((s.chan n).recsOf frame row).foldl (fun s r =>
    let lines := (s.chan n).recAll r
    let s := (bad.filter fun e => lines.any fun l => storeLine l = e.1 / 64 * 64).foldl (fun s e => s.lineDamage e.1 e.2) s
    let hit := lines.filter fun l => s.badLine (storeLine l)
    let s := hit.foldl (fun s l => s.lineRead (storeLine l) 43) s
    if hit = [] then s else if r.typ = 1 ∨ r.typ = 2 then s.replaceRec n r else s.rewriteRec n r) s

/-- A row is packed. -/
def State.packDone (s : State) (d : Nat) (bad : List (Nat × Nat)) : State :=
  let t := s.task d
  let n := t.ch
  let s := s.packCheck n t.frame t.row bad
  let s := if s.live n then s.packRow n t.frame t.row else s
  let s := s.setChan n { s.chan n with composed := tdel (s.chan n).composed (t.frame * 1024 + t.row) }
  s.taskDone d

/-! ### Completions -/

/-- A task read a bad parameter record (R198): a slice fails with no engine fault, a COMPOSE_ROW ends with its row unwritten, and a task of any other kind is dispatched
again at once. -/
def State.paramBadDone (s : State) (d addr kind : Nat) : State :=
  let t := s.task d
  let slice := t.kind = kSlice ∨ t.kind = kReencode
  let port := if slice then t.target else if t.kind = kCompose then 41 else 43
  let s := (s.lineFail (storeLine (addr / 64)) port kind).paramFail t.ch
  if t.kind = kCompose then s.taskDone d
  else if slice then (match s.engOf d with | none => s | some e => s.failInput d e none)
  else s.setTask d { s.task d with state := 3, target := 255 }

/-- A good completion shows that the channel's parameter record reads well. -/
def State.paramGood (s : State) (n : Nat) : State := s.setChan n { s.chan n with paramBad := false }

/-- A unit completes the task it was given; a result of another kind's shape is no completion. Flattens, blits, parameter copies and self-tests end by
their own commands. -/
def execTaskComplete (d : Fin 16384) (r : TaskRes) (s : State) : Host.Outcome State Fault Refusal :=
  finish (
    let t := s.task d
    if t.state ≠ 4 ∨ !s.fclk ∨ 64 ≤ t.ch ∨ t.kind = kFlatten ∨ t.kind = kBlit then s else
    match r with
    | .badParam addr kind => s.paramBadDone d addr kind
    | .slice maxCtu winCorr => if t.kind = kSlice ∨ t.kind = kReencode then (s.sliceDone d maxCtu winCorr).paramGood t.ch else s
    | .compose upto bad => if t.kind = kCompose then (s.composeDone d upto bad).paramGood t.ch else s
    | .band o => if t.kind = kBandFill ∨ t.kind = kBandRefetch then (s.bandDone d o).paramGood t.ch else s
    | .written e => if t.kind = kReconCopy then (s.copyDone d e).paramGood t.ch else s
    | .record => if t.kind = kSubst then (s.substDone d).paramGood t.ch else s
    | .header => if t.kind = kHeader then (s.headerDone d).paramGood t.ch else s
    | .pack bad => if t.kind = kPack then (s.packDone d bad).paramGood t.ch else s
    | .plain => s)

end Sys2Proof.Machine
end

