-- ==== Sys2Proof/Machine/Power.lean ====
section
/-! DEFINITION. Power states, reset sources, clocks, monitors and alarms, and the commands that report them (R452 to R471, R507). -/

namespace Sys2Proof.Machine

/-- The always-on domain runs: VDD_AO is valid and REFCLK_25 present. -/
def State.aoOn (s : State) : Bool := s.rd Reg.PCR_DEVSTAT_PSTATE ≠ 0 && !s.pcr.refLost

/-- Every network, Tyhorn and PCIe link goes down, and every quad stops. -/
def State.linksDown (s : State) : State :=
  let s := s.forEach (List.range 16) fun s m => s.macDown m false
  let s := s.linkDown.pcieDown
  s.forEach (List.range 8) State.quadOff

/-- Entry to AO_ONLY (R28, R455, R464): every link goes down, the pins take their levels, DRAM is put in self-refresh, FCLK stops. -/
def State.enterAo (s : State) : State :=
  let s := s.linksDown.pinsOff
  let s := s.allDmc fun s c => if s.rd Reg.DMC_CHSTAT_STATE c = 3 then s.wr Reg.DMC_CHSTAT_STATE 1 c else s
  s.setPower 1

/-! ### Loss and return of VDD_AO and REFCLK_25 (R455, R507) -/

/-- The device is as good as unpowered: everything volatile is lost. -/
def State.powerLost (s : State) : State :=
  let s := ((s.pinsOff).mainEn false).afterReset true
  s.wr Reg.PCR_DEVSTAT_PSTATE 0

/-- VDD_AO falls below 0.72 V or is removed. -/
def execVddAoLoss (s : State) : Host.Outcome State Fault Refusal := finish s.powerLost

/-- VDD_AO is valid again and SYS_RESET_N high: a cold reset, RSTCAUSE 0. `nv`: what was programmed while it was off. -/
def execPowerOn (nv : Option NonVol) (s : State) : Host.Outcome State Fault Refusal :=
  finish (
    if s.rd Reg.PCR_DEVSTAT_PSTATE ≠ 0 ∨ s.pcr.refLost then s else
    let s := s.setNv (nv.getD s.mgt.nv)
    ((s.startReset true 0).wr Reg.PCR_DEVSTAT_PSTATE 0).setPower 1)

/-- REFCLK_25 is absent: the device holds itself as if VDD_AO were invalid. -/
def execRefclkLoss (s : State) : Host.Outcome State Fault Refusal :=
  finish (if s.rd Reg.PCR_DEVSTAT_PSTATE = 0 then s else
    let s := s.powerLost
    { s with pcr := { s.pcr with refLost := true } })

/-- 1 ms after it returns: a cold reset, RSTCAUSE 0. -/
def execRefclkReturn (s : State) : Host.Outcome State Fault Refusal :=
  finish (if !s.pcr.refLost then s else
    let s := { s with pcr := { s.pcr with refLost := false } }
    ((s.startReset true 0).wr Reg.PCR_DEVSTAT_PSTATE 0).setPower 1)

/-! ### Reset sources (R459, R460) -/

/-- SYS_RESET_N is held low for 1 µs or more. -/
def execSysResetN (s : State) : Host.Outcome State Fault Refusal := finish (if s.aoOn then s.startReset true 1 else s)

/-- A write of RSTCTL with WARM set acts when it carries the key. -/
def State.rstWarm (s : State) (key : Nat) : State := if key = 0x5A5A ∧ s.aoOn then s.startReset false 5 else s
/-- The same with COLD. -/
def State.rstCold (s : State) (key : Nat) : State := if key = 0x5A5A ∧ s.aoOn then s.startReset true 2 else s

def execRstctlWarm (key : Nat) (s : State) : Host.Outcome State Fault Refusal :=
  finish (
    let s := s.hostAccess Reg.PCR_RSTCTL_WARM
    s.rstWarm key)
def execRstctlCold (key : Nat) (s : State) : Host.Outcome State Fault Refusal :=
  finish (
    let s := s.hostAccess Reg.PCR_RSTCTL_COLD
    s.rstCold key)

/-! ### The reset sequences (R453, R462) -/

/-- The cold sequence up to PWR_MAIN_EN: the fuses and the strap are read, and the main rails are asked for. -/
def execColdReset (b : BootInfo) (s : State) : Host.Outcome State Fault Refusal :=
  finish (
    if !s.aoOn ∨ s.pcr.tripped ∨ s.pcr.kind ≠ 1 ∨ s.pcr.stage ≠ 0 then s else
    let s := s.senseFuses.wr Reg.PAIR_PAIRSTAT_SLOT b.slot
    ({ s with pcr := { s.pcr with stage := 1, boot := some b } }).mainEn true)

/-- The warm sequence, from the PLL step on. -/
def execWarmReset (b : BootInfo) (s : State) : Host.Outcome State Fault Refusal :=
  finish (if !s.aoOn ∨ s.pcr.kind ≠ 2 ∨ s.pcr.stage ≠ 0 ∨ !s.pcr.rails then s else s.bootPll b)

def State.setRails (s : State) (v : Bool) : State := { s with pcr := { s.pcr with rails := v } }

/-- The boot that the cold sequence prepared goes on. -/
def State.bootReady (s : State) : State :=
  match s.pcr.boot with
  | none => s
  | some b => (s.setRails true).bootPll b

/-- The main rails are good: the PLLs start, and the boot goes on. -/
def execPwrMainGoodRise (s : State) : Host.Outcome State Fault Refusal :=
  finish (if s.pcr.kind ≠ 1 ∨ s.pcr.stage ≠ 1 ∨ !s.pcr.en then s else s.bootReady)

def State.countFail (s : State) : State := { s with pcr := { s.pcr with fails := s.pcr.fails + 1 } }

/-- The main rails come off again after a failure to rise. -/
def State.pwrFail (s : State) : State :=
  let s := ((s.mainEn false).ev (evPcr 10)).countFail
  if 3 ≤ s.pcr.fails then s.wr Reg.PCR_DEVSTAT_MAINOFF 1 else s

/-- PWR_MAIN_GOOD does not rise within 50 ms; after the third time the main rails stay off. -/
def execPwrMainGoodTimeout (s : State) : Host.Outcome State Fault Refusal :=
  finish (if s.pcr.kind ≠ 1 ∨ s.pcr.stage ≠ 1 ∨ !s.pcr.en then s else s.pwrFail)

/-- 1 s after such a failure PWR_MAIN_EN is asserted again. -/
def execMainPowerRetry (s : State) : Host.Outcome State Fault Refusal :=
  finish (if s.pcr.kind = 1 ∧ s.pcr.stage = 1 ∧ !s.pcr.en ∧ s.pcr.fails < 3 then s.mainEn true else s)

/-- PWR_MAIN_GOOD falls while the main rails are on: a cold reset, RSTCAUSE 4. -/
def execPwrMainGoodFall (s : State) : Host.Outcome State Fault Refusal := finish (if s.pcr.rails then s.startReset true 4 else s)

/-- Boot ends, once the store is wiped. -/
def execBootEnd (s : State) : Host.Outcome State Fault Refusal :=
  finish (if s.dev ≠ 0 ∨ s.pcr.kind = 0 ∨ s.pcr.stage ≠ 2 ∨ s.rd Reg.CST_CSTSTAT_WIPING = 1 then s else s.endBoot)

/-! ### AO_ONLY and wake (R455, R456, R464) -/

/-- A write of AOREQ: discarded unless the state is IDLE and no channel runs, drains or is faulted. -/
def State.aoReq (s : State) : State :=
  if s.rd Reg.PCR_DEVSTAT_PSTATE ≠ 2 ∨ s.dev = 0 ∨ !(List.range 64).all (fun n => [0, 1, 2, 5].contains (s.chSt n)) then s else s.enterAo

def execPwrctlAoreq (s : State) : Host.Outcome State Fault Refusal :=
  finish (
    let s := s.hostAccess Reg.PCR_PWRCTL_AOREQ
    s.aoReq)

/-- A wake: PLLs, DRAM out of self-refresh, lanes from LN_PLL. -/
def State.wakeUp (s : State) : State :=
  if s.rd Reg.PCR_DEVSTAT_PSTATE ≠ 1 ∨ s.dev = 0 ∨ s.pcr.tripped ∨ !s.pcr.rails then s else
  let s := (s.setPower 2).ev (evPcr 9)
  let s := s.allDmc fun s c => if s.rd Reg.DMC_CHSTAT_STATE c = 1 then s.wr Reg.DMC_CHSTAT_STATE 3 c else s
  let s := if s.rd Reg.AUD_MCLKCTL_OUT = 1 then s.emit (.pin .mclkOut true) else s
  (({ s with dmc := { s.dmc with last := s.t16 } }).nextDue s.refRate s.t16).quadsStart

/-- A falling edge on the armed GPIO. -/
def execWakePin (pin : Fin 32) (s : State) : Host.Outcome State Fault Refusal :=
  finish (if s.rd Reg.PCR_PWRCTL_WAKEEN = 1 ∧ s.rd Reg.PCR_PWRCTL_WAKEPIN = pin then s.wakeUp else s)

/-- PERST_N is asserted: the link goes down, AQ and EQ are disabled, every other queue is deleted without replies. A command in
interpretation completes, and its reply is discarded. -/
def execPerstNAssert (s : State) : Host.Outcome State Fault Refusal :=
  finish (
    if !s.aoOn then s else
    let s := { s with pcr := { s.pcr with perstN := false } }
    let s := ((s.pcieDown).wr Reg.HIF_AQCTL_ENABLE 0).wr Reg.HIF_EQCTL_ENABLE 0
    let s := s.forEach (List.range 67) fun s q =>
      (((s.dropFetched q).handReplies q).setQue q {}).qstatInit q 0
    s.eqstat)

/-- PERST_N rises: a wake from AO_ONLY; the link trains. -/
def execPerstNRise (s : State) : Host.Outcome State Fault Refusal :=
  finish (
    if !s.aoOn then s else
    let s := { s with pcr := { s.pcr with perstN := true } }
    s.wakeUp.pcieTrain)

/-- A unit's clock gate closes after 10 µs without work (R457). -/
def execClockGateClose (u : Fin 256) (s : State) : Host.Outcome State Fault Refusal :=
  finish (
    if !s.fclk ∨ s.atTarget u ≠ 0 ∨ !(tget false s.pcr.gates u) then s else
    let s := { s with pcr := { s.pcr with gates := tset false s.pcr.gates u false } }
    let g := s.rd Reg.PCR_GATESTAT_ENGINES
    if u.val < 32 then s.wr Reg.PCR_GATESTAT_ENGINES (g ^^^ (g &&& 2 ^ u.val)) else s)

/-! ### Monitors (R468, R469) -/

/-- Alarm bits are set, with their latches, or cleared. -/
def State.alarm (s : State) (b : Nat) (on : Bool) : State :=
  let old := s.rd Reg.PCR_ALARM_BITS
  let s := s.wr Reg.PCR_ALARM_BITS ((old ^^^ (old &&& 2 ^ b)) ||| (2 ^ b * bit on))
  if on then s.wr Reg.PCR_ALARMLAT_BITS (s.rd Reg.PCR_ALARMLAT_BITS ||| 2 ^ b) else s

def State.hasAlarm (s : State) (b : Nat) : Bool := (s.rd Reg.PCR_ALARM_BITS).testBit b

/-- A cause of DEV_SAFE found by a monitor: a reset in progress takes precedence until its boot runs (R458, R460). -/
def State.monSafe (s : State) (cause info : Nat) : State :=
  if s.pcr.kind ≠ 0 ∧ s.pcr.stage ≠ 2 then s else s.enterSafe cause info

/-- The thermal trip: the interlock is released, then PWR_MAIN_EN; from IDLE and ACTIVE the device enters AO_ONLY (R455). -/
def State.trip (s : State) : State :=
  if s.pcr.tripped then s else
  let s := s.giveUpLock.mainEn false
  let s := { (s.wr Reg.PCR_DEVSTAT_MAINOFF 1) with pcr := { s.pcr with tripped := true, rails := false } }
  if s.fclk then s.enterAo else s

/-- One temperature alarm: set at its threshold with what follows, cleared 3 °C below. -/
def State.tempAlarm (s : State) (b : Nat) (sensors : List Int) (thr : Int) (onSet : State → State) : State :=
  if sensors.any (fun t => thr ≤ t) then (if s.hasAlarm b then s else onSet (s.alarm b true))
  else if sensors.all (fun t => t ≤ thr - 30) then s.alarm b false else s

/-- Sensors 0 to 9 are sampled. -/
def State.tempSample (s : State) (t : List Int) : State :=
  let die := (List.range 8).map fun i => t.getD i 0
  let board := [t.getD 8 0, t.getD 9 0]
  let s := s.forEach (List.range 10) fun s i => s.wr Reg.PCR_TEMP_DECI_C (toTwos 16 (t.getD i 0)) 0 i
  let s := s.wrMax Reg.PCR_TEMPMAX_DECI_C (die.foldl (fun m x => max m x) 0).toNat
  let s := s.tempAlarm 0 die (s.rd Reg.PCR_TEMPWARN_DECI_C) fun s => s.ev (evPcr 3)
  let s := s.tempAlarm 1 die 1100 fun s => (s.ev (evPcr 4)).monSafe 3 (((List.range 8).find? fun i => decide (1100 ≤ t.getD i 0)).getD 0)
  let s := s.tempAlarm 4 board (s.rd Reg.PCR_TEMPWARN_BTEMP) fun s => s.ev (evPcr 7)
  if die.any (fun x => 1250 ≤ x) then s.trip else s

/-- Nominal supplies in mV; supply 0 has its target (R452). -/
def State.nominal (s : State) (i : Nat) : Nat := if i = 0 then s.rd Reg.PCR_AVS_MV else [0, 750, 800, 1800, 900, 1200, 1050, 500].getD i 0

/-- A supply outside its band: 25 or 50 mV, 3% or 6%. The supplies of the main rails are watched while the rails are on. -/
def State.supplyOut (s : State) (mv : List Nat) (crit : Bool) (i : Nat) : Bool :=
  let v : Int := mv.getD i 0
  let n : Int := s.nominal i
  let k : Int := if crit then 2 else 1
  let d := if v < n then n - v else v - n
  (s.pcr.rails || i = 2 || i = 3) && (if i = 0 then decide (25 * k < d) else decide (3 * k * n < 100 * d))

/-- One supply alarm: set at the second sample outside (10 µs), cleared after 100 samples inside (1 ms). Answers the new counts. -/
def State.supplyAlarm (s : State) (b : Nat) (out : Bool) (no ni : Nat) (onSet : State → State) : Nat × Nat × State :=
  if out then (no + 1, 0, if no = 0 ∨ s.hasAlarm b then s else onSet (s.alarm b true))
  else (0, ni + 1, if 100 ≤ ni + 1 then s.alarm b false else s)

/-- Supplies 0 to 7 are sampled. -/
def State.supplySample (s : State) (mv : List Nat) : State :=
  let s := s.forEach (List.range 8) fun s i => s.wr Reg.PCR_SUPPLY_MV (mv.getD i 0) 0 i
  let bad (crit : Bool) := (List.range 8).find? (s.supplyOut mv crit)
  let (a, b, s) := s.supplyAlarm 2 (bad false).isSome s.pcr.wOut s.pcr.wIn fun s => s.ev (evPcr 5)
  let s := { s with pcr := { s.pcr with wOut := a, wIn := b } }
  let (a, b, s) := s.supplyAlarm 3 (bad true).isSome s.pcr.cOut s.pcr.cIn fun s => (s.ev (evPcr 6)).monSafe 4 ((bad true).getD 0)
  { s with pcr := { s.pcr with cOut := a, cIn := b } }

/-- The monitors sample: supplies each 10 µs, temperatures with them each 1 ms; VDD_AO below 0.72 V is a power-on reset. -/
def execMonitorSample (temps : Option (List Int)) (mv : List Nat) (mw : Nat) (s : State) : Host.Outcome State Fault Refusal :=
  finish (
    if !s.aoOn then s
    else if mv.getD 2 0 < 720 then s.powerLost
    else
      let s := (s.wr Reg.PCR_POWER_MW mw).supplySample mv
      match temps with
      | some t => s.tempSample t
      | none => s)

/-- Every die sensor is below 95 °C after a trip: a cold reset, RSTCAUSE 4, with TRIP set. -/
def execTripRecovery (temps : List Int) (s : State) : Host.Outcome State Fault Refusal :=
  finish (
    if !s.pcr.tripped ∨ !((List.range 8).all fun i => decide (temps.getD i 0 < 950)) then s
    else (s.startReset true 4).alarm 6 true)

/-- A write of ones clears latched alarms, but for those of `hw`, present alarms that the sample of its cycle set. -/
def State.alarmClear (s : State) (bits hw : Nat) : State :=
  let old := s.rd Reg.PCR_ALARMLAT_BITS
  s.wr Reg.PCR_ALARMLAT_BITS ((old ^^^ (old &&& bits)) ||| (hw &&& s.rd Reg.PCR_ALARM_BITS))

def execAlarmlatClear (bits hw : Nat) (s : State) : Host.Outcome State Fault Refusal :=
  finish (
    let s := s.hostAccess Reg.PCR_ALARMLAT_BITS
    if s.aoOn then s.alarmClear bits hw else s)

/-! ### The management core's watchdog (R461) -/

/-- It expires: a restart of the core alone, or a warm reset at the third expiry in 60 s and in DEV_BOOT. -/
def execMgtWatchdogExpiry (s : State) : Host.Outcome State Fault Refusal :=
  finish (
    if !s.aoOn then s
    else if s.dev = 0 then
      (if s.pcr.stage = 2 then ({ s with pcr := { s.pcr with kind := 0 } }).startReset false 7 else s.startReset false 7)
    else
      let recent := s.mgt.wdog.filter fun t => s.ns < t + 60000000000
      if 2 ≤ recent.length then s.startReset false 7
      else { s with mgt := { s.mgt with wdog := recent ++ [s.ns], down := true, prog := [], last := [], beginWait := none, confMsgs := [] } })

/-- The core runs again, or its code fails its check. -/
def execMgtCoreRestartDone (pass : Bool) (s : State) : Host.Outcome State Fault Refusal :=
  finish (
    if !s.mgt.down then s
    else if !pass then s.enterSafe 6 0
    else ({ s with mgt := { s.mgt with down := false } }).ev (evMgt 14))

/-! ### Links (R258, R492) -/

/-- The RGMII service link goes up or down. -/
def execServiceLinkChange (up : Bool) (s : State) : Host.Outcome State Fault Refusal :=
  finish (if !s.aoOn ∨ s.rd Reg.MGT_SVCSTAT_LINK = bit up then s else (s.wr Reg.MGT_SVCSTAT_LINK (bit up)).ev (evMgt 10))

/-- The PCIe link logs a correctable error. -/
def execPcieCorrectableError (s : State) : Host.Outcome State Fault Refusal :=
  finish (if s.rd Reg.HIF_LINKSTAT_DLUP = 0 then s else (s.incSat Reg.HIF_AERCNT_CORR).ev (evHif 2))

/-! ### Commands (R262, R265, R467, R468) -/

def runDiagHealth : OpRun := fun _ _ s =>
  let hot := (List.range 8).foldl (fun (m : Int) i => max m (ofTwos 16 (s.rd Reg.PCR_TEMP_DECI_C 0 i))) (-32768)
  (s, ok2 (toTwos 16 hot + s.rd Reg.PCR_SUPPLY_MV 0 0 * 2 ^ 16 + s.rd Reg.PCR_POWER_MW * 2 ^ 32) (s.rd Reg.PCR_ALARM_BITS))

def execOpDiagHealth (h : Hdr) (p : Bytes) (s : State) : Host.Outcome State Fault Refusal :=
  finish (s.hostCmd (.opDiagHealth h p) 0x0901 h p noChk runDiagHealth)

def runLcStatus : OpRun := fun _ _ s =>
  (s, ok2 (s.rd Reg.PCR_LCSTAT_STATE + 256 * s.rd Reg.PCR_LCSTAT_UPDATE_LOCK + 512 * s.rd Reg.PCR_LCSTAT_ON_AIR_LOCK) 0)

def execOpLcStatus (h : Hdr) (p : Bytes) (s : State) : Host.Outcome State Fault Refusal :=
  finish (s.hostCmd (.opLcStatus h p) 0x0A00 h p noChk runLcStatus)

def chkOnAirLock : OpChk := fun _ _ p => firstBad [(1 < fld p 0 1, badAt 0), (nz p 1 3, badAt 1)]

/-- Closing the on-air lock closes the lock of the TST block too (R494). -/
def runOnAirLock : OpRun := fun _ p s =>
  let s := s.wr Reg.PCR_LCSTAT_ON_AIR_LOCK (fld p 0 1)
  (if fld p 0 1 = 1 then s.tstClose else s, ok2 0 0)

def execOpOnAirLock (h : Hdr) (p : Bytes) (s : State) : Host.Outcome State Fault Refusal :=
  finish (s.hostCmd (.opOnAirLock h p) 0x0A03 h p chkOnAirLock runOnAirLock)

end Sys2Proof.Machine
end

