-- ==== Sys2Proof/Machine/Firmware.lean ====
section
/-! DEFINITION. Firmware and settings update: the service port, the staged container, trial and confirmation, the settings
store (R472 to R492), and the host commands of group 0x0A that report and confirm (R480, R484). -/

namespace Sys2Proof.Machine

/-! ### Service port (R478) -/

/-- The boot ROM itself serves the port: no candidate image passed (R475). -/
def State.svcRom (s : State) : Bool := s.dev = 2 && s.rd Reg.EVT_SAFESTAT_CAUSE = 6 && s.rd Reg.EVT_SAFEINFO_INFO % 256 = 0xFF

/-- A reply leaves, and is kept for a repeat of its message. -/
def State.svcReply (s : State) (snd seq typ st det : Nat) (res : Nat := 0) : State :=
  let last := s.mgt.last.map fun l => if l.sender = snd ∧ l.seq = seq then { l with rep := some (typ + 0x80, st, det, res) } else l
  ({ s with mgt := { s.mgt with last := last } }).emit (.service (typ + 0x80) seq st det (toLe 8 res))

/-- The stored reply leaves again. -/
def State.svcRepeat (s : State) (l : SvcLast) : State :=
  match l.rep with
  | none => s.incSat Reg.MGT_DUP_COUNT
  | some (t, st, d, r) => (s.incSat Reg.MGT_DUP_COUNT).emit (.service t l.seq st d (toLe 8 r))

/-- A new message becomes its sender's last. -/
def State.svcAccept (s : State) (snd seq : Nat) : State :=
  let last := (s.mgt.last.filter fun l => l.sender ≠ snd) ++ [{ sender := snd, seq := seq, rep := none }]
  ({ s with mgt := { s.mgt with last := last } }).incWrap Reg.MGT_RXMSG_COUNT

/-- A message arrives. A core that is held in reset answers nothing, a sender that is not on the allow list is discarded, and a
repeated SEQ is answered again without action. -/
def State.svcMsg (s : State) (snd seq typ : Nat) (act : State → State) : State :=
  if !s.aoOn ∨ s.mgt.down then s
  else if !(s.mgt.allow.any fun e => e.2 = snd) then s.incSat Reg.MGT_DENIED_COUNT
  else if s.svcRom && !([1, 2, 3, 4, 5, 8].contains typ) then s
  else match s.mgt.last.find? fun l => l.sender = snd && l.seq = seq with
    | some l => s.svcRepeat l
    | none => act (s.svcAccept snd seq)

/-! ### Update state (R480) -/

/-- The update state as MGT.UPDSTAT.STATE shows it. -/
def State.updSt (s : State) : Nat := if s.mgt.nv.slots.trial then 6 else s.mgt.nv.staged.st

/-- The staging record is written (R480). -/
def State.putStaged (s : State) (g : Staging) : State := (s.setNv { s.mgt.nv with staged := g }).mgtShow

/-- IDLE is entered: no container is staged, HFLAGS[2] falls, and the slot is erased in the background. -/
def State.toIdle (s : State) : State :=
  let s := { s with mgt := { s.mgt with prog := [], upd := false } }
  (s.eraseStaging).putStaged {}

/-- Blocks of the staged container, while one is. -/
def Staging.blocks (g : Staging) : Nat := if g.st = 0 ∨ g.st = 5 then 0 else cdiv g.length 1024

/-- The flash offset of the staging slot (R472). -/
def State.stageAt (s : State) : Nat := if s.mgt.nv.slots.active = 0 then 0x05000000 else 0x02000000

/-- RESULT0 of OP_UPDATE_STATUS. -/
def State.updWord (s : State) : Nat := s.updSt + 16 * s.mgt.nv.slots.trials + 256 * s.mgt.nv.slots.active

def execInfo (snd seq : Nat) (s : State) : Host.Outcome State Fault Refusal :=
  finish (s.svcMsg snd seq 1 fun s =>
    s.svcReply snd seq 1 stOk 0 (s.updWord + (if s.mgt.nv.staged.st = 0 then 0 else s.mgt.nv.staged.version % 2 ^ 32) * 2 ^ 32))

/-! ### BEGIN (R481, R482) -/

/-- The conditions that refuse BEGIN and ACTIVATE of a firmware image, in order: status, detail, result. -/
def State.updRefuse (s : State) (kind : Nat) : Option (Nat × Nat × Nat) :=
  if kind ≠ 0 then none
  else if s.rd Reg.PCR_LCSTAT_STATE = 2 ∧ s.rd Reg.PCR_LCSTAT_UPDATE_LOCK = 1 then some (stLocked, 2, 0)
  else if s.rd Reg.PCR_LCSTAT_ON_AIR_LOCK = 1 then some (stLocked, 1, 0)
  else if s.role = 1 ∧ s.partnerGood then some (stRefused, 1, 0)
  else if s.rd Reg.PAIR_PAIRSTAT_LINKUP = 1 ∧ s.pair.pUpd then some (stRefused, 2, 0)
  else if s.hasAlarm 0 ∨ s.hasAlarm 2 ∨ s.hasAlarm 4 then some (stRefused, 3, s.rd Reg.PCR_ALARM_BITS)
  else none

/-- A container is accepted for staging. -/
def State.beginStage (s : State) (length version : Nat) : State :=
  let s := if s.mgt.nv.staged.st = 5 then s.eraseStaging else s
  let s := { s with mgt := { s.mgt with blocks := [], prog := [], upd := true } }
  (s.putStaged { st := 1, length := length, version := version }).ev (evMgt 0)

def State.svcBegin (s : State) (snd seq length version kind : Nat) : State :=
  let refuse (r : Nat × Nat × Nat) := (s.svcReply snd seq 2 r.1 r.2.1 r.2.2).ev (evMgt 4)
  if 0x3000000 < length then s.svcReply snd seq 2 stBadParam 0x8000
  else match s.updRefuse kind with
    | some r => refuse r
    | none =>
      if s.dev = 3 then refuse (stWrongState, 0x8000 + 3 * 256, 0)
      else if 1 ≤ s.mgt.nv.staged.st ∧ s.mgt.nv.staged.st ≤ 4 then refuse (stBusy, 1, 0)
      else
        let s := s.beginStage length version
        if s.rd Reg.PAIR_PAIRSTAT_ENABLED = 1 then { s with mgt := { s.mgt with beginWait := some (snd, seq, s.ns) } }
        else s.svcReply snd seq 2 stOk 0

def execBegin (snd seq length version : Nat) (kind : Fin 3) (s : State) : Host.Outcome State Fault Refusal :=
  finish (s.svcMsg snd seq 2 fun s => s.svcBegin snd seq length version kind)

/-- The wait after BEGIN ends: with both flags set, the device of slot 1 withdraws. -/
def State.beginEnd (s : State) : State :=
  match s.mgt.beginWait with
  | none => s
  | some (snd, seq, _) =>
    let s := { s with mgt := { s.mgt with beginWait := none } }
    if s.mgt.upd ∧ s.rd Reg.PAIR_PAIRSTAT_LINKUP = 1 ∧ s.pair.pUpd ∧ s.rd Reg.PAIR_PAIRSTAT_SLOT = 1 then
      (s.toIdle.svcReply snd seq 2 stRefused 2).ev (evMgt 4)
    else s.svcReply snd seq 2 stOk 0

/-- Two heartbeat periods have passed since. -/
def State.beginDue (s : State) : Bool :=
  match s.mgt.beginWait with
  | some (_, _, t) => decide (t + 2000 * s.rd Reg.PAIR_HBCFG_PERIOD_US ≤ s.ns)
  | none => false

def execBeginPairWaitEnd (s : State) : Host.Outcome State Fault Refusal := finish (if !s.mgt.down && s.beginDue then s.beginEnd else s)

/-! ### BLOCK (R479) -/

/-- The bytes a BLOCK carries. -/
def blockData (data : Bytes) : Bytes := bytesAt data 0 1024

/-- The sector of a block is still being erased. -/
def State.erasing (s : State) (index : Nat) : Bool :=
  match s.mgt.erase with
  | none => false
  | some done => !done.any fun r => decide (r.1 ≤ index * 1024) && decide (index * 1024 + 1024 ≤ r.1 + r.2)

def State.svcBlock (s : State) (snd seq index crc : Nat) (data : Bytes) : State :=
  let d := blockData data
  if crcRefl 0x82F63B78 0xFFFFFFFF d ≠ crc % 2 ^ 32 then (s.incSat Reg.MGT_BADCRC_COUNT).svcReply snd seq 3 stBadParam 1
  else if s.mgt.nv.staged.blocks ≤ index then s.svcReply snd seq 3 stBadParam 2
  else if s.mgt.blocks.contains index then s.svcReply snd seq 3 stOk 0
  else if s.erasing index then s.svcReply snd seq 3 stBusy 2
  else { s with mgt := { s.mgt with prog := s.mgt.prog ++ [(index, snd, seq, d)] } }

def execBlock (snd seq index crc : Nat) (data : Bytes) (s : State) : Host.Outcome State Fault Refusal :=
  finish (s.svcMsg snd seq 3 fun s => s.svcBlock snd seq index crc data)

/-- A block is programmed: its replies leave, and RECEIVED follows the last one. -/
def State.programmed (s : State) (index : Nat) (d : Bytes) : State :=
  let who := s.mgt.prog.filter fun e => e.1 = index
  let s := { s with mem := flashWrites s.mem (s.stageAt + index * 1024) d }
  let s := { s with mgt := { s.mgt with prog := s.mgt.prog.filter (fun e => e.1 ≠ index), blocks := s.mgt.blocks ++ [index] } }
  let s := who.foldl (fun (s : State) e => s.svcReply e.2.1 e.2.2.1 3 stOk 0) s.mgtShow
  if s.mgt.nv.staged.blocks ≤ s.mgt.blocks.length then (s.putStaged { s.mgt.nv.staged with st := 2 }).ev (evMgt 1) else s

def execFlashBlockProgrammed (index : Nat) (s : State) : Host.Outcome State Fault Refusal :=
  finish (
    match s.mgt.prog.find? fun e => e.1 = index with
    | none => s
    | some (_, _, _, d) => if s.mgt.nv.staged.st ≠ 1 ∨ s.mgt.down then s else s.programmed index d)

/-- Bytes of the staging slot are erased: they read 0xFF. -/
def State.eraseRange (s : State) (off len : Nat) : State :=
  let a := s.stageAt + off
  { s with mem := { s.mem with flash := s.mem.flash.filter fun e => e.1 < a || decide (a + len ≤ e.1) } }

/-- Whether ranges, taken in order of their starts, cover the slot. -/
def coverFrom : List (Nat × Nat) → Nat → Nat
  | [], a => a
  | r :: rest, a => coverFrom rest (if r.1 ≤ a then max a (r.1 + r.2) else a)

def covers (rs : List (Nat × Nat)) : Bool := decide (0x3000000 ≤ (List.range rs.length).foldl (fun a _ => coverFrom rs a) 0)

def State.erased (s : State) (off len : Nat) (done : List (Nat × Nat)) : State :=
  let s := s.eraseRange off len
  let done := done ++ [(off, len)]
  { s with mgt := { s.mgt with erase := if covers done then none else some done } }

/-- A sector of the staging slot is erased. -/
def execStagingEraseDone (off len : Nat) (s : State) : Host.Outcome State Fault Refusal :=
  finish (
    match s.mgt.erase with
    | none => s
    | some done => if s.mgt.down then s else s.erased off (min len (0x3000000 - off)) done)

/-! ### VERIFY (R473, R474) -/

def execVerify (snd seq : Nat) (s : State) : Host.Outcome State Fault Refusal :=
  finish (s.svcMsg snd seq 4 fun s =>
    if s.updSt ≠ 2 then s.svcReply snd seq 4 stWrongState 0xFF
    else (s.putStaged { s.mgt.nv.staged with st := 3 }).svcReply snd seq 4 stAccepted 0)

/-- Header fields of the staged container. -/
def State.hdrFld (s : State) (o n : Nat) : Nat := leNat ((List.range n).map fun i => flashRead s.mem (s.stageAt + o + i))

/-- The header form (R473), and that LENGTH fits the slot. -/
def State.hdrForm (s : State) : Bool :=
  s.hdrFld 0 4 = 0x31594C50 && s.hdrFld 4 2 = 1 && decide (s.hdrFld 6 1 ≤ 2) && decide (s.hdrFld 7 1 < 4) && decide (s.hdrFld 22 1 ≤ 8) &&
    s.hdrFld 23 1 = 0 && s.hdrFld 28 4 = 0 && s.hdrFld 736 288 = 0 && decide (s.hdrFld 24 4 ≤ 0x3000000) &&
    (List.range (s.hdrFld 22 1)).all fun i => s.hdrFld (33 + 64 * i) 3 = 0 && s.hdrFld (44 + 64 * i) 4 = 0

/-- The sections: one for each processor in an image, one for a request. -/
def State.hdrSections (s : State) : Bool :=
  let procs := (List.range (s.hdrFld 22 1)).map fun i => s.hdrFld (32 + 64 * i) 1
  if s.hdrFld 6 1 = 0 then decide (procs.length = 6) && (List.range 6).all procs.contains else procs = [0xFF]

/-- The checks of R474, in order; `ok` holds what the signatures and digests show. -/
def State.verifies (s : State) (ok : Nat) : Bool :=
  let image := s.hdrFld 6 1 = 0
  s.hdrForm && ok.testBit 0 && (s.hdrFld 7 1).testBit 0 &&
    (s.mgt.nv.fuse.lc ≠ 2 || (ok.testBit 1 && (s.hdrFld 7 1).testBit 1)) &&
    (!image || decide (s.mgt.nv.fuse.svnMin ≤ s.hdrFld 12 2)) && ok.testBit 2 && s.hdrSections && (image || ok.testBit 3)

def State.verifyEnd (s : State) (ok : Nat) : State :=
  if s.verifies ok then (s.putStaged { s.mgt.nv.staged with st := 4, kind := s.hdrFld 6 1 }).ev (evMgt 2)
  else ({ s with mgt := { s.mgt with upd := false } }.putStaged { s.mgt.nv.staged with st := 5 }).ev (evMgt 3)

def execVerifyEnd (ok : Fin 16) (s : State) : Host.Outcome State Fault Refusal :=
  finish (if s.mgt.down ∨ s.updSt ≠ 3 then s else s.verifyEnd ok)

/-! ### ACTIVATE (R466, R467, R483) -/

/-- KIND 0: the slot record names the staging slot, on trial, and a warm reset follows. -/
def State.activateImage (s : State) (snd seq : Nat) : State :=
  let v := s.mgt.nv
  let r := v.slots
  let i : Img := { version := s.hdrFld 8 4, svn := s.hdrFld 12 2, ocn := s.hdrFld 14 2, ppv := s.hdrFld 16 4, setfmt := s.hdrFld 20 2 }
  let s := s.setNv { v.setImg (1 - r.active) i with staged := {} }
  let s := s.putSlots { r with active := 1 - r.active, prev := r.active, trial := true, trials := 0, fell := false }
  (s.svcReply snd seq 5 stOk 0).startReset false 6

/-- A request that R466 or R467 does not allow changes nothing; the spec does not say how it is answered. -/
def State.requestDenied (s : State) (snd seq : Nat) : State :=
  let (a, s) := s.free
  let (b, s) := s.free
  s.svcReply snd seq 5 (a % 256) (b % 65536)

/-- What is non-volatile after a lifecycle transition (R466). -/
def NonVol.lifecycle (v : NonVol) (new : Nat) : NonVol :=
  let v := { v with staged := {} }
  if new = 3 then
    { fuse := { v.fuse with lc := 3 }, imgA := v.imgA, imgB := v.imgB, passes := v.passes }
  else if v.fuse.lc = 2 then
    { v with fuse := { v.fuse with lc := 1, releases := v.fuse.releases - 1 }, updLock := false, allow := [] }
  else { v with fuse := { v.fuse with lc := new } }

/-- Whether R466 has a transition to a state. -/
def NonVol.mayGo (v : NonVol) (new : Nat) : Bool :=
  (v.fuse.lc = 0 && new = 1) || (v.fuse.lc = 1 && new = 2) || (v.fuse.lc = 2 && new = 1 && decide (0 < v.fuse.releases)) ||
    (v.fuse.lc ≠ 3 && new = 3)

/-- KIND 1: the fuses are blown, and a cold reset follows. -/
def State.activateLifecycle (s : State) (snd seq req : Nat) (signed : Bool) : State :=
  if !signed ∨ !s.mgt.nv.mayGo req then s.requestDenied snd seq else
  let s := (s.svcReply snd seq 5 stOk 0).tstClose
  ((s.setNv (s.mgt.nv.lifecycle req)).ev (evPcr 8)).startReset true 8

/-- KIND 2: UPDATE_LOCK is set or cleared. -/
def State.activateLock (s : State) (snd seq req : Nat) (signed : Bool) : State :=
  if !signed ∨ s.mgt.nv.fuse.lc ≠ 2 then s.requestDenied snd seq else
  let s := (s.setNv { s.mgt.nv with updLock := decide (req ≠ 0) }).toIdle
  (s.svcReply snd seq 5 stOk 0).ev (evMgt 12)

def State.svcActivate (s : State) (snd seq req : Nat) (signed : Bool) : State :=
  if s.updSt ≠ 4 then s.svcReply snd seq 5 stWrongState 0xFF
  else match s.updRefuse s.mgt.nv.staged.kind with
    | some r => (s.svcReply snd seq 5 r.1 r.2.1 r.2.2).ev (evMgt 4)
    | none =>
      if s.mgt.nv.staged.kind = 0 then s.activateImage snd seq
      else if s.mgt.nv.staged.kind = 1 then s.activateLifecycle snd seq req signed
      else s.activateLock snd seq req signed

def execActivate (snd seq req : Nat) (signed : Bool) (s : State) : Host.Outcome State Fault Refusal :=
  finish (s.svcMsg snd seq 5 fun s => s.svcActivate snd seq req signed)

/-! ### Confirmation (R484) -/

/-- The trial image can be confirmed: the device is in DEV_TRIAL, and no ABORT has fallen back. -/
def State.canConfirm (s : State) : Bool := s.dev = 3 && s.mgt.nv.slots.trial

def execConfirm (snd seq : Nat) (s : State) : Host.Outcome State Fault Refusal :=
  finish (s.svcMsg snd seq 6 fun s =>
    if !s.canConfirm then s.svcReply snd seq 6 stWrongState (0x8000 + s.dev * 256)
    else { s with mgt := { s.mgt with confirming := true, confMsgs := s.mgt.confMsgs ++ [(snd, seq)] } })

def runUpdateConfirm : OpRun := fun c _ s =>
  if !s.canConfirm then (s, .final stWrongState (0x8000 + s.dev * 256) 0 0 [])
  else ({ s with mgt := { s.mgt with confirming := true, confKeys := s.mgt.confKeys ++ [c.key] } }, .later false)

def execOpUpdateConfirm (h : Hdr) (p : Bytes) (s : State) : Host.Outcome State Fault Refusal :=
  finish (s.hostCmd (.opUpdateConfirm h p) 0x0A02 h p noChk runUpdateConfirm)

/-- The confirmation is written, and DEV_READY is entered; the completions follow. -/
def State.confirmed (s : State) : State :=
  let ks := s.mgt.confKeys
  let ms := s.mgt.confMsgs
  let s := { s with mgt := { s.mgt with confirming := false, confKeys := [], confMsgs := [], upd := false } }
  let s := s.confirmWrite.ev (evMgt 6)
  let s := if s.dev = 3 then s.setDev 1 0 else s
  let s := ks.foldl (fun (s : State) k => s.complete k stOk) s
  ms.foldl (fun (s : State) m => s.svcReply m.1 m.2 6 stOk 0) s

def execConfirmationWriteDone (s : State) : Host.Outcome State Fault Refusal :=
  finish (if !s.mgt.confirming ∨ s.mgt.down ∨ !s.mgt.nv.slots.trial then s else s.confirmed)

def runUpdateStatus : OpRun := fun _ _ s => (s, ok2 s.updWord s.actImg.version)

def execOpUpdateStatus (h : Hdr) (p : Bytes) (s : State) : Host.Outcome State Fault Refusal :=
  finish (s.hostCmd (.opUpdateStatus h p) 0x0A01 h p noChk runUpdateStatus)

/-! ### ABORT, RESET, WAKE (R478) -/

/-- The staged container is discarded; in DEV_TRIAL the image falls back. -/
def State.svcAbort (s : State) : State :=
  if s.dev = 3 ∧ s.mgt.nv.slots.trial then
    ({ s with mgt := { s.mgt with upd := false, confirming := false } }.fallBack 4).mgtShow
  else if s.mgt.nv.staged.st = 0 then s
  else s.toIdle.ev (evMgt 13)

def execAbort (snd seq : Nat) (s : State) : Host.Outcome State Fault Refusal :=
  finish (s.svcMsg snd seq 7 fun s => s.svcAbort.svcReply snd seq 7 stOk 0)

def execReset (snd seq kind : Nat) (s : State) : Host.Outcome State Fault Refusal :=
  finish (s.svcMsg snd seq 8 fun s =>
    if kind = 0 then (s.svcReply snd seq 8 stOk 0).startReset false 6
    else if kind = 1 then (s.svcReply snd seq 8 stOk 0).startReset true 3
    else s.svcReply snd seq 8 stBadParam 0x8000)

def execWake (snd seq : Nat) (s : State) : Host.Outcome State Fault Refusal :=
  finish (s.svcMsg snd seq 9 fun s => (s.svcReply snd seq 9 stOk 0).wakeUp)

def execReservedServiceMessage (snd seq typ : Nat) (s : State) : Host.Outcome State Fault Refusal :=
  finish (if 1 ≤ typ % 256 ∧ typ % 256 ≤ 10 then s else s.svcMsg snd seq (typ % 256) fun s => s.svcReply snd seq (typ % 256) stUnsupported 1)

/-! ### SET (R486 to R488) -/

/-- One record is appended to the area in force; of a full half the newest record of each item goes to the other one first. -/
def NonVol.append (v : NonVol) (item value : Nat) : NonVol :=
  let l := v.log v.live
  if 28672 ≤ l.length then { v.setLog v.live (packLog l ++ [(item, value)]) with passes := min (v.passes + 1) (2 ^ 32 - 1) }
  else v.setLog v.live (l ++ [(item, value)])

/-- The settable field that ITEM and MASK name, with its place. -/
def itemAt (item mask : Nat) : Option (Row × Nat × Nat × Nat) :=
  Reg.all.findSome? fun r =>
    if !settable r then none else
    match rowPlace r item with
    | some (i, j, k) => if rowMask r k = mask ∧ k % 32 = 0 then some (r, i, j, k) else none
    | none => none

/-- The newest value of an item, or the field's own value where it has no record. -/
def State.itemVal (s : State) (r : Row) (i j : Nat) : Nat :=
  (tget none (s.mgt.nv.items s.mgt.nv.live) (rowKey r i j)).getD (s.rd r i j)

/-- The item of the VDD_CORE regulator's I²C address, which no register holds. -/
def i2cItem : Nat := 2 ^ 44

/-- The entries of the allow list, which stand in the owner area (R486, R488). -/
def ownerItem (item : Nat) : Bool := decide (0x04000004 ≤ item ∧ item ≤ 0x04000040 ∧ item % 4 = 0)

/-- The item that ITEM and MASK name takes VALUE, or there is none. -/
def State.setItem (s : State) (item mask value : Nat) : Option NonVol :=
  let v := s.mgt.nv
  let mix (old : Nat) := (old ^^^ (old &&& mask)) ||| (value &&& mask)
  if item = 0x04000000 then some (v.append i2cItem (mix ((tget none (v.items v.live) i2cItem).getD 0)))
  else if ownerItem item then
    let k := (item - 0x04000004) / 4
    some { v with allow := tset 0 v.allow k (mix (tget 0 v.allow k)) }
  else match itemAt item mask with
    | none => none
    | some (r, i, j, k) =>
      some (v.append (rowKey r i j) (rowMerge r k (s.itemVal r i j) (value % 2 ^ 32)))

/-- A SET: at most 64 records a second into each area (R488). -/
def State.svcSet (s : State) (snd seq item mask value : Nat) : State :=
  let (n, m) := if s.mgt.setSec.1 = s.sec then s.mgt.setSec.2 else (0, 0)
  let owner := ownerItem item
  match s.setItem item mask value with
  | none => s.svcReply snd seq 10 stBadParam 0x8004
  | some v =>
    if 64 ≤ (if owner then m else n) then s.svcReply snd seq 10 stBusy 2
    else
      let s := { s with mgt := { s.mgt with setSec := (s.sec, if owner then (n, m + 1) else (n + 1, m)) } }
      ((s.setNv v).mgtShow).svcReply snd seq 10 stOk 0

def execSet (snd seq item mask value : Nat) (s : State) : Host.Outcome State Fault Refusal :=
  finish (s.svcMsg snd seq 10 fun s => s.svcSet snd seq item mask value)

end Sys2Proof.Machine
end

