-- ==== Sys2Proof/Machine/Store.lean ====
section
/-! DEFINITION. The Central Store seen from the host: memory commands, page wipes, scrub, BAR2, and the error responses of the
control matrix (R184 to R205, R410, R417 to R421). -/

namespace Sys2Proof.Machine

/-! ### Error responses (R417, R418) -/

/-- An error response: counted, recorded while VALID is 0, reported. -/
def State.errResp (s : State) (kind master : Nat) (write : Bool) (addr : Nat) : State :=
  let s := s.incSat (if kind = 2 then Reg.MTX_ERRCNT_LOCKBRK else if kind = 3 then Reg.MTX_ERRCNT2_BRIDGETO else Reg.MTX_ERRCNT_DEFAULT)
  let s := if s.rd Reg.MTX_ERRSTAT_VALID = 1 then s else
    (((((s.wr Reg.MTX_ERRSTAT_VALID 1).wr Reg.MTX_ERRSTAT_MASTER master).wr Reg.MTX_ERRSTAT_KIND kind).wr Reg.MTX_ERRSTAT_WRITE (bit write)).wr
      Reg.MTX_ERRADDR_ADDR addr)
  if kind = 2 then s.ev (evMtx 1) else if kind = 3 then s.ev (evMtx 2) else s.ev (evMtx 0)

/-- A BAR0 access that is not naturally aligned 32 or 64 bits (R14); nothing is reached in DEV_BOOT (R514). -/
def execBar0SizeError (off : Nat) (write : Bool) (s : State) : Host.Outcome State Fault Refusal :=
  finish (
    let s := if s.dev = 0 then s else s.errResp 1 0 write (Config.regBase + off % 0x4000000)
    if write then s else s.emit .unsupported)

/-! ### OP_MEM_ALLOC, OP_MEM_FREE (R194 to R196) -/

/-- The lowest free run of `n` shared pages, from the pages still to look at. -/
def State.freeRun (s : State) (n : Nat) : Nat → Nat → Nat → Option Nat
  | 0, _, _ => none
  | k + 1, p, cur =>
    if (s.page p).owner ≠ 0 then s.freeRun n k (p + 1) 0
    else if cur + 1 = n then some (p + 1 - n) else s.freeRun n k (p + 1) (cur + 1)

def chkMemAlloc : OpChk := fun s _ p =>
  let n := fld p 0 4
  orElse (firstBad [(n = 0 || 76800 < n, badAt 0)]) fun _ =>
    match s.freeRun n 76800 0 0 with
    | some _ => none
    | none => some { status := stNoResource, detail := 0, r0 := n, r1 := s.rd Reg.CST_SHAREDRUN_PAGES }

def runMemAlloc : OpRun := fun _ p s =>
  let n := fld p 0 4
  match s.freeRun n 76800 0 0 with
  | none => (s, ok2 0 0)
  | some f =>
    let s := s.ownPages ((List.range n).map (· + f)) 1 255
    (({ s with cst := { s.cst with runs := tset 0 s.cst.runs f n } }).pageCounts, ok2 (Config.csBase + 4096 * f) 0)

def execOpMemAlloc (h : Hdr) (p : Bytes) (s : State) : Host.Outcome State Fault Refusal :=
  finish (s.hostCmd (.opMemAlloc h p) 0x0800 h p chkMemAlloc runMemAlloc)

/-- The bytes of a HOST run that starts at an internal address. -/
def State.runAt (s : State) (a : Nat) : Nat × Nat :=
  if a < Config.csBase ∨ a % 4096 ≠ 0 then (a, a) else (a, a + 4096 * tget 0 s.cst.runs ((a - Config.csBase) / 4096))

/-- The shadow or active bank of a layer binds an address in a range. -/
def State.layerBinds (s : State) (r : Nat × Nat) : Bool :=
  s.cmp.layers.any fun e => ([e.2.bnd, e.2.latestBnd, e.2.last] ++ [e.2.pendBind.map (·.1)]).any fun b => match b with
    | some b => b.fmt ≠ 6 && meets [r] (rectExt b.fmt b.base b.pitch 0 0 b.w b.h b.h)
    | none => false

def chkMemFree : OpChk := fun s _ p =>
  let r := s.runAt (fld p 0 8)
  firstBad [(r.1 = r.2, badAt 0), (s.layerBinds r, { status := stBusy, detail := 2 })]

/-- The pages go WIPING; the completion waits for them and for the blits of the same queue that touch them. -/
def runMemFree : OpRun := fun c p s =>
  let r := s.runAt (fld p 0 8)
  let f := (r.1 - Config.csBase) / 4096
  let pages := (List.range ((r.2 - r.1) / 4096)).map (· + f)
  let ws := (s.spd.tasks.filter fun e => e.2.kind = kBlit && e.2.flow = blitFlow c.q && decide (e.2.state ≠ 5) &&
    (let b := (s.blitAt e.1).2.2; meets [r] (b.srcExt ++ b.dstExt))).map (·.2.key)
  let s := s.wipePages pages
  ({ s with cst := { s.cst with runs := tset 0 s.cst.runs f 0, frees := s.cst.frees ++ [(c.key, pages, ws)] } }, .later false)

def execOpMemFree (h : Hdr) (p : Bytes) (s : State) : Host.Outcome State Fault Refusal :=
  finish (s.hostCmd (.opMemFree h p) 0x0801 h p chkMemFree runMemFree)

/-- Zero-fill store offsets from `lo` up to `hi`, with good checks. -/
def csZero (m : Mem) (lo hi : Nat) : Mem :=
  { m with cs := m.cs.filter fun e => e.1 < lo || hi ≤ e.1, csFlip := m.csFlip.filter fun e => e.1 < lo / 64 || hi / 64 ≤ e.1 }

/-- The zero-fill of a page ends: it is FREE, or free in the pool. A page of a run that blits still touch waits for them. -/
def execPageWipeDone (page : Fin 131072) (s : State) : Host.Outcome State Fault Refusal :=
  finish (
    let p := page.val
    let held := s.cst.frees.any fun e => e.2.1.contains p && !s.blitsDone e.2.2
    if (s.page p).owner ≠ 6 ∨ held then s else
    let s := { s with mem := csZero s.mem (4096 * p) (4096 * p + 4096) }
    let s := (s.setPage p (pageDefault p)).pageCounts
    let frees := s.cst.frees.map fun e => (e.1, e.2.1.filter (· ≠ p), e.2.2)
    let s := { s with cst := { s.cst with frees := frees.filter fun e => !e.2.1.isEmpty } }
    (frees.filter fun e => e.2.1.isEmpty).foldl (fun s e => s.complete e.1 stOk) s)

/-! ### Corrected and uncorrectable lines (R197, R200) -/

/-- The bits of a line by their numbers: the data first, then the codes and the line check. -/
def lineBits (data : List (Fin 512)) (check : List (Fin 96)) : List Nat := data.map (·.val) ++ check.map fun b => 512 + b.val

/-- The patrol scrub reads the next line, one every INTERVAL FCLK, with bits of its data and of its codes found wrong beside those that are known: a corrected line is written back, and one that is uncorrectable
is recorded and stays as it is (R200). -/
def execCsScrubLine (data : List (Fin 512)) (check : List (Fin 96)) (s : State) : Host.Outcome State Fault Refusal :=
  finish (
    let early : Bool := match s.cst.scrubAt with | some t => decide (s.ns < t + s.rd Reg.CST_SCRUBCTL_INTERVAL * 2 / 3) | none => false
    if !s.fclk ∨ s.rd Reg.CST_CSTSTAT_READY = 0 ∨ early then s else
    let l := s.cst.scrubLine
    let s := s.csFlip l (tget [] s.mem.csFlip l ++ (lineBits data check).filter fun b => !(tget [] s.mem.csFlip l).contains b)
    let x := s.csFound l
    let s := if x.bad then
        let s := (s.wr Reg.CST_LASTERR_ADDR (64 * l)).wr Reg.CST_LASTERR_PORT 0x3F
        ((s.wr Reg.CST_LASTERR_KIND x.kind).wr Reg.CST_LASTERR_SCRUB 1).ev (evCst 2)
      else if x.corrected = 0 then s else (s.csMend l).csCorrected x.corrected
    let l' := (l + 1) % 8388608
    let s := { s with cst := { s.cst with scrubLine := l', scrubAt := some s.ns } }
    if l' = 0 then s.incWrap Reg.CST_SCRUBPASS_COUNT else s)

/-- The wipe has not ended 1 ms after it began (R438 cause 2). -/
def execCsWipeTimeout (s : State) : Host.Outcome State Fault Refusal :=
  finish (if s.rd Reg.CST_CSTSTAT_WIPING = 1 ∧ s.cst.wipeAt + 1000000 ≤ s.ns then s.enterSafe 2 0 else s)

/-! ### BAR2 (R202, R203, R421) -/

/-- The internal address behind a BAR2 offset. -/
def State.bar2Addr (s : State) (off : Nat) : Nat :=
  if off < 0x20000000 then Config.csBase + off else Config.dramBase + s.rd Reg.HIF_DRAMWIN_BASE * 2 ^ 29 + (off - 0x20000000)

/-- A DRAM address that the host may not write: reference descriptors, frame buffers, cache tiles. -/
def State.dramKept (s : State) (a : Nat) : Bool :=
  let inside (b n : Nat) := decide (b ≤ a) && decide (a < b + n)
  inside (s.rd Reg.REF_DESCBASE_ADDR) 65536 || inside (s.rd Reg.REF_FBBASE_ADDR) (s.rd Reg.REF_FBSIZE_BYTES) ||
    inside (s.rd Reg.CMP_TILEBASE_ADDR) (s.rd Reg.CMP_TILESIZE_BYTES)

/-- What becomes of one line of a write request: 0 written, 1 denied (R202), 2 locked (R161), 3 no target. -/
def State.bar2Verdict (s : State) (a : Nat) : Nat :=
  match s.space a with
  | (0, o) =>
    if (s.page (o / 4096)).owner = 1 then 0
    else if s.emBase ≤ o then (if s.rd Reg.CMP_CMPSTAT_ANY_EM = 1 then 2 else 0)
    else 1
  | (1, _) => if s.dramKept a then 1 else 0
  | _ => 3

/-- Split a request into pieces of one 64-byte line, as (offset, bytes). -/
def linePieces : Nat → Nat → Bytes → List (Nat × Bytes)
  | 0, _, _ => []
  | _, _, [] => []
  | n + 1, off, d =>
    let k := 64 - off % 64
    (off, d.take k) :: linePieces n (off + k) (d.drop k)

/-- Write a piece of a line. A line written in whole carries good checks again; a write into the partition marks its
variant (R159). -/
def State.bar2Put (s : State) (a : Nat) (d : Bytes) : State :=
  let s := s.setBytes a d
  match s.space a with
  | (0, o) =>
    let s := if d.length = 64 then s.csMend (o / 64) else s
    if s.emBase ≤ o then s.emTouched o d.length else s
  | (_, o) => if d.length = 64 then { s with mem := { s.mem with dramBad := tset 0 s.mem.dramBad (o / 64) 0 } } else s

/-- A BAR2 write request, line by line; what is discarded is counted once for each reason. -/
def State.bar2Write (s : State) (off : Nat) (data : Bytes) : State :=
  let ps := (linePieces (data.length + 1) (off % 2 ^ 30) data).map fun e => (s.bar2Addr e.1, e.2)
  let vs := ps.map fun e => (s.bar2Verdict e.1, e)
  let s := (vs.filter fun v => v.1 = 0).foldl (fun s v => ((s.bar2Put v.2.1 v.2.2).incWrap Reg.CST_PORT_BYTES v.2.2.length 0 47).cvuLines 958 [v.2.1 / 64 * 64]) s
  let s := if vs.any fun v => v.1 = 1 then (s.incSat Reg.CST_BAR2DENY_COUNT).ev (evCst 5) else s
  let s := if vs.any fun v => v.1 = 2 then (s.incSat Reg.CMP_EMWRDROP_COUNT).ev (evCmp 7) else s
  match vs.find? fun v => v.1 = 3 with
  | some v => s.errResp 0 1 true v.2.1
  | none => s

/-- A store line of a host read: code 0 with a corrected word, 1 good on the second read, 2 to 4 uncorrectable, 5 good on the
second read with the same data after a failed line check alone (R433), 6 clean. Answers whether it is poisoned. -/
def State.bar2Line (s : State) (o code : Nat) : Bool × State :=
  let l := o / 64
  if s.csBad l then (true, s.csUncorr o 47 (s.csFound l).kind)
  else if 6 ≤ code then
    let (hit, s) := s.csInject 47
    if hit = 2 then (true, s.csUncorr o 47 0) else (false, s)
  else if code = 5 then (false, s.csReread true)
  else if code = 0 then (false, s.csCorrected 1)
  else if code = 1 then (false, s.csReread false)
  else (true, (s.csDamage l (code - 2)).csUncorr o 47 ((code - 2) % 3))

/-- A DRAM line of a host read: code 1 corrected, 2 or more uncorrectable. Answers whether it is poisoned. -/
def State.bar2Dram (s : State) (a code : Nat) : Bool × State :=
  let l := (s.space a).2 / 64
  if s.badLine a then (true, s.lineRead a 47)
  else if code = 1 then (false, s.incSat Reg.DMC_ECCCORR_COUNT 1 (s.dramPlace l).chan)
  else if code = 0 then (false, s)
  else (true, s.lineFail a 47 0)

/-- A BAR2 read of `len` bytes. `errs` are the lines that did not read clean the first time, as (internal address, code);
a damaged line reads poisoned (R198). -/
def State.bar2Read (s : State) (off len : Nat) (errs : List (Nat × Nat)) : State :=
  let last := s.bar2Addr ((off % 2 ^ 30) + (max 1 len - 1))
  if (s.space last).1 = 2 then (s.errResp 0 1 false last).emit .unsupported else
  let data := (List.range len).map fun i => s.byte (s.bar2Addr (off % 2 ^ 30 + i))
  let lines := (linesAt (off % 2 ^ 30) (max 1 len)).map fun o => s.bar2Addr o / 64
  let (bad, s) := lines.foldl (fun (acc : Bool × State) l =>
    let (bad, s) := acc
    let code := (errs.find? fun e => e.1 / 64 = l).map (·.2)
    match s.space (64 * l) with
    | (0, o) => let (b, s) := s.bar2Line o (code.getD 6); (bad || b, s)
    | _ => let (b, s) := s.bar2Dram (64 * l) (code.getD 0); (bad || b, s)) (false, s)
  ((s.incWrap Reg.CST_PORT_BYTES len 0 47).cvuLines 959 (lines.map (64 * ·))).emit (.bar2Data data bad)

/-! ### Requests that wait (R191, R201, R403, R404) -/

/-- Bytes from a BAR2 offset stand in a memory that holds requests: the store while it is wiped, a DRAM channel that trains or switches. -/
def State.memHolds (s : State) (off n : Nat) : Bool :=
  (linesAt (off % 2 ^ 30) n).any fun l => match s.space (s.bar2Addr l) with
    | (0, _) => decide (s.rd Reg.CST_CSTSTAT_WIPING = 1)
    | (1, o) => s.dramHolds (s.dramPlace (o / 64)).chan
    | _ => false

/-- A request has to wait. -/
def State.reqHeld (s : State) : Req → Bool
  | .write off data => s.memHolds off data.length
  | .read off len _ => s.memHolds off len
  | .dram line _ _ _ => s.dramHolds (s.dramPlace line).chan

/-- A request is served. -/
def State.reqRun (s : State) : Req → State
  | .write off data => s.bar2Write off data
  | .read off len errs => s.bar2Read off len errs
  | .dram line data act res => s.dramRun line data act res

/-- A request reaches its memory, or waits for it. -/
def State.request (s : State) (r : Req) : State := if s.reqHeld r then s.stall r else s.reqRun r

/-- Those that need wait no longer are served in their order. -/
def State.serveStalled (s : State) : State :=
  let l := s.stalled
  l.foldl State.request { s with stalled := [] }

def execBar2Write (off : Nat) (data : Bytes) (s : State) : Host.Outcome State Fault Refusal :=
  finish (if s.dev = 0 then s else s.request (.write off data))

def execBar2Read (off len : Nat) (errs : List (Nat × Nat)) (s : State) : Host.Outcome State Fault Refusal :=
  finish (if s.dev = 0 then s.emit .unsupported else s.request (.read off len errs))

/-- The whole-store wipe ends, and the requests that it held are served (R201). -/
def execCsWipeDone (s : State) : Host.Outcome State Fault Refusal :=
  finish (
    if s.rd Reg.CST_CSTSTAT_WIPING = 0 then s else
    let s := { s with mem := { s.mem with cs := [], csFlip := [] }, cst := { s.cst with pages := [], runs := [], frees := [] } }
    ((((s.wr Reg.CST_CSTSTAT_WIPING 0).wr Reg.CST_CSTSTAT_READY 1).pageCounts).ev (evCst 6)).serveStalled)

/-- A training step ends on every selected channel; bit c of `pass` says which passed. What the channels held is served before the next step (R403). A set-point command that waits stops
the training (R405). -/
def execTrainingStepEnd (pass : Nat) (s : State) : Host.Outcome State Fault Refusal :=
  finish (
    match s.dmc.train with
    | none => s
    | some t =>
      if t.step = 0 then s else
      let (t, s) := ((List.range 24).filter t.live.testBit).foldl (fun (acc : Train × State) c => acc.2.trainedStep acc.1 c (pass.testBit c)) (t, s)
      let s := (((List.range 24).filter t.live.testBit).foldl (fun s c => (s.wr Reg.DMC_CHSTAT_STATE 3 c).wr Reg.DMC_TRNCTL_STEP 0 c) s).serveStalled
      if s.dmc.points = [] then s.trainStep t else
      let s := ({ s with dmc := { s.dmc with train := none } }).powerRefresh
      (s.complete t.key stAborted 0x30 t.good).switchBegin)

/-- A switch ends: what was held is served, and admission charges its limit from now on (R404). -/
def execSetPointSwitchEnd (s : State) : Host.Outcome State Fault Refusal :=
  finish (
    match s.dmc.points with
    | [] => s
    | (pt, key) :: rest =>
      if s.rd Reg.DMC_CHSTAT_STATE ≠ 4 then s else
      let s := { s with dmc := { s.dmc with points := rest } }
      let s := s.allDmc fun s c => ((s.wr Reg.DMC_CHSTAT_STATE 3 c).wr Reg.DMC_CHSTAT_POINT pt c).dmcStatus c 5
      let s := (s.complete key stOk).serveStalled
      if rest ≠ [] then s.switchBegin else
      match s.dmc.train with
      | some t => s.trainStep t
      | none => s)

end Sys2Proof.Machine
end

