-- ==== Sys2Proof/Machine/Interp.lean ====
section
/-! DEFINITION. Commands that are taken up from another place than a fetched slot: those that a queue holds (R222, R236), mirrors (R375,
R376), and the join image with the mirrors behind it (R387). -/

namespace Sys2Proof.Machine

/-- The checks and the effect of each opcode. -/
def opBody (op : Nat) : Option (OpChk × OpRun) :=
  match op with
  | 0x0000 => some (noChk, runNop)
  | 0x0001 => some (noChk, runDevInfo)
  | 0x0002 => some (chkQueueCreate, runQueueCreate)
  | 0x0003 => some (chkQueueDelete, runQueueDelete)
  | 0x0004 => some (chkQueueResume, runQueueResume)
  | 0x0005 => some (chkBarrier, runBarrier)
  | 0x0006 => some (chkEngService, runEngService)
  | 0x0100 => some (noChk, runChCreate)
  | 0x0101 => some (chkChDestroy, runChDestroy)
  | 0x0102 => some (chkChSetFormat, runChSetFormat)
  | 0x0103 => some (chkChSetLatency, runChSetLatency)
  | 0x0104 => some (chkChSetCoding, runChSetCoding)
  | 0x0105 => some (chkChSetRefs, runChSetRefs)
  | 0x0106 => some (chkChSetRate, runChSetRate)
  | 0x0107 => some (chkChSetRefresh, runChSetRefresh)
  | 0x0108 => some (chkChSetSlotmask, runChSetSlotmask)
  | 0x0109 => some (chkChAdmit, runChAdmit)
  | 0x010A => some (noChk, runChRelease)
  | 0x010B => some (noChk, runChStart)
  | 0x010C => some (noChk, runChStop)
  | 0x010D => some (noChk, runChReset)
  | 0x010E => some (noChk, runChRefresh)
  | 0x010F => some (chkChMarkLong, runChMarkLong)
  | 0x0110 => some (noChk, runChStatus)
  | 0x0120 => some (chkInCreate, runInCreate)
  | 0x0121 => some (chkInDestroy, runInDestroy)
  | 0x0122 => some (chkInSetMeter, runInSetMeter)
  | 0x0200 => some (chkLayerSet, runLayerSet)
  | 0x0201 => some (chkLayerBind, runLayerBind)
  | 0x0202 => some (chkLayerFlip, runLayerFlip)
  | 0x0203 => some (chkLayerDirty, runLayerDirty)
  | 0x0210 => some (chkCmpSetCoef, runCmpSetCoef)
  | 0x0300 => some (chkBlit, runBlit)
  | 0x0400 => some (chkAudSetPort, runAudSetPort)
  | 0x0401 => some (chkAudRoute, runAudRoute)
  | 0x0402 => some (chkAudUnroute, runAudUnroute)
  | 0x0500 => some (chkOutCreate, runOutCreate)
  | 0x0501 => some (chkOutDestroy, runOutDestroy)
  | 0x0502 => some (chkOutSetShaper, runOutSetShaper)
  | 0x0503 => some (chkOutSetWindow, runOutSetWindow)
  | 0x0600 => some (chkTimeSetPtp, runTimeSetPtp)
  | 0x0601 => some (chkTimeSetPort, runTimeSetPort)
  | 0x0602 => some (chkTimeSetOutputs, runTimeSetOutputs)
  | 0x0603 => some (noChk, runTimeStatus)
  | 0x0700 => some (chkPairEnable, runPairEnable)
  | 0x0701 => some (noChk, runPairDisable)
  | 0x0702 => some (chkPairHandover, runPairHandover)
  | 0x0703 => some (noChk, runPairStatus)
  | 0x0800 => some (chkMemAlloc, runMemAlloc)
  | 0x0801 => some (chkMemFree, runMemFree)
  | 0x0810 => some (chkDramSetPoint, runDramSetPoint)
  | 0x0811 => some (chkDramTrain, runDramTrain)
  | 0x0812 => some (noChk, runDramStatus)
  | 0x0900 => some (chkCvuConfig, runCvuConfig)
  | 0x0901 => some (noChk, runDiagHealth)
  | 0x0A00 => some (noChk, runLcStatus)
  | 0x0A01 => some (noChk, runUpdateStatus)
  | 0x0A02 => some (noChk, runUpdateConfirm)
  | 0x0A03 => some (chkOnAirLock, runOnAirLock)
  | 0x0F00 => some (chkEm, runEmOn)
  | 0x0F01 => some (chkEm, runEmOff)
  | 0x0F02 => some (chkEmSetVariant, runEmSetVariant)
  | _ => none

/-- Opcode, header and parameters of a host command. -/
def opParts (i : Instr) : Option (Nat × Hdr × Bytes) :=
  match i with
  | .opNop h p => some (0x0000, h, p)
  | .opDevInfo h p => some (0x0001, h, p)
  | .opQueueCreate h p => some (0x0002, h, p)
  | .opQueueDelete h p => some (0x0003, h, p)
  | .opQueueResume h p => some (0x0004, h, p)
  | .opBarrier h p => some (0x0005, h, p)
  | .opEngService h p => some (0x0006, h, p)
  | .opChCreate h p => some (0x0100, h, p)
  | .opChDestroy h p => some (0x0101, h, p)
  | .opChSetFormat h p => some (0x0102, h, p)
  | .opChSetLatency h p => some (0x0103, h, p)
  | .opChSetCoding h p => some (0x0104, h, p)
  | .opChSetRefs h p => some (0x0105, h, p)
  | .opChSetRate h p => some (0x0106, h, p)
  | .opChSetRefresh h p => some (0x0107, h, p)
  | .opChSetSlotmask h p => some (0x0108, h, p)
  | .opChAdmit h p => some (0x0109, h, p)
  | .opChRelease h p => some (0x010A, h, p)
  | .opChStart h p => some (0x010B, h, p)
  | .opChStop h p => some (0x010C, h, p)
  | .opChReset h p => some (0x010D, h, p)
  | .opChRefresh h p => some (0x010E, h, p)
  | .opChMarkLong h p => some (0x010F, h, p)
  | .opChStatus h p => some (0x0110, h, p)
  | .opInCreate h p => some (0x0120, h, p)
  | .opInDestroy h p => some (0x0121, h, p)
  | .opInSetMeter h p => some (0x0122, h, p)
  | .opLayerSet h p => some (0x0200, h, p)
  | .opLayerBind h p => some (0x0201, h, p)
  | .opLayerFlip h p => some (0x0202, h, p)
  | .opLayerDirty h p => some (0x0203, h, p)
  | .opCmpSetCoef h p => some (0x0210, h, p)
  | .opBlit h p => some (0x0300, h, p)
  | .opAudSetPort h p => some (0x0400, h, p)
  | .opAudRoute h p => some (0x0401, h, p)
  | .opAudUnroute h p => some (0x0402, h, p)
  | .opOutCreate h p => some (0x0500, h, p)
  | .opOutDestroy h p => some (0x0501, h, p)
  | .opOutSetShaper h p => some (0x0502, h, p)
  | .opOutSetWindow h p => some (0x0503, h, p)
  | .opTimeSetPtp h p => some (0x0600, h, p)
  | .opTimeSetPort h p => some (0x0601, h, p)
  | .opTimeSetOutputs h p => some (0x0602, h, p)
  | .opTimeStatus h p => some (0x0603, h, p)
  | .opPairEnable h p => some (0x0700, h, p)
  | .opPairDisable h p => some (0x0701, h, p)
  | .opPairHandover h p => some (0x0702, h, p)
  | .opPairStatus h p => some (0x0703, h, p)
  | .opMemAlloc h p => some (0x0800, h, p)
  | .opMemFree h p => some (0x0801, h, p)
  | .opDramSetPoint h p => some (0x0810, h, p)
  | .opDramTrain h p => some (0x0811, h, p)
  | .opDramStatus h p => some (0x0812, h, p)
  | .opCvuConfig h p => some (0x0900, h, p)
  | .opDiagHealth h p => some (0x0901, h, p)
  | .opLcStatus h p => some (0x0A00, h, p)
  | .opUpdateStatus h p => some (0x0A01, h, p)
  | .opUpdateConfirm h p => some (0x0A02, h, p)
  | .opOnAirLock h p => some (0x0A03, h, p)
  | .opEmOn h p => some (0x0F00, h, p)
  | .opEmOff h p => some (0x0F01, h, p)
  | .opEmSetVariant h p => some (0x0F02, h, p)
  | .reservedOpcodeCommand op h p => some (op, h, p)
  | _ => none

/-! ### Held commands (R222, R236, R246) -/

/-- A queue that holds a command may take it up again: it runs, and neither order nor a STOP_ON_ERROR command ahead holds it. -/
def State.mayResume (s : State) (q : Nat) (h : Hdr) : Bool :=
  s.dev ≠ 0 && s.fclk && s.rd Reg.HIF_QSTAT_ENABLED 0 q = 1 && s.rd Reg.HIF_QSTAT_HALTED 0 q = 0 && s.rd Reg.HIF_QSTAT_CQFULL 0 q = 0 &&
    s.coreUp q && !(h.flags.toNat.testBit 1 && (s.que q).owes) && (s.que q).stopWait.isNone

/-- The command that a queue holds is interpreted, or aborted where it lies behind a halt that was flushed (R246). -/
def State.resumeQ (s : State) (q : Nat) : State :=
  match (s.que q).held with
  | none => s
  | some (i, pos) =>
    match opParts i with
    | none => s
    | some (op, h, p) =>
      if (s.que q).flushes pos then
        (s.setQue q { s.que q with held := none }).reply q
          (mkRply pos h.tag.toNat op h.channel.toNat stAborted 3 0 0 h.flags.toNat false [])
      else if !s.mayResume q h then s else
      let (chk, run) := (opBody op).getD (noChk, runNop)
      s.resumeHeld i pos op h p chk run

def execOrderWaitRelease (q : Fin 66) (s : State) : Host.Outcome State Fault Refusal := finish (s.resumeQ q)

/-- A queue that stalls on the pool: it could take its command up but for a descriptor. -/
def State.stalledQ (s : State) (q : Nat) : Bool :=
  match (s.que q).held with
  | none => false
  | some (i, _) => match opParts i with
    | none => false
    | some (_, h, _) => s.mayResume q h

/-- The oldest reply of a queue waits for the descriptors of its commits. -/
def State.replyStalled (s : State) (q : Nat) : Bool :=
  match (s.que q).replies with
  | [] => false
  | r :: _ => decide (r.hold = .none) && s.ringRoom q && decide (s.genCount < r.commits.length)

/-! ### Mirrors (R375, R376) -/

/-- Status and results of an answer, as the reply would show them. -/
def Ans.shown (a : Ans) : Nat × Nat × Nat × Nat :=
  match a with
  | .final st d r0 r1 _ => (st, d, r0, r1)
  | .later df => (if df then stDeferred else stAccepted, 0, 0, 0)
  | .accDone .. => (stAccepted, 0, 0, 0)
  | _ => (stAccepted, 0, 0, 0)

/-- The commits of an answer whose row this device has already released. -/
def State.ansLate (s : State) (a : Ans) : Bool :=
  match a with
  | .final _ _ _ _ cs => cs.any fun c => decide (c.ch < 64) && decide (c.kind ≠ .start) && (s.chan c.ch).passed c.frame c.row
  | _ => false

/-- One mirror is applied and acknowledged with this device's own status; its commits are handed on at once. A difference or a
row already released mutes the device. Without a free descriptor the mirror waits. -/
def State.mirrorApply (s : State) (m : MirrorRec) : State :=
  let h := m.h
  let (chk, run) := (opBody m.op).getD (noChk, runNop)
  let (s1, a) := s.judge true m.op h.qid h.flags.toNat h.channel.toNat h.tag.toNat h.plen.toNat h.effpt.toNat (h.zero = 0) m.p 0 chk run
  match a with
  | .stall => s1.setPair { s1.pair with heldMirrors := s1.pair.heldMirrors ++ [m] }
  | a =>
    let late := s1.ansLate a
    let s1 := match a with
      | .final _ _ _ _ cs => cs.foldl State.handCommit s1
      | _ => s1
    let s1 := s1.linkSend 2 (.mirrorAck m.seq a.shown.1)
    if a.shown ≠ (m.status, m.detail, m.r0, m.r1) then s1.mirrorFail 6 else if late then s1.mirrorFail 7 else s1

/-- Mirrors that wait are applied in their order. -/
def State.mirrorsHeld (s : State) : State :=
  let l := s.pair.heldMirrors
  l.foldl (fun (s : State) m =>
    if s.pair.heldMirrors.isEmpty then s.mirrorApply m else s.setPair { s.pair with heldMirrors := s.pair.heldMirrors ++ [m] })
    (s.setPair { s.pair with heldMirrors := [] })

/-- A mirror arrives: a gap in its sequence fails; a RESYNC device without an image holds it. -/
def State.mirrorIn (s : State) (m : MirrorRec) : State :=
  if s.role < 2 then s else
  let gap := m.seq ≠ s.rd Reg.PAIR_MIRRORSEQ_RX
  let s := s.wr Reg.PAIR_MIRRORSEQ_RX (m.seq + 1)
  if gap then s.mirrorFail 5
  else if s.rd Reg.PAIR_PAIRSTAT_IMAGE = 0 ∨ !s.pair.heldMirrors.isEmpty then s.setPair { s.pair with heldMirrors := s.pair.heldMirrors ++ [m] }
  else s.mirrorApply m

def execMirrorReceive (seq op : Nat) (h : Hdr) (p : Bytes) (status detail r0 r1 : Nat) (s : State) : Host.Outcome State Fault Refusal :=
  finish (s.mirrorIn { seq := seq % 65536, op := op, h := h, p := p, status := status, detail := detail, r0 := r0, r1 := r1 })

/-- A descriptor is free again: the queue, or the mirrors that wait, go on, and the stall ends with its last source. -/
def State.poolFree (s : State) (q : Nat) : State :=
  if s.genCount = 0 then s else
  let s := s.post q
  let s := if s.stalledQ q then s.resumeQ q else s
  let s := if s.rd Reg.PAIR_PAIRSTAT_IMAGE = 1 then s.mirrorsHeld else s
  if ((List.range 66).any fun q => s.stalledQ q || s.replyStalled q) ∨ (s.rd Reg.PAIR_PAIRSTAT_IMAGE = 1 ∧ !s.pair.heldMirrors.isEmpty) then s else s.stallEnd

/-- The pool has a free descriptor: the queue's reply or command goes on (R222). -/
def execPoolStallEnd (q : Fin 66) (s : State) : Host.Outcome State Fault Refusal := finish (s.poolFree q)

/-! ### The join image (R387) -/

/-- A shaper and a packer of the image, without what HEADSTOCK's queues hold. -/
def Shaper.joined (x : Shaper) : Shaper := { x with queue := [], lastRel := 0, lastSeq := none, lateUnit := none }
def Pkr.joined (k : Pkr) : Pkr := { k with rel := none, audRel := none, decided := [], noAddrAt := none }

/-- A flow of the image: its addresses, meter, format and ring reservation; what HEADSTOCK received stays there. -/
def InFlow.joined (x : InFlow) : InFlow :=
  { kind := x.kind, nets := x.nets, dportA := x.dportA, dportB := x.dportB, groupA := x.groupA, srcA := x.srcA, groupB := x.groupB, srcB := x.srcB,
    meter := x.meter, fmt := x.fmt, pages := x.pages, lines := x.lines, bytes := x.bytes, hmin := x.hmin }

/-- The flows of the image in place of the device's own. -/
def State.joinFlows (s : State) (g : Image) : State :=
  let s := s.forEach (List.range 384) State.flowDestroy
  s.forEach (List.range 384) fun s f => match tget none g.flows f with
    | none => s
    | some x => s.flowCreate f x.joined

/-- The meters of the image, as METERVIEW shows them. -/
def State.joinMeters (s : State) (g : Image) : State :=
  s.forEach (List.range 512) fun s k =>
    let m := tget ({} : Meter) g.meters k
    ((s.setMeter k m).wr Reg.INP_METERVIEW_SET (bit m.set) k).wr Reg.INP_METERVIEW_SET (bit m.set) (512 + k)

/-- The state with the image's parts in place of its own, its contexts and HOST pages gone. -/
def State.withImage (s : State) (g : Image) : State :=
  let s := (s.joinFlows g).joinMeters g
  let ids := imageRows.map (·.id)
  let keep := s.regs.filter fun e => !(ids.contains (e.1 / 2 ^ 24))
  let regs := g.regs.foldl (fun t e => tins t e.1 e.2) keep
  { s with
    regs := regs, chans := g.chans, refs := g.refs, progs := g.progs, routes := g.routes, routesAct := g.routesAct,
    shps := g.shps.map fun (e : Nat × Shaper) => (e.1, e.2.joined), pkrs := g.pkrs.map fun (e : Nat × Pkr) => (e.1, e.2.joined),
    cmp := { s.cmp with layers := g.layers, banks := g.banks, chBank := g.chBank, coefWait := g.coefWait },
    cst := { s.cst with pages := g.pages, runs := g.runs } }

/-- Every channel context is destroyed, and the HOST pages are free; what the host wrote in them stays for the pages of the image (R255). -/
def State.dropContexts (s : State) : State :=
  let s := s.forEach (List.range 64) fun s n => if s.chSt n = 0 then s else s.freeChan n
  { s with cst := { s.cst with pages := s.cst.pages.filter fun e => decide (e.2.owner ≠ 1), runs := [] } }

/-- A channel of the image begins at F_j with CONST references and follows; its pending commits take descriptors here. -/
def State.joinChan (s : State) (ts n : Nat) : State :=
  let c := s.chan n
  let cs := c.commits
  let c := { c with commits := [], lists := [], slicesLeft := [], ring := [], ringHead := 0, composed := [], packed := none, lastPic := none, curPic := none,
                    maskFrame := none, rcWait := none, bands := [], pfx := [], substs := [], emInvalidPic := none, intDue := false, paramBad := false }
  let s := s.setChan n c
  let s := if s.chSt n ≠ 3 then s else
    let s := s.setChan n { c with nextFrame := s.joinFrame n ts, nextRow := 0 }
    let s := { s with refs := s.refs.map fun (e : Nat × Ref) => (e.1, if e.2.owner = n ∧ (e.2.mark = 2 ∨ e.2.mark = 3) then { e.2 with const := true } else e.2) }
    (s.setRun n 0).setFollow n true
  let (cs, s) := s.number cs
  cs.foldl State.handCommit s

/-- The image is applied, and after it the mirrors that waited; one that fails admission leaves the device with TRANSFER_FAIL. -/
def State.imageIn (s : State) (g : Image) : State :=
  if s.role ≠ 3 ∨ !s.pair.fullPend then s else
  let s := s.dropContexts
  let t := s.withImage g
  if (List.range 64).any fun n => t.admitted n && (t.admitCheck n).isSome then
    (((s.wr Reg.PAIR_PAIRSTAT_CAUSE 11).setPair { s.pair with heldMirrors := [] }).pageCounts).ev (evPair 12)
  else
    let t := t.forEach (List.range 64) fun t n =>
      let t := t.joinChan g.ts n
      if t.admitted n ∧ (t.prog n).isSome then (t.assignMacs n).launchShow n else t
    let t := t.forEach (List.range 1024) State.descWrite
    let (dc, t) := t.number g.devCommits
    let t := dc.foldl State.handCommit t
    let t := (t.wr Reg.PAIR_PAIRSTAT_IMAGE 1).setPair { t.pair with fullPend := false }
    (((t.pageCounts).fbCounts).ev (evPair 12)).mirrorsHeld

def execImageReceive (img : Image) (s : State) : Host.Outcome State Fault Refusal := finish (s.imageIn img)

end Sys2Proof.Machine
end

