-- ==== Sys2Proof/Machine/TestRows.lean ====
section
/-! DEFINITION. The TST block: its lock and its perturbations (R493 to R499). -/

namespace Sys2Proof.Machine

/-- The lock is open and the block runs. -/
def State.tstOn (s : State) : Bool := s.fclk && s.rd Reg.TST_LOCKSTAT_OPEN = 1

/-- Why an opening write is denied: 1 lifecycle, 2 on-air lock or device state, 3 key. -/
def State.tstDeny (s : State) (key : Nat) : Option Nat :=
  if s.rd Reg.PCR_LCSTAT_STATE = 2 then some 1
  else if s.rd Reg.PCR_LCSTAT_ON_AIR_LOCK = 1 ∨ (s.dev ≠ 1 ∧ s.dev ≠ 3) then some 2
  else if key % 65536 ≠ 0x7E57 then some 3 else none

/-- A write of LOCK (R493, R494). -/
def State.tstLock (s : State) (key : Nat) (opn : Bool) : State :=
  if !s.fclk then s
  else if !opn then s.tstClose
  else match s.tstDeny key with
    | some r => ((s.wr Reg.TST_LOCKSTAT_REASON r).incSat Reg.TST_LOCKSTAT_DENIED).ev (evTst 2)
    | none =>
      if s.rd Reg.TST_LOCKSTAT_OPEN = 1 then s
      else (((s.wr Reg.TST_LOCKSTAT_OPEN 1).wr Reg.TST_LOCK_OPEN 1).tstShow).ev (evTst 0)

def execTstLockWrite (key : Nat) (opn : Bool) (s : State) : Host.Outcome State Fault Refusal :=
  finish (
    let s := s.hostAccess Reg.TST_LOCK_OPEN
    s.tstLock key opn)

/-- REFCTL.APPLY: NS joins the due times not yet reported to the Spindle. A second one replaces one that waits. -/
def State.skewApply (s : State) : State :=
  if !s.tstOn then s
  else ({ s with dmc := { s.dmc with skew := some (ofTwos 32 (s.rd Reg.TST_REFSKEW_NS), s.dmc.due) } }).tstShow

def execRefctlApply (s : State) : Host.Outcome State Fault Refusal :=
  finish (
    let s := s.hostAccess Reg.TST_REFCTL_APPLY
    s.skewApply)

/-- TIMECTL.FIRE: internal time steps by NS, even while channels run. -/
def State.stepFire (s : State) : State :=
  if !s.tstOn then s else (s.timeStep (ofTwos 32 (s.rd Reg.TST_TIMESTEP_NS) * 65536)).ev (evTst 3)

def execTimectlFire (s : State) : Host.Outcome State Fault Refusal :=
  finish (
    let s := s.hostAccess Reg.TST_TIMECTL_FIRE
    s.stepFire)

/-- CHKINJ.FIRE: the next COUNT items of TARGET are corrupted as KIND selects. -/
def State.checkFire (s : State) : State :=
  if !s.tstOn then s else
  let k := s.rd Reg.TST_CHKINJ_KIND
  ({ s with tst := { s.tst with inj := if k = 0 then (0, 0, 0) else (k, s.rd Reg.TST_CHKINJ_TARGET, s.rd Reg.TST_CHKINJ_COUNT) } }).tstShow

def execChkinjFire (s : State) : Host.Outcome State Fault Refusal :=
  finish (
    let s := s.hostAccess Reg.TST_CHKINJ_FIRE
    s.checkFire)

/-- A write of HBSUPP: heartbeats are silent for MS ms from the write; 0 ends it at once. -/
def State.hbSupp (s : State) (link line : Bool) (ms : Nat) : State :=
  if !s.tstOn then s else
  let s := ((s.wr Reg.TST_HBSUPP_LINK (bit link)).wr Reg.TST_HBSUPP_LINE (bit line)).wr Reg.TST_HBSUPP_MS ms
  let ms := s.rd Reg.TST_HBSUPP_MS
  ({ s with tst := { s.tst with hbUntil := if ms = 0 then none else some (s.ns + ms * 1000000) } }).tstShow

def execHbsuppWrite (link line : Bool) (ms : Nat) (s : State) : Host.Outcome State Fault Refusal :=
  finish (
    let s := s.hostAccess Reg.TST_HBSUPP_MS
    s.hbSupp link line ms)

def execHbsuppExpiry (s : State) : Host.Outcome State Fault Refusal :=
  finish (
    match s.tst.hbUntil with
    | none => s
    | some t => ({ s.at t with tst := { s.tst with hbUntil := none } }).tstShow)

/-- The selected port has refused requests for ON FCLK: guaranteed requests that waited longer than 64 FCLK count (R189). -/
def execBackpressurePeriod (late : Nat) (s : State) : Host.Outcome State Fault Refusal :=
  finish (
    if !s.tstOn ∨ s.rd Reg.TST_BPINJ_EN = 0 ∨ s.rd Reg.TST_BPTIME_ON = 0 then s else
    let p := s.rd Reg.TST_BPINJ_PORT
    if s.rd Reg.CST_PORT_CLASS 0 p = 1 then s
    else s.forEach (List.range late) fun s _ => (s.incSat Reg.CST_PORT_LATE 1 0 p).ev (evCst 4))

end Sys2Proof.Machine
end

