-- ==== Sys2Proof/Machine/RegRead.lean ====
section
/-! DEFINITION. Reads of registers: what each field shows, the latches of split reads, and the fields that a read clears (R10 to
R14, R417 to R420, R514). -/

namespace Sys2Proof.Machine

/-! ### Views (R207, R225, R227) -/

/-- The internal address of a task's parameter record in the system region (R192, R207): which line of it is a free value (log entry 99). -/
def paramAddr (kind d : Nat) : Nat := Config.csBase + 0x12C00000 + 64 * ((Config.paramRec kind d).toNat % 65536)

/-- The 64 bytes of a task descriptor (R207). -/
def State.taskBytes (s : State) (d : Nat) : Bytes :=
  let t := s.task d
  let dl := match t.deadline with | none => 0xFFFFFFFF | some x => x - t.release * 1000
  let suc (k : Nat) : Bytes := toLe 2 (match t.succ[k]? with | some x => x + 2 ^ 15 | none => 0)
  toLe 1 t.state ++ toLe 1 t.kind ++ toLe 1 (t.cls + 4 * t.prio) ++ toLe 1 t.dep ++ toLe 2 t.flow ++ toLe 1 t.ch ++ toLe 1 t.col ++
    toLe 4 t.fseq ++ toLe 2 t.row ++ toLe 1 t.target ++ toLe 1 0 ++ toLe 8 t.frame ++ toLe 8 t.release ++ toLe 4 dl ++
    suc 0 ++ suc 1 ++ suc 2 ++ suc 3 ++ toLe 4 0 ++ toLe 8 (if t.state = 0 then 0 else paramAddr t.kind d) ++ toLe 8 t.gseq

/-- The 32 bytes of a record of the shavings log (R225). -/
def traceBytes (r : Trace) : Bytes :=
  toLe 4 (r.ns / 1000000000) ++ toLe 4 (r.ns % 1000000000) ++ toLe 1 r.kind ++ toLe 1 r.cp ++ toLe 2 r.task ++ toLe 2 r.flow ++
    toLe 1 r.ch ++ toLe 1 r.target ++ toLe 4 r.frame ++ toLe 2 r.row ++ toLe 1 r.col ++ toLe 1 r.tkind ++ toLe 8 r.aux

/-- The record at the selected place of the log's memory. -/
def State.traceAt (s : State) (x : Nat) : Bytes :=
  match s.spd.log[(x + 8192 - s.rd Reg.SPD_TRACEHEAD_INDEX) % 8192]? with
  | some r => traceBytes r
  | none => []

/-- Tasks that satisfy a condition. -/
def State.taskCount (s : State) (f : Task → Bool) : Nat := (s.spd.tasks.filter fun e => f e.2).length

/-- Three taps of the newest bank selected by COEFSEL, from tap `t` (R142). -/
def State.coefTaps (s : State) (t n : Nat) : Nat :=
  let bank := s.rd Reg.CMP_COEFSEL_BANK
  let dir := s.rd Reg.CMP_COEFSEL_DIR
  let b := (s.cmp.banks.find? fun e => e.1 = bank).map (·.2)
  (List.range n).foldl (fun a k => a + toTwos 10 (Bank.tap b dir (s.rd Reg.CMP_COEFSEL_PHASE) (t + k)) * 2 ^ (10 * k)) 0

/-- The entry a view shows: its selector's value, or the instance itself. -/
def State.viewIdx (s : State) (r : Row) (i : Nat) : Nat :=
  match r.view with
  | 1 => s.rd Reg.INP_FLOWSEL_FLOW
  | 2 => 512 * s.rd Reg.INP_METERSEL_NET + s.rd Reg.INP_METERSEL_METER
  | 3 => s.rd Reg.SHP_SHPSEL_SHAPER
  | 4 => 16 * s.rd Reg.SHP_WINSEL_MAC + s.rd Reg.SHP_WINSEL_WIN
  | 5 => s.rd Reg.CVU_UNITSEL_UNIT
  | 6 => s.rd Reg.EVT_OCCSEL_SRC
  | _ => i

/-- Fields that show a part of the state that has no place in the register file. -/
def State.shown (s : State) (r : Row) (i j : Nat) : Option Nat :=
  if Row.is r Reg.TIM_NOWSEC_SEC then some s.sec
  else if Row.is r Reg.TIM_NOWNS_NS then some s.nsec
  else if Row.is r Reg.TIM_NOWFRAC_FRAC then some (s.time.now % 65536)
  else if Row.is r Reg.TIM_HOLDTIME_S then some s.holdTime
  else if Row.is r Reg.TIM_INST_SLAVEMAC then some (s.slaveMac j)
  else if Row.is r Reg.REF_DESCVIEW_MARK then some (s.ref (s.rd Reg.REF_DESCSEL_INDEX)).mark
  else if Row.is r Reg.SHP_SHAPER_LAUNCHING then (s.prog (j / 4)).map fun p => bit (p.drives j && s.launches (j / 2 % 2) s.ns)
  else if Row.is r Reg.CMP_COEFVIEW0_TAPS then some (s.coefTaps 0 3)
  else if Row.is r Reg.CMP_COEFVIEW1_TAPS then some (s.coefTaps 3 3)
  else if Row.is r Reg.CMP_COEFVIEW2_TAPS then some (if s.rd Reg.CMP_COEFSEL_DIR = 1 then 0 else s.coefTaps 6 2)
  else if Row.is r Reg.CST_PAGEVIEW_OWNER then some (s.page (s.rd Reg.CST_PAGESEL_PAGE)).owner
  else if Row.is r Reg.CST_PAGEVIEW_CHANNEL then
    (let p := s.page (s.rd Reg.CST_PAGESEL_PAGE)
     some (if p.owner = 2 ∨ p.owner = 4 then p.ch else 255))
  else if Row.is r Reg.SPD_SPDSTAT_RUNNING then some (bit s.fclk)
  else if Row.is r Reg.SPD_REFNEXT_NS then some ((s.spd.refNext.getD 0) % 1000000000)
  else if Row.is r Reg.SPD_FLOWVIEW_ATOMIC then some (bit (s.flow (s.rd Reg.SPD_FLOWSEL_FLOW)).atomic)
  else if Row.is r Reg.SPD_FLOWVIEW_VALID then some (bit (s.flow (s.rd Reg.SPD_FLOWSEL_FLOW)).valid)
  else if Row.is r Reg.SPD_FLOWVIEW_WINDOW then some (s.flow (s.rd Reg.SPD_FLOWSEL_FLOW)).window
  else if Row.is r Reg.SPD_FLOWVIEW_INFLIGHT then
    some (s.taskCount fun t => t.flow = s.rd Reg.SPD_FLOWSEL_FLOW && (t.state = 4 || t.state = 5))
  else if Row.is r Reg.SPD_FLOWSEQ_OLDEST then some (s.flow (s.rd Reg.SPD_FLOWSEL_FLOW)).oldest
  else if Row.is r Reg.SPD_READYDEPTH_TASKS then some (s.taskCount fun t => t.state = 3 && 8 * t.cls + t.prio = j)
  else if Row.is r Reg.SPD_DELAYDEPTH_TASKS then some (s.taskCount fun t => t.state = 2 && t.flow % 16 = j)
  else if Row.is r Reg.SPD_TRACEWORD_DATA then some (fld (s.traceAt (s.rd Reg.SPD_TRACESEL_INDEX)) (4 * j) 4)
  else if Row.is r Reg.SPD_DESCWORD_DATA then some (fld (s.taskBytes (s.rd Reg.SPD_DESCSEL_INDEX)) (4 * j) 4)
  else if Row.is r Reg.SPD_STALLCYC_CYCLES then
    some (s.rd r + (match s.spd.stallFrom with | some t => (s.ns - t) * 3 / 2 | none => 0))
  else if Row.is r Reg.ENC_BUSYCYC_CYCLES then some (s.rd r i + s.engSpent i)
  else if Row.is r Reg.ENC_FAULTCNT_RECENT then some (min 255 (s.recent i))
  else if Row.is r Reg.EVT_OCCVIEW_COUNT then
    (let x := s.rd Reg.EVT_OCCSEL_SRC
     some (if 691 < x then 0 else tget 0 s.evt.occ x))
  else if Row.is r Reg.EVT_PENDSUM_WORDS then
    some ((List.range 22).foldl (fun a w =>
      let st := s.rd Reg.EVT_STAT_BITS 0 w
      a + 2 ^ w * bit (st ^^^ (st &&& s.rd Reg.EVT_MASK_BITS 0 w) ≠ 0)) 0)
  else none

/-- Fields whose value comes from outside the model: pins and frequencies that no command reports, counts of time and traffic that
the model leaves out, and what training leaves in the pattern registers. A read returns a free value. -/
def State.freeField (s : State) (r : Row) (i j : Nat) : Bool :=
  Row.is r Reg.PAIR_PAIRSTAT_PRESENT || Row.is r Reg.AUD_MCLKIN_PPM || Row.is r Reg.AUD_MCLKIN_PRESENT || Row.is r Reg.MTX_MAXWAIT_FCLK ||
    (Row.is r Reg.CST_PORT_BYTES && (j < 32 || (39 < j && j < 47))) || (Row.is r Reg.SDS_STUFFCNT_BITS && (16 ≤ i && i < 24)) ||
    ([Reg.DMC_PATCTL_MODE, Reg.DMC_PATCTL_INV, Reg.DMC_PATDATA_DATA, Reg.DMC_DQSEL_BIT, Reg.DMC_DQSEL_DIR, Reg.DMC_DQDLY_TAPS,
      Reg.DMC_CMPERR_COUNT, Reg.DMC_VREF_DQ, Reg.DMC_VREF_CA].any (Row.is r) && s.rd Reg.DMC_CHSTAT_TRAINED i ≠ 0)

/-- What a field shows. WO and W1S fields read as zero, and a selector past the last entry shows zero. -/
def State.fieldVal (s : State) (r : Row) (i j : Nat) : Nat :=
  if r.typ = .wo ∨ r.typ = .w1s then 0 else
  let x := s.viewIdx r i
  if r.n ≤ x then 0 else ((s.shown r i j).getD (s.rd r x j)) % 2 ^ r.w

/-! ### Words -/

/-- The blocks' ranges of BAR0 offsets (R420). -/
def regRanges : List (Nat × Nat) :=
  [(0x000000, 0x06FFFF), (0x080000, 0x08FFFF), (0x100000, 0x10FFFF), (0x120000, 0x12FFFF), (0x140000, 0x14FFFF), (0x160000, 0x16FFFF),
    (0x180000, 0x18FFFF), (0x1A0000, 0x1AFFFF), (0x1C0000, 0x1CFFFF), (0x200000, 0x20FFFF), (0x300000, 0x317FFF), (0x400000, 0x40FFFF),
    (0x480000, 0x487FFF), (0x500000, 0x51FFFF), (0x600000, 0x60FFFF), (0x700000, 0x70FFFF), (0x780000, 0x78FFFF), (0x800000, 0x81FFFF)]

def inRange (a : Nat) : Bool := regRanges.any fun r => decide (r.1 ≤ a) && decide (a ≤ r.2)

/-- The fields in a word, with their places. -/
def fieldsAt (a : Nat) : List (Row × Nat × Nat × Nat) :=
  Reg.all.filterMap fun r => (rowPlace r a).map fun p => (r, p)

/-- The bits of a field's value that lie in the word at bit `k` of its register. -/
def wordPart (r : Row) (k v : Nat) : Nat := v * 2 ^ r.lo / 2 ^ k % 2 ^ 32

/-- A word as it stands. Each field that comes from outside takes a free value. -/
def State.regWord (s : State) (a : Nat) : Nat × State :=
  (fieldsAt a).foldl (fun (acc : Nat × State) e =>
    let (r, i, j, k) := e
    let s := acc.2
    if s.freeField r i j then
      (let (v, s) := s.free
       (acc.1 + wordPart r k (v % 2 ^ r.w), s))
    else (acc.1 + wordPart r k (s.fieldVal r i j), s)) (0, s)

/-- A read clears the RC fields of a word (R10). -/
def State.rcClear (s : State) (a : Nat) : State :=
  (fieldsAt a).foldl (fun (s : State) e => if e.1.typ = .rc then s.wr e.1 e.1.rst (s.viewIdx e.1 e.2.1) e.2.2.1 else s) s

/-- A word is the low or the high one of a 64-bit register. -/
def lowOf64 (a : Nat) : Bool := (fieldsAt a).any fun e => e.2.2.2 = 0 && decide (32 < e.1.lo + e.1.w)
def highOf64 (a : Nat) : Bool := 4 ≤ a && lowOf64 (a - 4)

/-! ### Accesses (R13, R14, R417, R419, R514) -/

/-- One word of a read. `narrow`: an access of 32 bits, which latches and uses what was latched. -/
def State.readWord (s : State) (master a : Nat) (narrow : Bool) : Nat × State :=
  let l := tget (0, 0) s.hif.latch64 master
  match s.time.latch.find? fun e => e.1 = a with
  | some e =>
    let s := { s with time := { s.time with latch := s.time.latch.filter fun x => x.1 ≠ a } }
    (e.2, if l.1 = a then { s with hif := { s.hif with latch64 := tdel s.hif.latch64 master } } else s)
  | none =>
    if narrow ∧ l.1 = a ∧ highOf64 a then (l.2, { s with hif := { s.hif with latch64 := tdel s.hif.latch64 master } })
    else
      let (v, s) := s.regWord a
      (v, s.rcClear a)

/-- Reading a low word latches the high one (R13), and the time fields that go with it (R330). -/
def State.latchHigh (s : State) (master a : Nat) : State :=
  let s := if a = 0x180008 then s.latchTime false else if a = 0x180200 then s.latchTime true else s
  if !lowOf64 a then s else
  let (h, s) := s.regWord (a + 4)
  { s with hif := { s.hif with latch64 := tset (0, 0) s.hif.latch64 master (a + 4, h) } }

/-- Whether a master's access is granted: HIF reaches nothing in DEV_BOOT, and the debug port needs TST's lock (R495, R514). -/
def State.dapOpen (s : State) : Bool :=
  s.rd Reg.TST_LOCKSTAT_OPEN = 1 && s.rd Reg.TST_DAP_EN = 1 && (s.rd Reg.PCR_LCSTAT_STATE = 0 || s.rd Reg.PCR_LCSTAT_STATE = 3)

/-- The error response that an access receives, if any. -/
def State.accessErr (s : State) (master off : Nat) (wide : Bool) : Option Nat :=
  if master = 14 ∧ !s.dapOpen then some 0
  else if off % (if wide then 8 else 4) ≠ 0 then some 1
  else if !inRange off then some 0 else none

/-- An access opens the clock gate of the engine or blitter whose registers it reaches (R30, R457). -/
def State.blockGate (s : State) (off : Nat) : State :=
  let e := Reg.ENC_ENGSTAT_STATE
  let b := Reg.BLT_UNITSTAT_STATE
  if e.base ≤ off ∧ off < e.base + 32 * e.stride then s.openGate ((off - e.base) / e.stride)
  else if b.base ≤ off ∧ off < b.base + 8 * b.stride then s.openGate (96 + (off - b.base) / b.stride) else s

/-- A read by a master: its completion leaves, with all ones where it receives an error response. -/
def State.regRead (s : State) (master off : Nat) (wide : Bool) : State :=
  if master < 3 ∧ s.dev = 0 then s.emit .unsupported
  else if !s.fclk then s
  else match s.accessErr master off wide with
    | some k =>
      let s := s.errResp k master false (Config.regBase + off)
      if master < 3 then s.emit .unsupported else s.emit (.regData master (2 ^ (if wide then 64 else 32) - 1))
    | none =>
      let s := (s.touch master off).blockGate off
      if wide then
        let s := if off = 0x180008 then s.latchTime false else if off = 0x180200 then s.latchTime true else s
        let (lo, s) := s.readWord master off false
        let (hi, s) := s.readWord master (off + 4) false
        s.emit (.regData master (lo + hi * 2 ^ 32))
      else
        let (v, s) := s.readWord master off true
        (s.latchHigh master off).emit (.regData master v)

def execRcRead (master : Fin 15) (off : Nat) (wide : Bool) (s : State) : Host.Outcome State Fault Refusal :=
  finish (s.regRead master off wide)

def execLowWordRead (master : Fin 15) (off : Nat) (s : State) : Host.Outcome State Fault Refusal :=
  finish (s.regRead master off false)

def execNowsecLowRead (cap : Bool) (s : State) : Host.Outcome State Fault Refusal :=
  finish (s.regRead 0 (if cap then 0x180200 else 0x180008) false)

end Sys2Proof.Machine
end

