-- ==== Sys2Proof/Machine/RegWrite.lean ====
section
/-! DEFINITION. Writes of registers by their access types (R10 to R14), what a write of some of them starts, and the commands of the
control matrix (R409 to R425, R495). -/

namespace Sys2Proof.Machine

/-! ### Fields with an effect of their own -/

/-- REMAP.ZERO, DESCSEL, MCLKCTL.OUT, the queue enables and the trace mode act when they are written; true where `r` is one of
them. -/
def actsOnWrite (r : Row) : Bool :=
  [Reg.MTX_REMAP_ZERO, Reg.REF_DESCSEL_INDEX, Reg.AUD_MCLKCTL_OUT, Reg.HIF_AQCTL_ENABLE, Reg.HIF_EQCTL_ENABLE, Reg.SPD_TRACECTL_MODE,
    Reg.TST_LOCK_OPEN, Reg.TST_HBSUPP_LINK, Reg.TST_HBSUPP_LINE, Reg.TST_HBSUPP_MS].any (Row.is r)

/-- AUD_MCLK_OUT runs or is held low (R335). -/
def State.mclkOut (s : State) (v : Bool) : State :=
  if s.rd Reg.AUD_MCLKCTL_OUT = bit v then s else (s.wr Reg.AUD_MCLKCTL_OUT (bit v)).emit (.pin .mclkOut v)

/-- A write of MODE of the shavings log (R226). -/
def State.traceMode (s : State) (v : Nat) : State :=
  ({ s with spd := { s.spd with trigLeft := none } }.wr Reg.SPD_TRACECTL_MODE v).wr Reg.SPD_TRACESTAT_STOPPED 0

/-- One of these fields is written. -/
def State.actWrite (s : State) (r : Row) (v : Nat) : State :=
  if Row.is r Reg.MTX_REMAP_ZERO then s.remap (decide (v = 1))
  else if Row.is r Reg.REF_DESCSEL_INDEX then s.descSel v
  else if Row.is r Reg.AUD_MCLKCTL_OUT then s.mclkOut (decide (v = 1))
  else if Row.is r Reg.HIF_AQCTL_ENABLE then s.ctlEnable 0 (decide (v = 1))
  else if Row.is r Reg.HIF_EQCTL_ENABLE then s.ctlEnable 1 (decide (v = 1))
  else if Row.is r Reg.SPD_TRACECTL_MODE then s.traceMode v
  else s

/-- The PCIe link trains again (R424): its speed and width come with the command. -/
def State.retrain (s : State) (speed width : Nat) : State :=
  if s.rd Reg.HIF_LINKSTAT_DLUP = 1 ∨ (s.pcr.perstN ∧ s.lanePasses 24) then s.pcieUp speed width else s

/-- The same from a register write: the spec states neither. -/
def State.retrainFree (s : State) : State :=
  let (a, s) := s.free
  let (b, s) := s.free
  s.retrain (1 + a % 5) (2 ^ (b % 4))

/-- A one is written to a W1S field. -/
def State.fireField (s : State) (r : Row) (i : Nat) : State :=
  if Row.is r Reg.SPD_TRACECTL_CLEAR then s.traceClear
  else if Row.is r Reg.HIF_LINKCTL_RETRAIN then s.retrainFree
  else if Row.is r Reg.SDS_LCTL_RESTART then s.laneRestart i
  else if Row.is r Reg.SDS_EYECTL_START then s.eyeStart i
  else if Row.is r Reg.SDS_INJCTL_FIRE then s.injFire i
  else if Row.is r Reg.EVT_OCCCLR_CLEAR then s.occClear
  else if Row.is r Reg.PCR_PWRCTL_AOREQ then s.aoReq
  else if Row.is r Reg.TST_REFCTL_APPLY then s.skewApply
  else if Row.is r Reg.TST_TIMECTL_FIRE then s.stepFire
  else if Row.is r Reg.TST_CHKINJ_FIRE then s.checkFire
  else s

/-! ### One register -/

/-- A field's value after the words of a write: `ws` gives BAR0 offsets and data. -/
def State.newVal (s : State) (r : Row) (i j : Nat) (ws : List (Nat × Nat)) : Nat :=
  ws.foldl (fun old w => match rowPlace r w.1 with
    | some (i', j', k) => if i' = i ∧ j' = j then rowMerge r k old w.2 else old
    | none => old) (s.rd r i j)

/-- The bits of a field's instance that a write carries, with zero where it carries none. -/
def wordBits (r : Row) (i j : Nat) (ws : List (Nat × Nat)) : Nat :=
  ws.foldl (fun v w => match rowPlace r w.1 with
    | some (i', j', k) => if i' = i ∧ j' = j then v ||| rowMerge r k 0 w.2 else v
    | none => v) 0

/-- What a write of a whole register carries for one of its fields; 0 where it does not carry it. -/
def sentVal (r : Row) (ws : List (Nat × Nat)) : Nat := wordBits r 0 0 ws

/-- Words are written together: RW and RWL fields, W1C clears, then the fields that act and the W1S ones. -/
def State.writeWords (s : State) (ws : List (Nat × Nat)) : State :=
  let fs := ws.flatMap fun w => (fieldsAt w.1).map fun e => (e.1, e.2.1, e.2.2.1)
  let fs := fs.foldl (fun l e => if l.any (fun x => Row.is x.1 e.1 && x.2 = e.2) then l else l ++ [e]) []
  let has (r : Row) : Bool := fs.any fun e => Row.is e.1 r
  let put := fs.filter fun e => s.writable e.1 e.2.1 && !actsOnWrite e.1
  let act := fs.filter fun e => s.writable e.1 e.2.1 && actsOnWrite e.1
  let s0 := s
  let s := s.regPut (put.map fun e => (e.1, e.2.1, e.2.2, s0.newVal e.1 e.2.1 e.2.2 ws))
  let s := fs.foldl (fun (s : State) e =>
    if e.1.typ = .w1c then
      (let x := s.viewIdx e.1 e.2.1
       let old := s.rd e.1 x e.2.2
       if e.1.n ≤ x then s else s.wr e.1 (old ^^^ (old &&& wordBits e.1 e.2.1 e.2.2 ws)) x e.2.2)
    else s) s
  let s := act.foldl (fun (s : State) e => s.actWrite e.1 (s0.newVal e.1 e.2.1 e.2.2 ws)) s
  let s := fs.foldl (fun (s : State) e => if e.1.typ = .w1s ∧ wordBits e.1 e.2.1 e.2.2 ws = 1 then s.fireField e.1 e.2.1 else s) s
  let s := if has Reg.HIF_AQCTL_RESUME ∧ sentVal Reg.HIF_AQCTL_RESUME ws = 1 then
      s.resumeQue 0 (decide (sentVal Reg.HIF_AQCTL_FLUSH ws = 1)) else s
  let s := if has Reg.TST_HBSUPP_MS then
      s.hbSupp (decide (sentVal Reg.TST_HBSUPP_LINK ws = 1)) (decide (sentVal Reg.TST_HBSUPP_LINE ws = 1)) (sentVal Reg.TST_HBSUPP_MS ws)
    else s
  let s := if has Reg.TST_LOCK_KEY then s.tstLock (sentVal Reg.TST_LOCK_KEY ws) (decide (sentVal Reg.TST_LOCK_OPEN ws = 1)) else s
  let s := if fs.any (fun e => e.1.base = 0x50000 || injField e.1) then s.tstShow else s
  let key := sentVal Reg.PCR_RSTCTL_KEY ws
  if has Reg.PCR_RSTCTL_KEY ∧ sentVal Reg.PCR_RSTCTL_COLD ws = 1 then s.rstCold key
  else if has Reg.PCR_RSTCTL_KEY ∧ sentVal Reg.PCR_RSTCTL_WARM ws = 1 then s.rstWarm key else s

/-! ### Accesses -/

/-- A write by a master. The low word of a 64-bit register is held until its high word comes (R13). -/
def State.regWrite (s : State) (master off : Nat) (wide : Bool) (v : Nat) : State :=
  if master < 3 ∧ s.dev = 0 then s
  else if !s.fclk then s
  else match s.accessErr master off wide with
    | some k => s.errResp k master true (Config.regBase + off)
    | none =>
      let s := (s.touch master off).blockGate off
      if wide then
        { s with hif := { s.hif with pending64 := tdel s.hif.pending64 master } }.writeWords [(off, v % 2 ^ 32), (off + 4, v / 2 ^ 32 % 2 ^ 32)]
      else
        let v := v % 2 ^ 32
        let p := tget (0, 0) s.hif.pending64 master
        if lowOf64 off then { s with hif := { s.hif with pending64 := tset (0, 0) s.hif.pending64 master (off + 1, v) } }
        else if highOf64 off ∧ p.1 + 3 = off then
          { s with hif := { s.hif with pending64 := tdel s.hif.pending64 master } }.writeWords [(off - 4, p.2), (off, v)]
        else s.writeWords [(off, v)]

def execRegisterWrite (master : Fin 15) (off : Nat) (wide : Bool) (value : Nat) (s : State) : Host.Outcome State Fault Refusal :=
  finish (s.regWrite master off wide value)

/-! ### The matrix's commands -/

/-- A transfer of a master receives an error response: a read returns all ones, or Unsupported Request to the host; a command core answers the command that it
interprets (R417, R419). -/
def State.transferFails (s : State) (kind master addr : Nat) (write : Bool) : State :=
  let s := s.errResp kind master write (addr % 2 ^ 40)
  let s := if write then s else if master < 3 then s.emit .unsupported else s.emit (.regData master (2 ^ 32 - 1))
  if 3 ≤ master ∧ master ≤ 6 then s.coreError (master - 3) else s

/-- A locked sequence is broken: its remaining transfer receives LOCKBREAK (R415). -/
def execLockSequenceBreak (master : Fin 15) (addr : Nat) (write : Bool) (s : State) : Host.Outcome State Fault Refusal :=
  finish (if s.fclk then s.transferFails 2 master addr write else s)

/-- A block gives no response (R416). -/
def execBridgeTimeout (master : Fin 15) (addr : Nat) (write : Bool) (s : State) : Host.Outcome State Fault Refusal :=
  finish (if s.fclk then s.transferFails 3 master addr write else s)

/-- A write of REMAP.ZERO, while its lock is open (R412). -/
def execRemapZeroWrite (v : Bool) (s : State) : Host.Outcome State Fault Refusal :=
  finish (
    let s := s.hostAccess Reg.MTX_REMAP_ZERO
    if s.fclk then s.remap v else s)

/-- A clearing write of ERRSTAT.VALID; an error in its cycle is recorded (R418). -/
def execErrstatValidClear (err : Option (Fin 15 × Nat × Fin 6 × Bool)) (s : State) : Host.Outcome State Fault Refusal :=
  finish (
    let s := s.hostAccess Reg.MTX_ERRSTAT_VALID
    if !s.fclk then s else
    let s := s.wr Reg.MTX_ERRSTAT_VALID 0
    match err with
    | none => s
    | some (m, a, k, w) => s.errResp k m w (a % 2 ^ 40))

/-- A write of DRAMWIN.BASE, in bytes: its units are 512 MiB (R421). -/
def execDramwinBaseWrite (v : Nat) (s : State) : Host.Outcome State Fault Refusal :=
  finish (
    let s := s.hostAccess Reg.HIF_DRAMWIN_BASE
    if s.fclk ∧ s.dev ≠ 0 then s.wr Reg.HIF_DRAMWIN_BASE (v / 2 ^ 29) else s)

/-- A write of LINKCTL.RETRAIN (R424). -/
def execLinkctlRetrain (speed width : Nat) (s : State) : Host.Outcome State Fault Refusal :=
  finish (
    let s := s.hostAccess Reg.HIF_LINKCTL_RETRAIN
    if s.fclk ∧ s.dev ≠ 0 then s.retrain speed width else s)

/-! ### The debug access port (R409, R411, R417, R495) -/

/-- The region of an internal address (R410): 0 the zero window, 1 boot ROM, 2 working SRAM, 3 registers, 4 store or DRAM, 5 none.
The zero window aliases the boot ROM, or the SRAM once REMAP.ZERO is 1; the offset is that in the region. -/
def State.region (s : State) (a : Nat) : Nat × Nat :=
  if a < 0x400000 then (if s.rd Reg.MTX_REMAP_ZERO = 1 then (2, a) else (1, a % 0x40000))
  else if 0x10000000 ≤ a ∧ a < 0x10040000 then (1, a - 0x10000000)
  else if 0x10400000 ≤ a ∧ a < 0x10800000 then (2, a - 0x10400000)
  else if 0x20000000 ≤ a ∧ a < 0x24000000 then (3, a - 0x20000000)
  else if (s.space a).1 ≠ 2 then (4, a)
  else (5, a)

/-- Bytes read: the contents of the boot ROM, or those of the memory. -/
def State.debugBytes (s : State) (reg o len : Nat) : Bytes :=
  (List.range len).map fun k =>
    if reg = 1 then Config.bootRom (o + k) else if reg = 2 then sramRead s.mem (o + k) else s.byte (o + k)

/-- Bytes written to the working SRAM, or to store and DRAM. The emergency partition takes none while it is locked (R161; DEDUCED: log entry 106), and a
write into a variant clears its VALID bit (R159). -/
def State.debugPut (s : State) (reg o : Nat) (d : Bytes) : State :=
  if reg = 2 then { s with mem := (List.range d.length).foldl (fun m k => sramWrite m (o + k) (d.getD k 0)) s.mem }
  else if d = [] then s
  else if s.emLocked o ∨ s.emLocked (o + d.length - 1) then s
  else
    let s := s.putBytes o d
    let (sp, x) := s.space (o + d.length - 1)
    if sp = 0 ∧ s.emBase ≤ x then s.emTouched (x + 1 - d.length) d.length else s

/-- A request of the debug access port, of at most one burst. -/
def execDebugAccessRequest (addr len : Nat) (data : Option Bytes) (s : State) : Host.Outcome State Fault Refusal :=
  finish (
    if !s.fclk then s else
    let a := addr % 2 ^ 40
    let len := min 1024 (match data with | some d => d.length | none => len)
    let fail (s : State) (kind : Nat) : State :=
      let s := s.errResp kind 14 data.isSome a
      if data.isSome then s else s.emit (.regData 14 (256 ^ len - 1))
    if !s.dapOpen then fail s 0 else
    let (reg, o) := s.region a
    if reg = 5 ∨ (len ≠ 0 ∧ reg ≠ 3 ∧ (s.region (a + len - 1)).1 ≠ reg) then fail s 0
    else if reg = 3 then
      (if len ≠ 4 ∧ len ≠ 8 then fail s 1
       else match data with
        | some d => s.regWrite 14 o (decide (len = 8)) (leNat (d.take len))
        | none => s.regRead 14 o (decide (len = 8)))
    else match data with
      | some d => if reg = 1 then fail s 4 else s.debugPut reg o (d.take len)
      | none => s.emit (.regData 14 (leNat (s.debugBytes reg o len))))

end Sys2Proof.Machine
end

