-- ==== Sys2Proof/Machine/Dispatch.lean ====
section
/-! DEFINITION. One arm per constructor: the meaning of each command. -/

namespace Sys2Proof.Machine

def exec (i : Instr) (s : State) : Host.Outcome State Fault Refusal :=
  match i with
  | .opNop h p => Sys2Proof.Machine.execOpNop h p s
  | .opDevInfo h p => Sys2Proof.Machine.execOpDevInfo h p s
  | .opQueueCreate h p => Sys2Proof.Machine.execOpQueueCreate h p s
  | .opQueueDelete h p => Sys2Proof.Machine.execOpQueueDelete h p s
  | .opQueueResume h p => Sys2Proof.Machine.execOpQueueResume h p s
  | .opBarrier h p => Sys2Proof.Machine.execOpBarrier h p s
  | .opEngService h p => Sys2Proof.Machine.execOpEngService h p s
  | .opChCreate h p => Sys2Proof.Machine.execOpChCreate h p s
  | .opChDestroy h p => Sys2Proof.Machine.execOpChDestroy h p s
  | .opChSetFormat h p => Sys2Proof.Machine.execOpChSetFormat h p s
  | .opChSetLatency h p => Sys2Proof.Machine.execOpChSetLatency h p s
  | .opChSetCoding h p => Sys2Proof.Machine.execOpChSetCoding h p s
  | .opChSetRefs h p => Sys2Proof.Machine.execOpChSetRefs h p s
  | .opChSetRate h p => Sys2Proof.Machine.execOpChSetRate h p s
  | .opChSetRefresh h p => Sys2Proof.Machine.execOpChSetRefresh h p s
  | .opChSetSlotmask h p => Sys2Proof.Machine.execOpChSetSlotmask h p s
  | .opChAdmit h p => Sys2Proof.Machine.execOpChAdmit h p s
  | .opChRelease h p => Sys2Proof.Machine.execOpChRelease h p s
  | .opChStart h p => Sys2Proof.Machine.execOpChStart h p s
  | .opChStop h p => Sys2Proof.Machine.execOpChStop h p s
  | .opChReset h p => Sys2Proof.Machine.execOpChReset h p s
  | .opChRefresh h p => Sys2Proof.Machine.execOpChRefresh h p s
  | .opChMarkLong h p => Sys2Proof.Machine.execOpChMarkLong h p s
  | .opChStatus h p => Sys2Proof.Machine.execOpChStatus h p s
  | .opInCreate h p => Sys2Proof.Machine.execOpInCreate h p s
  | .opInDestroy h p => Sys2Proof.Machine.execOpInDestroy h p s
  | .opInSetMeter h p => Sys2Proof.Machine.execOpInSetMeter h p s
  | .opLayerSet h p => Sys2Proof.Machine.execOpLayerSet h p s
  | .opLayerBind h p => Sys2Proof.Machine.execOpLayerBind h p s
  | .opLayerFlip h p => Sys2Proof.Machine.execOpLayerFlip h p s
  | .opLayerDirty h p => Sys2Proof.Machine.execOpLayerDirty h p s
  | .opCmpSetCoef h p => Sys2Proof.Machine.execOpCmpSetCoef h p s
  | .opBlit h p => Sys2Proof.Machine.execOpBlit h p s
  | .opAudSetPort h p => Sys2Proof.Machine.execOpAudSetPort h p s
  | .opAudRoute h p => Sys2Proof.Machine.execOpAudRoute h p s
  | .opAudUnroute h p => Sys2Proof.Machine.execOpAudUnroute h p s
  | .opOutCreate h p => Sys2Proof.Machine.execOpOutCreate h p s
  | .opOutDestroy h p => Sys2Proof.Machine.execOpOutDestroy h p s
  | .opOutSetShaper h p => Sys2Proof.Machine.execOpOutSetShaper h p s
  | .opOutSetWindow h p => Sys2Proof.Machine.execOpOutSetWindow h p s
  | .opTimeSetPtp h p => Sys2Proof.Machine.execOpTimeSetPtp h p s
  | .opTimeSetPort h p => Sys2Proof.Machine.execOpTimeSetPort h p s
  | .opTimeSetOutputs h p => Sys2Proof.Machine.execOpTimeSetOutputs h p s
  | .opTimeStatus h p => Sys2Proof.Machine.execOpTimeStatus h p s
  | .opPairEnable h p => Sys2Proof.Machine.execOpPairEnable h p s
  | .opPairDisable h p => Sys2Proof.Machine.execOpPairDisable h p s
  | .opPairHandover h p => Sys2Proof.Machine.execOpPairHandover h p s
  | .opPairStatus h p => Sys2Proof.Machine.execOpPairStatus h p s
  | .opMemAlloc h p => Sys2Proof.Machine.execOpMemAlloc h p s
  | .opMemFree h p => Sys2Proof.Machine.execOpMemFree h p s
  | .opDramSetPoint h p => Sys2Proof.Machine.execOpDramSetPoint h p s
  | .opDramTrain h p => Sys2Proof.Machine.execOpDramTrain h p s
  | .opDramStatus h p => Sys2Proof.Machine.execOpDramStatus h p s
  | .opCvuConfig h p => Sys2Proof.Machine.execOpCvuConfig h p s
  | .opDiagHealth h p => Sys2Proof.Machine.execOpDiagHealth h p s
  | .opLcStatus h p => Sys2Proof.Machine.execOpLcStatus h p s
  | .opUpdateStatus h p => Sys2Proof.Machine.execOpUpdateStatus h p s
  | .opUpdateConfirm h p => Sys2Proof.Machine.execOpUpdateConfirm h p s
  | .opOnAirLock h p => Sys2Proof.Machine.execOpOnAirLock h p s
  | .opEmOn h p => Sys2Proof.Machine.execOpEmOn h p s
  | .opEmOff h p => Sys2Proof.Machine.execOpEmOff h p s
  | .opEmSetVariant h p => Sys2Proof.Machine.execOpEmSetVariant h p s
  | .reservedOpcodeCommand opcode h p => Sys2Proof.Machine.execReservedOpcodeCommand opcode h p s
  | .submissionTailDoorbell qid v => Sys2Proof.Machine.execSubmissionTailDoorbell qid v s
  | .completionHeadDoorbell qid v => Sys2Proof.Machine.execCompletionHeadDoorbell qid v s
  | .commandFetch q slot => Sys2Proof.Machine.execCommandFetch q slot s
  | .fetchFailure q => Sys2Proof.Machine.execFetchFailure q s
  | .paramDmaDone d bad => Sys2Proof.Machine.execParamDmaDone d bad s
  | .cqRoom q => Sys2Proof.Machine.execCqRoom q s
  | .coalesceTimeout q => Sys2Proof.Machine.execCoalesceTimeout q s
  | .barrierTimeout q => Sys2Proof.Machine.execBarrierTimeout q s
  | .barrierSatisfied q => Sys2Proof.Machine.execBarrierSatisfied q s
  | .queueDeleteDone q => Sys2Proof.Machine.execQueueDeleteDone q s
  | .orderWaitRelease q => Sys2Proof.Machine.execOrderWaitRelease q s
  | .commandCoreWatchdog c q => Sys2Proof.Machine.execCommandCoreWatchdog c q s
  | .commandCoreRestartDone c => Sys2Proof.Machine.execCommandCoreRestartDone c s
  | .mirrorAck seq status => Sys2Proof.Machine.execMirrorAck seq status s
  | .mirrorAckTimeout seq => Sys2Proof.Machine.execMirrorAckTimeout seq s
  | .aqctlEnable v => Sys2Proof.Machine.execAqctlEnable v s
  | .aqctlResume flush => Sys2Proof.Machine.execAqctlResume flush s
  | .eqctlEnable v => Sys2Proof.Machine.execEqctlEnable v s
  | .rowRelease n t => Sys2Proof.Machine.execRowRelease n t s
  | .taskDispatch c => Sys2Proof.Machine.execTaskDispatch c s
  | .taskComplete d r => Sys2Proof.Machine.execTaskComplete d r s
  | .taskDeadlineMiss d => Sys2Proof.Machine.execTaskDeadlineMiss d s
  | .encodeDeadline d => Sys2Proof.Machine.execEncodeDeadline d s
  | .sliceFailure d why addr kind => Sys2Proof.Machine.execSliceFailure d why addr kind s
  | .sliceWatchdog e => Sys2Proof.Machine.execSliceWatchdog e s
  | .engineFault e cause => Sys2Proof.Machine.execEngineFault e cause s
  | .engineSelftestEnd e stage => Sys2Proof.Machine.execEngineSelftestEnd e stage s
  | .sweepPeriodicStart n => Sys2Proof.Machine.execSweepPeriodicStart n s
  | .heldSweepBegin n => Sys2Proof.Machine.execHeldSweepBegin n s
  | .emergencyPeriodEnd n => Sys2Proof.Machine.execEmergencyPeriodEnd n s
  | .lastPictureEnd n => Sys2Proof.Machine.execLastPictureEnd n s
  | .layerChangeApply n k => Sys2Proof.Machine.execLayerChangeApply n k s
  | .flattenDone n bad => Sys2Proof.Machine.execFlattenDone n bad s
  | .flattenRetry n => Sys2Proof.Machine.execFlattenRetry n s
  | .blitBurstEnd u err addr part => Sys2Proof.Machine.execBlitBurstEnd u err addr part s
  | .blitDeadTimeEnd u => Sys2Proof.Machine.execBlitDeadTimeEnd u s
  | .blitUnitFailure u part => Sys2Proof.Machine.execBlitUnitFailure u part s
  | .blitSelftestEnd u pass => Sys2Proof.Machine.execBlitSelftestEnd u pass s
  | .pageWipeDone page => Sys2Proof.Machine.execPageWipeDone page s
  | .csScrubLine data check => Sys2Proof.Machine.execCsScrubLine data check s
  | .bar2Write off data => Sys2Proof.Machine.execBar2Write off data s
  | .bar2Read off len errs => Sys2Proof.Machine.execBar2Read off len errs s
  | .bar0SizeError off write => Sys2Proof.Machine.execBar0SizeError off write s
  | .registerWrite master off wide value => Sys2Proof.Machine.execRegisterWrite master off wide value s
  | .rcRead master off wide => Sys2Proof.Machine.execRcRead master off wide s
  | .lowWordRead master off => Sys2Proof.Machine.execLowWordRead master off s
  | .nowsecLowRead cap => Sys2Proof.Machine.execNowsecLowRead cap s
  | .poolStallEnd q => Sys2Proof.Machine.execPoolStallEnd q s
  | .descriptorError d => Sys2Proof.Machine.execDescriptorError d s
  | .tracectlMode v => Sys2Proof.Machine.execTracectlMode v s
  | .refDescsel idx => Sys2Proof.Machine.execRefDescsel idx s
  | .frameReceive m t fr w ch rate => Sys2Proof.Machine.execFrameReceive m t fr w ch rate s
  | .lossDeclare f q => Sys2Proof.Machine.execLossDeclare f q s
  | .flowPathDown f net => Sys2Proof.Machine.execFlowPathDown f net s
  | .groupLatch f => Sys2Proof.Machine.execGroupLatch f s
  | .macLinkUp m inv => Sys2Proof.Machine.execMacLinkUp m inv s
  | .macLinkDown m fec => Sys2Proof.Machine.execMacLinkDown m fec s
  | .joinLeave f net => Sys2Proof.Machine.execJoinLeave f net s
  | .fecRateSecond p corrSym corrCw uncorr => Sys2Proof.Machine.execFecRateSecond p corrSym corrCw uncorr s
  | .frameLaunch sh t bad => Sys2Proof.Machine.execFrameLaunch sh t bad s
  | .flowMove g net => Sys2Proof.Machine.execFlowMove g net s
  | .shaperChangeApply sh => Sys2Proof.Machine.execShaperChangeApply sh s
  | .announceTimeout net => Sys2Proof.Machine.execAnnounceTimeout net s
  | .delayReqSend net t => Sys2Proof.Machine.execDelayReqSend net t s
  | .frameSyncOutEdge o => Sys2Proof.Machine.execFrameSyncOutEdge o s
  | .ppsInEdge t frac => Sys2Proof.Machine.execPpsInEdge t frac s
  | .sapFrameDrive p sl sr => Sys2Proof.Machine.execSapFrameDrive p sl sr s
  | .sapFrameReceive p t bclks per sl sr => Sys2Proof.Machine.execSapFrameReceive p t bclks per sl sr s
  | .sapClockLoss p => Sys2Proof.Machine.execSapClockLoss p s
  | .sapRollEnd p => Sys2Proof.Machine.execSapRollEnd p s
  | .audMclkctlOut v => Sys2Proof.Machine.execAudMclkctlOut v s
  | .lanePllLock l => Sys2Proof.Machine.execLanePllLock l s
  | .lanePllTimeout l => Sys2Proof.Machine.execLanePllTimeout l s
  | .laneCdrLock l inv => Sys2Proof.Machine.execLaneCdrLock l inv s
  | .laneAdaptEnd l ws dfe vga => Sys2Proof.Machine.execLaneAdaptEnd l ws dfe vga s
  | .fomWindow l w dfe => Sys2Proof.Machine.execFomWindow l w dfe s
  | .laneSignalLoss l unlock => Sys2Proof.Machine.execLaneSignalLoss l unlock s
  | .laneFaultRetry l => Sys2Proof.Machine.execLaneFaultRetry l s
  | .laneBackgroundTrial l ws => Sys2Proof.Machine.execLaneBackgroundTrial l ws s
  | .lctlRestart l => Sys2Proof.Machine.execLctlRestart l s
  | .superblockReceive l ui sb => Sys2Proof.Machine.execSuperblockReceive l ui sb s
  | .eyectlStart l => Sys2Proof.Machine.execEyectlStart l s
  | .eyeScanEnd l count => Sys2Proof.Machine.execEyeScanEnd l count s
  | .injctlFire l => Sys2Proof.Machine.execInjctlFire l s
  | .injectionPeriod l => Sys2Proof.Machine.execInjectionPeriod l s
  | .claimGuardEnd lock => Sys2Proof.Machine.execClaimGuardEnd lock s
  | .heartbeatReceive body lock => Sys2Proof.Machine.execHeartbeatReceive body lock s
  | .heartbeatPathSilent line => Sys2Proof.Machine.execHeartbeatPathSilent line s
  | .linkFrameReceive fr reset => Sys2Proof.Machine.execLinkFrameReceive fr reset s
  | .linkRetransmit c => Sys2Proof.Machine.execLinkRetransmit c s
  | .linkGiveup c => Sys2Proof.Machine.execLinkGiveup c s
  | .mirrorReceive seq op h p status detail r0 r1 => Sys2Proof.Machine.execMirrorReceive seq op h p status detail r0 r1 s
  | .checkRecordReceive body => Sys2Proof.Machine.execCheckRecordReceive body s
  | .repairReq f ext => Sys2Proof.Machine.execRepairReq f ext s
  | .repairAns f ext hdr pl w ch rate => Sys2Proof.Machine.execRepairAns f ext hdr pl w ch rate s
  | .repairAbsent f ext => Sys2Proof.Machine.execRepairAbsent f ext s
  | .audioRecordReceive port first samples => Sys2Proof.Machine.execAudioRecordReceive port first samples s
  | .rcrecReceive ch frame row cap qp floor units conv rc => Sys2Proof.Machine.execRcrecReceive ch frame row cap qp floor units conv rc s
  | .rcrecWaitExpiry n => Sys2Proof.Machine.execRcrecWaitExpiry n s
  | .resyncReq full mask => Sys2Proof.Machine.execResyncReq full mask s
  | .imageReceive img => Sys2Proof.Machine.execImageReceive img s
  | .mr4Poll readings => Sys2Proof.Machine.execMr4Poll readings s
  | .dramAccess line write act res => Sys2Proof.Machine.execDramAccess line write act res s
  | .codeCacheWriteback c slot => Sys2Proof.Machine.execCodeCacheWriteback c slot s
  | .dramScrubLine c res => Sys2Proof.Machine.execDramScrubLine c res s
  | .trainingStepEnd pass => Sys2Proof.Machine.execTrainingStepEnd pass s
  | .lockSequenceBreak master addr write => Sys2Proof.Machine.execLockSequenceBreak master addr write s
  | .bridgeTimeout master addr write => Sys2Proof.Machine.execBridgeTimeout master addr write s
  | .remapZeroWrite v => Sys2Proof.Machine.execRemapZeroWrite v s
  | .errstatValidClear err => Sys2Proof.Machine.execErrstatValidClear err s
  | .dramwinBaseWrite v => Sys2Proof.Machine.execDramwinBaseWrite v s
  | .linkctlRetrain speed width => Sys2Proof.Machine.execLinkctlRetrain speed width s
  | .cvuWindowClose us => Sys2Proof.Machine.execCvuWindowClose us s
  | .cvuMismatchClear grp us => Sys2Proof.Machine.execCvuMismatchClear grp us s
  | .evtStatClear w bits hw => Sys2Proof.Machine.execEvtStatClear w bits hw s
  | .occclr occ => Sys2Proof.Machine.execOccclr occ s
  | .powerOn nv => Sys2Proof.Machine.execPowerOn nv s
  | .coldReset b => Sys2Proof.Machine.execColdReset b s
  | .warmReset b => Sys2Proof.Machine.execWarmReset b s
  | .rstctlWarm key => Sys2Proof.Machine.execRstctlWarm key s
  | .rstctlCold key => Sys2Proof.Machine.execRstctlCold key s
  | .wakePin pin => Sys2Proof.Machine.execWakePin pin s
  | .clockGateClose u => Sys2Proof.Machine.execClockGateClose u s
  | .monitorSample temps mv mw => Sys2Proof.Machine.execMonitorSample temps mv mw s
  | .tripRecovery temps => Sys2Proof.Machine.execTripRecovery temps s
  | .alarmlatClear bits hw => Sys2Proof.Machine.execAlarmlatClear bits hw s
  | .mgtCoreRestartDone pass => Sys2Proof.Machine.execMgtCoreRestartDone pass s
  | .serdesRefclkLoss pair => Sys2Proof.Machine.execSerdesRefclkLoss pair s
  | .info snd seq => Sys2Proof.Machine.execInfo snd seq s
  | .begin snd seq length version kind => Sys2Proof.Machine.execBegin snd seq length version kind s
  | .block snd seq index crc data => Sys2Proof.Machine.execBlock snd seq index crc data s
  | .verify snd seq => Sys2Proof.Machine.execVerify snd seq s
  | .verifyEnd ok => Sys2Proof.Machine.execVerifyEnd ok s
  | .activate snd seq req signed => Sys2Proof.Machine.execActivate snd seq req signed s
  | .confirm snd seq => Sys2Proof.Machine.execConfirm snd seq s
  | .abort snd seq => Sys2Proof.Machine.execAbort snd seq s
  | .reset snd seq kind => Sys2Proof.Machine.execReset snd seq kind s
  | .wake snd seq => Sys2Proof.Machine.execWake snd seq s
  | .set snd seq item mask value => Sys2Proof.Machine.execSet snd seq item mask value s
  | .stagingEraseDone off len => Sys2Proof.Machine.execStagingEraseDone off len s
  | .tstLockWrite key opn => Sys2Proof.Machine.execTstLockWrite key opn s
  | .hbsuppWrite link line ms => Sys2Proof.Machine.execHbsuppWrite link line ms s
  | .backpressurePeriod late => Sys2Proof.Machine.execBackpressurePeriod late s
  | .serdesRefclkReturn pair => Sys2Proof.Machine.execSerdesRefclkReturn pair s
  | .serviceLinkChange up => Sys2Proof.Machine.execServiceLinkChange up s
  | .debugAccessRequest addr len data => Sys2Proof.Machine.execDebugAccessRequest addr len data s
  | .replyDelayExpiry q => Sys2Proof.Machine.execReplyDelayExpiry q s
  | .flashBlockProgrammed index => Sys2Proof.Machine.execFlashBlockProgrammed index s
  | .reservedServiceMessage snd seq typ => Sys2Proof.Machine.execReservedServiceMessage snd seq typ s
  | .eqCqRoom => Sys2Proof.Machine.execEqCqRoom s
  | .spindleTick => Sys2Proof.Machine.execSpindleTick s
  | .csWipeDone => Sys2Proof.Machine.execCsWipeDone s
  | .protectedWindowOpen => Sys2Proof.Machine.execProtectedWindowOpen s
  | .protectedWindowClose => Sys2Proof.Machine.execProtectedWindowClose s
  | .tracectlClear => Sys2Proof.Machine.execTracectlClear s
  | .holdoverLimit => Sys2Proof.Machine.execHoldoverLimit s
  | .ppsOutEdge => Sys2Proof.Machine.execPpsOutEdge s
  | .partnerLockReleased => Sys2Proof.Machine.execPartnerLockReleased s
  | .claimConflict => Sys2Proof.Machine.execClaimConflict s
  | .heartbeatSend => Sys2Proof.Machine.execHeartbeatSend s
  | .hbGeneratorWatchdog => Sys2Proof.Machine.execHbGeneratorWatchdog s
  | .linkControlSend => Sys2Proof.Machine.execLinkControlSend s
  | .checkDeadline => Sys2Proof.Machine.execCheckDeadline s
  | .joinTimeout => Sys2Proof.Machine.execJoinTimeout s
  | .handoverClaimTimeout => Sys2Proof.Machine.execHandoverClaimTimeout s
  | .claimBackoffEnd => Sys2Proof.Machine.execClaimBackoffEnd s
  | .refreshDue => Sys2Proof.Machine.execRefreshDue s
  | .guardTableClear => Sys2Proof.Machine.execGuardTableClear s
  | .setPointSwitchEnd => Sys2Proof.Machine.execSetPointSwitchEnd s
  | .eventBacklogDrain => Sys2Proof.Machine.execEventBacklogDrain s
  | .aoRecordFlush => Sys2Proof.Machine.execAoRecordFlush s
  | .sysResetN => Sys2Proof.Machine.execSysResetN s
  | .pwrMainGoodRise => Sys2Proof.Machine.execPwrMainGoodRise s
  | .pwrMainGoodTimeout => Sys2Proof.Machine.execPwrMainGoodTimeout s
  | .mainPowerRetry => Sys2Proof.Machine.execMainPowerRetry s
  | .pwrMainGoodFall => Sys2Proof.Machine.execPwrMainGoodFall s
  | .bootEnd => Sys2Proof.Machine.execBootEnd s
  | .pwrctlAoreq => Sys2Proof.Machine.execPwrctlAoreq s
  | .perstNAssert => Sys2Proof.Machine.execPerstNAssert s
  | .perstNRise => Sys2Proof.Machine.execPerstNRise s
  | .mgtWatchdogExpiry => Sys2Proof.Machine.execMgtWatchdogExpiry s
  | .refclkLoss => Sys2Proof.Machine.execRefclkLoss s
  | .refclkReturn => Sys2Proof.Machine.execRefclkReturn s
  | .refctlApply => Sys2Proof.Machine.execRefctlApply s
  | .timectlFire => Sys2Proof.Machine.execTimectlFire s
  | .chkinjFire => Sys2Proof.Machine.execChkinjFire s
  | .hbsuppExpiry => Sys2Proof.Machine.execHbsuppExpiry s
  | .vddAoLoss => Sys2Proof.Machine.execVddAoLoss s
  | .pairHbInEdge => Sys2Proof.Machine.execPairHbInEdge s
  | .csWipeTimeout => Sys2Proof.Machine.execCsWipeTimeout s
  | .pcieCorrectableError => Sys2Proof.Machine.execPcieCorrectableError s
  | .beginPairWaitEnd => Sys2Proof.Machine.execBeginPairWaitEnd s
  | .claimWaitTimeout => Sys2Proof.Machine.execClaimWaitTimeout s
  | .confirmationWriteDone => Sys2Proof.Machine.execConfirmationWriteDone s

end Sys2Proof.Machine
end

