-- ==== Sys2Proof/Safety.lean ====
section
/-! DEFINITION. What counts as a safe run, in the terms the statements use: the block never stops, and the registers that
show a part of the state show it. -/

namespace Sys2Proof.Machine

/-- The block does not stop on its next command. -/
def State.Runs (s : State) : Prop := ∃ t, step s = .next t

/-- The registers that only show other state show it: TST.ACTIVE (R498), EVT.EQSTAT (R448), SPD.TRACESTAT.COUNT (R226),
CMP.CMPSTAT.ANY_EM (R161) and MGT.BLOCKS.WRITTEN (R491). -/
structure State.Settled (s : State) : Prop where
  tst     : s.rd Reg.TST_ACTIVE_BITS = s.tstBits % 2 ^ Reg.TST_ACTIVE_BITS.w
  backlog : s.rd Reg.EVT_EQSTAT_BACKLOG = s.backlogged % 2 ^ Reg.EVT_EQSTAT_BACKLOG.w
  full    : s.rd Reg.EVT_EQSTAT_FULL = bit s.ringFull
  trace   : s.rd Reg.SPD_TRACESTAT_COUNT = s.spd.log.length % 2 ^ Reg.SPD_TRACESTAT_COUNT.w
  anyEm   : s.rd Reg.CMP_CMPSTAT_ANY_EM = bit s.anyEmSet
  blocks  : s.rd Reg.MGT_BLOCKS_WRITTEN = s.mgt.blocks.length % 2 ^ Reg.MGT_BLOCKS_WRITTEN.w

/-! ### A host command that its queue takes -/

/-- The state in which queue `q` interprets its next command: the command is off the list of fetched ones, and its
completion key is drawn. -/
def State.front (s : State) (q : Nat) : State := ((s.popFetched q).2.2.newKey q).2

/-- The queue of a host command interprets it now, and the command passes every check of R244: the queue is served, its
parameters are in, no flush covers it, an ORDER_WAIT finds nothing before it, no accepted STOP_ON_ERROR command is
ahead, its channel has not faulted since its last reply, and the general pool has a free descriptor. -/
structure State.Takes (s : State) (op : Nat) (h : Hdr) (p : Bytes) (chk : OpChk) : Prop where
  served  : s.served h.qid.val = true
  copied  : (s.popFetched h.qid.val).2.1 = false
  kept    : ∀ f, ((s.popFetched h.qid.val).2.2.que h.qid.val).flush = some f → f ≤ (s.popFetched h.qid.val).1
  ordered : h.flags.toNat.testBit 1 = true → ((s.popFetched h.qid.val).2.2.que h.qid.val).owes = false
  free    : ((s.popFetched h.qid.val).2.2.que h.qid.val).stopWait = none
  sound   : 2 ≤ h.qid.val → ((s.popFetched h.qid.val).2.2.chan (h.qid.val - 2)).intDue = false
  header  : preCheck (s.front h.qid.val) false op h.qid.val h.flags.toNat h.channel.toNat h.plen.toNat h.effpt.toNat (h.zero = 0) p = none
  params  : chk (s.front h.qid.val) h.channel.toNat p = none
  room    : (s.front h.qid.val).genCount ≠ 0

/-- The state after a host command that its queue takes: `run` is its effect and its answer. -/
def State.carried (s : State) (i : Instr) (op : Nat) (h : Hdr) (p : Bytes) (run : OpRun) : State :=
  let q := h.qid.val
  let key := ((s.popFetched q).2.2.newKey q).1
  let r := (s.front q).perform false op q h.channel.toNat h.tag.toNat h.effpt.toNat p key run
  r.1.conclude (s.front q) i (s.popFetched q).1 op h p key r.2

/-! ### A service-port message that the management core takes (R478) -/

/-- The sender is on the allow list, the core runs, the message's SEQ is new, and code in place serves its TYPE. -/
structure State.TakesMsg (s : State) (snd seq typ : Nat) : Prop where
  on      : s.aoOn = true
  up      : s.mgt.down = false
  allowed : s.mgt.allow.any (fun e => e.2 = snd) = true
  code    : s.svcRom = true → [1, 2, 3, 4, 5, 8].contains typ = true
  fresh   : s.mgt.last.find? (fun l => l.sender = snd && l.seq = seq) = none

/-- The memories are in canonical form. -/
def State.MemWf (s : State) : Prop := s.mem.wf = true

/-- States reached from `s` by steps, the outside world adding commands at the end of the queue between them. -/
inductive State.Reach (s : State) : State → Prop where
  | refl : State.Reach s s
  | step {t u : State} (more : List Instr) : State.Reach s t → step { t with pending := t.pending ++ more } = .next u → State.Reach s u

end Sys2Proof.Machine
end

