-- ==== Sys2Proof/Certificates/Slice0/Obligations.lean ====
section
/-! DEFINITION. The statements about the block, for the provers. -/

namespace Sys2Proof.Machine

/-- A host command completes: taken by its queue, it has the effect `run` and is answered with what `run` answers. -/
def Completes (mk : Hdr → Bytes → Instr) (op : Nat) (chk : OpChk) (run : OpRun) : Prop :=
  ∀ (s : State) (h : Hdr) (p : Bytes), s.Takes op h p chk → exec (mk h p) s = .next (s.carried (mk h p) op h p run).evFlush.settle

end Sys2Proof.Machine

open Sys2Proof Sys2Proof.Machine

/-! ### The step -/

/-- Stepping takes the command at the front of the queue and runs it on the state with the queue's rest. -/
def Obligations.StepRunsTheFrontCommand : Prop :=
  ∀ (s : State) (c : Instr) (rest : List Instr), s.pending = c :: rest → step s = exec c { s with pending := rest }

/-- With no command waiting the block idles (log entry 1). -/
def Obligations.EmptyQueueIdles : Prop := ∀ s : State, s.pending = [] → step s = .next s

/-- No command stops the block: whatever the state and the operands, it ends in a next state. -/
def Obligations.NoCommandStopsTheBlock : Prop := ∀ (i : Instr) (s : State), ∃ t, exec i s = .next t

/-- From a state in which they show it, every step leaves the registers that only show other state showing it. -/
def Obligations.EveryStepKeepsShownRegistersTrue : Prop :=
  ∀ s t : State, s.Settled → step s = .next t → t.Settled

/-- They show it after reset. -/
def Obligations.ResetStateIsSettled : Prop := State.reset.Settled

/-! ### Host commands complete -/

/-- The device commands. -/
def Obligations.DeviceCommandsComplete : Prop :=
  Completes .opNop 0x0000 noChk (fun _ _ s => (s, ok2 0 0)) ∧
  Completes .opDevInfo 0x0001 noChk
    (fun _ _ s => (s, ok2 (0x6480 + 0xA1 * 65536) (s.rd Reg.MGT_ACTVER_VERSION + s.actImg.ppv * 2 ^ 32))) ∧
  Completes .opEngService 0x0006 chkEngService (fun c p s =>
    if fld p 1 1 = 1 then ((s.wr Reg.ENC_ENGSTAT_AUTO_RETURN (fld p 2 1) (fld p 0 1)).engTest (fld p 0 1) true c.key, .later false)
    else match s.engSt (fld p 0 1) with
      | 4 => (s, .accDone stOk 0 0 0)
      | 0 => (s.engOut (fld p 0 1), .accDone stOk 0 0 0)
      | _ => (s.setEng (fld p 0 1) { s.eng (fld p 0 1) with outKeys := (s.eng (fld p 0 1)).outKeys ++ [c.key] }, .later false)) ∧
  Completes .opCvuConfig 0x0900 chkCvuConfig (fun _ p s =>
    ((s.setCvuU (fld p 0 2) { s.cvuU (fld p 0 2) with pend := some (fld p 2 1, fld p 3 1, fld p 4 4, fld p 8 1) }).wr
      Reg.CVU_UNITVIEW_PENDING 1 (fld p 0 2), ok2 0 0)) ∧
  Completes .opLcStatus 0x0A00 noChk (fun _ _ s =>
    (s, ok2 (s.rd Reg.PCR_LCSTAT_STATE + 256 * s.rd Reg.PCR_LCSTAT_UPDATE_LOCK + 512 * s.rd Reg.PCR_LCSTAT_ON_AIR_LOCK) 0)) ∧
  Completes .opUpdateStatus 0x0A01 noChk (fun _ _ s => (s, ok2 s.updWord s.actImg.version)) ∧
  Completes .opOnAirLock 0x0A03 chkOnAirLock (fun _ p s =>
    let s := s.wr Reg.PCR_LCSTAT_ON_AIR_LOCK (fld p 0 1)
    (if fld p 0 1 = 1 then s.tstClose else s, ok2 0 0)) ∧
  Completes .opDiagHealth 0x0901 noChk (fun _ _ s =>
    let hot := (List.range 8).foldl (fun (m : Int) i => max m (ofTwos 16 (s.rd Reg.PCR_TEMP_DECI_C 0 i))) (-32768)
    (s, ok2 (toTwos 16 hot + s.rd Reg.PCR_SUPPLY_MV 0 0 * 2 ^ 16 + s.rd Reg.PCR_POWER_MW * 2 ^ 32) (s.rd Reg.PCR_ALARM_BITS)))

/-- The confirmation of a trial image: the command waits for the slot record to be written (R484). -/
def Obligations.UpdateConfirmCompletes : Prop :=
  ∀ (s : State) (h : Hdr) (p : Bytes), s.Takes 0x0A02 h p noChk → (s.front h.qid.val).canConfirm = true →
    exec (.opUpdateConfirm h p) s = .next (s.carried (.opUpdateConfirm h p) 0x0A02 h p fun c _ s =>
      ({ s with mgt := { s.mgt with confirming := true, confKeys := s.mgt.confKeys ++ [c.key] } }, .later false)).evFlush.settle

/-- The queue commands. -/
def Obligations.QueueCommandsComplete : Prop :=
  Completes .opQueueCreate 0x0002 chkQueueCreate (fun _ p s =>
    (s.openQue (fld p 0 1)
      { sqlog2 := fld p 1 1, cqlog2 := fld p 2 1, vector := fld p 3 1, order := fld p 4 1 = 1, coalCount := fld p 5 1,
        coalUs := fld p 6 2, sqbase := fld p 8 8, cqbase := fld p 16 8 }, ok2 0 0)) ∧
  Completes .opQueueDelete 0x0003 chkQueueDelete (fun c p s =>
    (s.setQue (fld p 0 1) { s.que (fld p 0 1) with deleting := some (c.key, (s.que (fld p 0 1)).tailAbs) }, .later false)) ∧
  Completes .opQueueResume 0x0004 chkQueueResume (fun _ p s => (s.resumeQue (fld p 0 1) (fld p 1 1 = 1), ok2 0 0)) ∧
  Completes .opBarrier 0x0005 chkBarrier (fun _ p s => (s, .barrier (fld p 0 16) (fld p 16 4)))

/-- The commands that move a channel between its states (R36). -/
def Obligations.ChannelStateCommandsComplete : Prop :=
  Completes .opChCreate 0x0100 noChk (fun c _ s =>
    ((((s.setChan c.ch {}).chcReset c.ch).formFigures c.ch).setChSt c.ch 1 0, ok2 0 0)) ∧
  Completes .opChDestroy 0x0101 chkChDestroy (fun c _ s => (s.freeChan c.ch, ok2 0 0)) ∧
  Completes .opChAdmit 0x0109 chkChAdmit (fun c _ s =>
    (((s.perDefault c.ch).reserve c.ch true).setChSt c.ch 2 (s.rd Reg.CHC_FRAMECNT_COUNT c.ch), ok2 0 0)) ∧
  Completes .opChRelease 0x010A noChk (fun c _ s =>
    (((s.clearRefs c.ch).unreserve c.ch).setChSt c.ch 1 (s.rd Reg.CHC_FRAMECNT_COUNT c.ch), ok2 0 0)) ∧
  Completes .opChStart 0x010B noChk (fun c _ s =>
    let s := s.startGrid c.ch c.ns
    let f := (s.chan c.ch).startFrame
    let t := s.refNs c.ch f 0
    (s, .final stOk 0 0 (timeForm t) [{ c.commit .start with frame := f, row := 0, ns := t }])) ∧
  Completes .opChStop 0x010C noChk (fun c _ s => (s, .final stOk 0 0 c.frame [c.commit .stop])) ∧
  Completes .opChReset 0x010D noChk (fun c _ s => (s.resetChan c.ch, ok2 0 0)) ∧
  Completes .opChRefresh 0x010E noChk (fun c _ s => (s.askSweep c.ch false, ok2 0 0)) ∧
  Completes .opChMarkLong 0x010F chkChMarkLong (fun c _ s => (s, .final stOk 0 0 0 [c.commit .markLong])) ∧
  Completes .opChStatus 0x0110 noChk (fun c _ s =>
    (s, ok2 (s.rd Reg.CHC_FRAMECNT_COUNT c.ch) (s.rd Reg.CHC_TROW_TROW_NS c.ch + s.rd Reg.CHC_LMIN_LMIN_NS c.ch * 2 ^ 32)))

/-- The commands that set a channel's parameters: at once, or as a commit for the effective row of a running channel. -/
def Obligations.ChannelSettingCommandsComplete : Prop :=
  Completes .opChSetFormat 0x0102 chkChSetFormat (fun c p s =>
    let s := (s.withFormat c.ch p).rereserve c.ch
    ((if s.admitted c.ch then s.perDefault c.ch else s).compShow, ok2 0 0)) ∧
  Completes .opChSetLatency 0x0103 chkChSetLatency (fun c p s =>
    ((s.wr Reg.CHC_LATENCY_L_US (fld p 0 4) c.ch).rereserve c.ch, ok2 0 0)) ∧
  Completes .opChSetCoding 0x0104 chkChSetCoding (fun c p s =>
    let m := fld p 0 1
    let s := (s.withCoding c.ch p).rereserve c.ch
    let k := (s.chan c.ch).coding
    if c.rowed then (s, .final stOk 0 0 0 [c.commit (.coding m [k.captions] k.mdcv k.cll k.ccflow)])
    else (s.seiAct c.ch m k.captions k.mdcv k.cll k.ccflow, ok2 0 0)) ∧
  Completes .opChSetRefs 0x0105 chkChSetRefs (fun c p s => ((s.withRefs c.ch p).rereserve c.ch, ok2 0 0)) ∧
  Completes .opChSetRate 0x0106 chkChSetRate runChSetRate ∧
  Completes .opChSetRefresh 0x0107 chkChSetRefresh (fun c p s =>
    let s := s.setChan c.ch { s.chan c.ch with periodSet := true }
    let s := (s.wr Reg.CHC_REFRESH_MODE (fld p 0 1) c.ch).wr Reg.CHC_REFRESH_PERIOD (fld p 2 2) c.ch
    if c.rowed then (s, .final stOk 0 0 0 [c.commit (.refresh (fld p 0 1) (fld p 2 2))])
    else (s.refreshAct c.ch (fld p 0 1) (fld p 2 2), ok2 0 0)) ∧
  Completes .opChSetSlotmask 0x0108 chkChSetSlotmask (fun c p s =>
    let s := s.wr Reg.CHC_SLOTMASK_ENGINES (fld p 0 4) c.ch
    (if s.live c.ch then s else s.wr Reg.CHC_SLOTMASK_ACT_ENGINES (fld p 0 4) c.ch, ok2 0 0))

/-- The input, output and audio commands. -/
def Obligations.InputOutputAudioCommandsComplete : Prop :=
  Completes .opInCreate 0x0120 chkInCreate runInCreate ∧
  Completes .opInDestroy 0x0121 chkInDestroy runInDestroy ∧
  Completes .opInSetMeter 0x0122 chkInSetMeter runInSetMeter ∧
  Completes .opOutCreate 0x0500 chkOutCreate (fun c p s => ((s.outCreate c.ch (progOf p)).rereserve c.ch, ok2 0 0)) ∧
  Completes .opOutDestroy 0x0501 chkOutDestroy (fun c _ s => ((s.outDestroy c.ch).rereserve c.ch, ok2 0 0)) ∧
  Completes .opOutSetShaper 0x0502 chkOutSetShaper runOutSetShaper ∧
  Completes .opOutSetWindow 0x0503 chkOutSetWindow runOutSetWindow ∧
  Completes .opAudSetPort 0x0400 chkAudSetPort runAudSetPort ∧
  Completes .opAudRoute 0x0401 chkAudRoute (fun c p s =>
    let r := routeOf p
    let s := (s.setRoute c.ch (fld p 0 1) (some r)).rereserve c.ch
    if c.rowed then (s, .final stOk 0 0 0 [c.commit (.route (fld p 0 1) r.kind r.src r.pair)])
    else (s.routeAct c.ch (fld p 0 1) (some r), ok2 0 0)) ∧
  Completes .opAudUnroute 0x0402 chkAudUnroute (fun c p s =>
    let s := (s.setRoute c.ch (fld p 0 1) none).rereserve c.ch
    if c.rowed then (s, .final stOk 0 0 0 [c.commit (.unroute (fld p 0 1))]) else (s.routeAct c.ch (fld p 0 1) none, ok2 0 0))

/-- The composition and blit commands. -/
def Obligations.CompositionCommandsComplete : Prop :=
  Completes .opLayerSet 0x0200 chkLayerSet (fun c p s =>
    let i := 4 * c.ch + fld p 0 1
    let s := s.setLayer i { s.layer i with latest := lsetOf p }
    if c.rowed then (s.compShow, .final stOk 0 0 0 [c.commit (.layerSet (fld p 0 1) (lsetOf p))])
    else ((s.layerCommit c.ch (.layerSet (fld p 0 1) (lsetOf p))).compShow, ok2 0 0)) ∧
  Completes .opLayerBind 0x0201 chkLayerBind runLayerBind ∧
  Completes .opLayerFlip 0x0202 chkLayerFlip runLayerFlip ∧
  Completes .opLayerDirty 0x0203 chkLayerDirty (fun c p s =>
    if c.rowed then (s, .final stOk 0 0 0 [c.commit (.layerDirty (fld p 0 1))])
    else (s.layerCommit c.ch (.layerDirty (fld p 0 1)), ok2 0 0)) ∧
  Completes .opCmpSetCoef 0x0210 chkCmpSetCoef runCmpSetCoef ∧
  Completes .opBlit 0x0300 chkBlit runBlit ∧
  Completes .opEmOn 0x0F00 chkEm (fun c p s => (s.emCommand (fld p 0 8) true c.ns c.key, ok2 0 (s.emKept (fld p 0 8)))) ∧
  Completes .opEmOff 0x0F01 chkEm (fun c p s => (s.emCommand (fld p 0 8) false c.ns c.key, ok2 0 (s.emKept (fld p 0 8)))) ∧
  Completes .opEmSetVariant 0x0F02 chkEmSetVariant (fun _ p s =>
    let c := fld p 0 1
    let s := (s.wr Reg.CMP_EMFG_RGB (fld p 8 4) 0 c).wr Reg.CMP_EMBG_RGB (fld p 12 4) 0 c
    let s := ((s.wr Reg.CMP_EMCTL_EMMODE (fld p 1 1)).wr Reg.CMP_EMALPHA_BGALPHA (fld p 2 2)).wr Reg.CMP_EMALPHA_FGALPHA (fld p 4 2)
    (s.wr Reg.CMP_EMVALID_VALID (s.rd Reg.CMP_EMVALID_VALID ||| 2 ^ c), ok2 0 0))

/-- The time, pair, store and DRAM commands. -/
def Obligations.TimePairStoreDramCommandsComplete : Prop :=
  Completes .opTimeSetPtp 0x0600 chkTimeSetPtp runTimeSetPtp ∧
  Completes .opTimeSetPort 0x0601 chkTimeSetPort (fun _ p s =>
    let m := fld p 0 1
    (((s.wr Reg.TIM_MACCOMP_INGRESS_PS (fld p 4 4) 0 m).wr Reg.TIM_MACCOMP_EGRESS_PS (fld p 8 4) 0 m).wr
      Reg.TIM_MACCOMP_ASYM_PS (fld p 12 4) 0 m, ok2 0 0)) ∧
  Completes .opTimeSetOutputs 0x0602 chkTimeSetOutputs (fun _ p s =>
    (((s.wr Reg.TIM_OUTCTL_PPS (fld p 0 1 % 2)).wr Reg.TIM_OUTCTL_FS (fld p 0 1 / 2)).wr Reg.TIM_OUTCH_FSCH (fld p 4 4), ok2 0 0)) ∧
  Completes .opTimeStatus 0x0603 noChk (fun _ _ s =>
    (s, ok2 (timeForm s.ns)
      (s.rd Reg.TIM_TIMSTAT_SOURCE + 4 * s.rd Reg.TIM_TIMSTAT_SERVO + 2 ^ 32 * s.rd Reg.TIM_OFFSET_NS))) ∧
  Completes .opPairEnable 0x0700 chkPairEnable runPairEnable ∧
  Completes .opPairDisable 0x0701 noChk runPairDisable ∧
  Completes .opPairHandover 0x0702 chkPairHandover runPairHandover ∧
  Completes .opPairStatus 0x0703 noChk (fun _ _ s =>
    (s, ok2 (s.role + 4 * bit (s.role = 3) + 8 * s.rd Reg.PAIR_PAIRSTAT_LINKUP + 16 * s.rd Reg.PAIR_PAIRSTAT_HBLINE +
      32 * s.rd Reg.PAIR_PAIRSTAT_LOCKIN) (s.rd Reg.PAIR_PARTNER_PPV))) ∧
  Completes .opMemAlloc 0x0800 chkMemAlloc runMemAlloc ∧
  Completes .opMemFree 0x0801 chkMemFree runMemFree ∧
  Completes .opDramSetPoint 0x0810 chkDramSetPoint (fun c p s =>
    let busy := s.dmc.train.isSome
    let first := s.dmc.points.isEmpty
    let s := { s with dmc := { s.dmc with points := s.dmc.points ++ [(fld p 0 1, c.key)] } }
    (if busy || !first then s else s.switchBegin, .later busy)) ∧
  Completes .opDramTrain 0x0811 chkDramTrain runDramTrain ∧
  Completes .opDramStatus 0x0812 noChk runDramStatus

/-- A command with an opcode no table defines completes: it has no effect but its refusal, which is counted and answered
ST_UNSUPPORTED (R15, R244 check 1). First where the queue holds no fetched command, then for whatever command its queue takes
next. -/
def Obligations.ReservedOpcodesAreRefused : Prop :=
  (∀ (s : State) (op : Nat) (h : Hdr) (p : Bytes), opDef op = none → s.served h.qid.val = true →
    (s.que h.qid.val).fetched = [] → (s.que h.qid.val).flush = none → (s.que h.qid.val).stopWait = none →
    h.flags.toNat.testBit 1 = false → (2 ≤ h.qid.val → (s.chan (h.qid.val - 2)).intDue = false) →
    exec (.reservedOpcodeCommand op h p) s =
      .next ((((s.newKey h.qid.val).2.incWrap Reg.HIF_CMDCNT_COUNT).answer h.qid.val (s.que h.qid.val).headAbs op h p h.effpt.toNat
        (s.newKey h.qid.val).1 (.final stUnsupported 1 0 0 [])).evFlush.settle)) ∧
  (∀ (s : State) (op : Nat) (h : Hdr) (p : Bytes), opDef op = none → s.served h.qid.val = true → (s.popFetched h.qid.val).2.1 = false →
    (∀ f, ((s.popFetched h.qid.val).2.2.que h.qid.val).flush = some f → f ≤ (s.popFetched h.qid.val).1) →
    (h.flags.toNat.testBit 1 = true → ((s.popFetched h.qid.val).2.2.que h.qid.val).owes = false) →
    ((s.popFetched h.qid.val).2.2.que h.qid.val).stopWait = none →
    (2 ≤ h.qid.val → ((s.popFetched h.qid.val).2.2.chan (h.qid.val - 2)).intDue = false) →
    exec (.reservedOpcodeCommand op h p) s =
      .next ((((s.front h.qid.val).incWrap Reg.HIF_CMDCNT_COUNT).answer h.qid.val (s.popFetched h.qid.val).1 op h p h.effpt.toNat
        ((s.popFetched h.qid.val).2.2.newKey h.qid.val).1 (.final stUnsupported 1 0 0 []))).evFlush.settle)

/-! ### Queue mechanics -/

/-- Doorbells, fetching, parameter copies, room in the rings and signalling. -/
def Obligations.QueueFetchCommandsComplete : Prop :=
  (∀ (s : State) (q v : Nat), s.dev ≠ 0 → q ≤ 66 → s.qExists q = true → (s.que q).deleting = none → q ≠ 66 →
    v < 2 ^ (s.que q).sqlog2 → v < 2 ^ 32 →
    let size := 2 ^ (s.que q).sqlog2
    let adv := (v + size - s.rd Reg.HIF_QSTAT_TAIL 0 q) % size
    adv ≠ 0 → (s.rd Reg.HIF_QSTAT_TAIL 0 q + size - s.rd Reg.HIF_QSTAT_HEAD 0 q) % size + adv ≤ size - 1 →
    ∃ t : State, exec (.submissionTailDoorbell q v) s = .next t ∧ t.rd Reg.HIF_QSTAT_TAIL 0 q = v % 2 ^ Reg.HIF_QSTAT_TAIL.w ∧
      (t.que q).tailAbs = (s.que q).tailAbs + adv) ∧
  (∀ (s : State) (q v : Nat), s.dev ≠ 0 → q ≤ 66 → s.qExists q = true → v < 2 ^ (s.que q).cqlog2 → v < 2 ^ 32 →
    exec (.completionHeadDoorbell q v) s = .next (s.setQue q { s.que q with
      cqHead := v, cqUsed := (s.rd Reg.HIF_QSTAT_CQTAIL 0 q + 2 ^ (s.que q).cqlog2 - v) % 2 ^ (s.que q).cqlog2 }).evFlush.settle) ∧
  (∀ (s : State) (q : Fin 66) (slot : Bytes), s.canFetch q = true →
    (s.que q).headAbs + slotsOf (fld slot 6 2) ≤ (s.que q).limit → (s.que q).eqHeld = false → (q.val = 1 → s.eqRoom = true) →
    (needsDma q (fld slot 6 2) = true → s.genCount ≠ 0) →
    ∃ t : State, exec (.commandFetch q slot) s = .next t ∧ (t.que q).headAbs = (s.que q).headAbs + slotsOf (fld slot 6 2) ∧
      t.rd Reg.HIF_QSTAT_HEAD 0 q =
        (s.rd Reg.HIF_QSTAT_HEAD 0 q + slotsOf (fld slot 6 2)) % 2 ^ (s.que q).sqlog2 % 2 ^ Reg.HIF_QSTAT_HEAD.w) ∧
  (∀ (s : State) (q : Fin 66), s.canFetch q = true → (s.que q).headAbs < (s.que q).limit →
    exec (.fetchFailure q) s =
      .next (let t := (s.incSat Reg.HIF_ERRCNT_FETCH).ev (evHif 3)
        let t := if q.val ≠ 1 then t.wr Reg.HIF_QSTAT_HALTED 1 0 q else t
        t.reply q { mkRply (s.que q).headAbs 0 0 255 stAborted 0x20 0 0 0 (decide (q.val ≠ 1)) [] with final := false }).evFlush.settle) ∧
  (∀ (s : State) (d : Fin 8) (bad : Option (List (Nat × Nat))) (q pos : Nat), tget noDma s.hif.dmaUse d = (q, pos) → q ≠ 255 →
    exec (.paramDmaDone d bad) s = .next (
      let t := s.setQue q { s.que q with fetched := markDma (s.que q).fetched pos (if bad = some [] then 0 else 3) }
      let t := (bad.getD []).foldl (fun (t : State) e => t.lineFail (storeLine (e.1 / 64)) 47 e.2) t
      let t : State := { t with hif := { t.hif with dmaUse := tset noDma t.hif.dmaUse d noDma } }
      (match t.dmaTask d with
        | some k => ((t.incWrap Reg.CST_PORT_BYTES (t.task k).param 0 47).cvuOpaque (904 + d) (cdiv (t.task k).param 64)).taskDone k
        | none => t).evFlush.settle)) ∧
  (∀ (s : State) (q : Fin 66), s.rd Reg.HIF_QSTAT_CQFULL 0 q = 1 → s.ringRoom q = true →
    exec (.cqRoom q) s = .next ((s.wr Reg.HIF_QSTAT_CQFULL 0 0 q).post q).evFlush.settle) ∧
  (∀ s : State, (s.que 1).eqHeld = true → s.eqRoom = true →
    exec .eqCqRoom s = .next (s.setQue 1 { s.que 1 with eqHeld := false }).evFlush.settle) ∧
  (∀ (s : State) (q : Fin 67), (s.que q).coalDue s.ns = true →
    exec (.coalesceTimeout q) s = .next ((s.setQue q { s.que q with unsig := 0 }).emit (.msix (s.que q).vector)).evFlush.settle)

/-- Barriers, deletions, held commands, command cores, mirror acknowledgements and the queue control registers. -/
def Obligations.QueueControlCommandsComplete : Prop :=
  (∀ (s : State) (q : Fin 66) (b : Barrier), (s.que q).barrier = some b → b.expiry ≤ s.ns →
    exec (.barrierTimeout q) s = .next ((s.ev (evHif 10)).endBarrier q b stTimeout).evFlush.settle) ∧
  (∀ (s : State) (q : Fin 66) (b : Barrier), (s.que q).barrier = some b → b.tails.all (fun e => s.upTo e.1 e.2) = true →
    exec (.barrierSatisfied q) s = .next (s.endBarrier q b stOk).evFlush.settle) ∧
  (∀ (s : State) (q : Fin 67) (key tail : Nat), (s.que q).deleting = some (key, tail) →
    (q.val ≠ 66 → tail ≤ (s.que q).headAbs ∧ (s.que q).openPos = [] ∧ (s.que q).replies = [] ∧ (s.que q).outst = []) →
    exec (.queueDeleteDone q) s = .next (((s.setQue q {}).qstatInit q 0).complete key stOk).evFlush.settle) ∧
  (∀ (s : State) (q : Fin 66) (i : Instr) (pos op : Nat) (h : Hdr) (p : Bytes), (s.que q).held = some (i, pos) →
    opParts i = some (op, h, p) → (s.que q).flushes pos = false → s.mayResume q h = true →
    exec (.orderWaitRelease q) s = .next (s.resumeHeld i pos op h p ((opBody op).getD (noChk, runNop)).1
      ((opBody op).getD (noChk, runNop)).2).evFlush.settle) ∧
  (∀ (s : State) (c : Fin 4), tget false s.hif.coreDown c = false →
    ((s.hif.restarts ++ [(s.ns, c.val)]).filter fun e => decide (s.ns ≤ e.1 + 60000000000)).length < 3 →
    ∃ t : State, exec (.commandCoreWatchdog c none) s = .next t ∧ tget false t.hif.coreDown c = true ∧
      t.rd Reg.HIF_CORECNT_RESTARTS = min (s.rd Reg.HIF_CORECNT_RESTARTS + 1) (2 ^ Reg.HIF_CORECNT_RESTARTS.w - 1)) ∧
  (∀ (s : State) (c : Fin 4), ∃ t : State, exec (.commandCoreRestartDone c) s = .next t ∧ tget false t.hif.coreDown c = false ∧
    ∀ c' : Nat, c' ≠ c.val → tget false t.hif.coreDown c' = tget false s.hif.coreDown c') ∧
  (∀ (s : State) (seq st : Nat), exec (.mirrorAck seq st) s = .next (s.releaseAck seq false).evFlush.settle) ∧
  (∀ (s : State) (seq : Nat), s.ackLate seq = true →
    exec (.mirrorAckTimeout seq) s = .next (((s.incSat Reg.HIF_PAIRCNT_UNACKED).ev (evHif 9)).releaseAck seq true).evFlush.settle) ∧
  (∀ s : State, s.dev ≠ 0 → s.rd Reg.HIF_AQCTL_ENABLE = 0 → 4 ≤ s.rd Reg.HIF_AQSIZE_SQLOG2 → s.rd Reg.HIF_AQSIZE_SQLOG2 ≤ 16 →
    4 ≤ s.rd Reg.HIF_AQSIZE_CQLOG2 → s.rd Reg.HIF_AQSIZE_CQLOG2 ≤ 16 →
    exec (.aqctlEnable true) s = .next (((s.hostAccess Reg.HIF_AQCTL_ENABLE).wr Reg.HIF_AQCTL_ENABLE 1).openQue 0
      { sqlog2 := s.rd Reg.HIF_AQSIZE_SQLOG2, cqlog2 := s.rd Reg.HIF_AQSIZE_CQLOG2, vector := s.rd Reg.HIF_AQSIZE_VECTOR,
        order := s.rd Reg.HIF_AQSIZE_ORDER = 1, sqbase := s.rd Reg.HIF_AQSQBASE_ADDR, cqbase := s.rd Reg.HIF_AQCQBASE_ADDR }).evFlush.settle) ∧
  (∀ s : State, s.dev ≠ 0 → s.rd Reg.HIF_EQCTL_ENABLE = 0 → 4 ≤ s.rd Reg.HIF_EQSIZE_SQLOG2 → s.rd Reg.HIF_EQSIZE_SQLOG2 ≤ 8 →
    4 ≤ s.rd Reg.HIF_EQSIZE_CQLOG2 → s.rd Reg.HIF_EQSIZE_CQLOG2 ≤ 8 →
    exec (.eqctlEnable true) s = .next (((s.hostAccess Reg.HIF_EQCTL_ENABLE).wr Reg.HIF_EQCTL_ENABLE 1).openQue 1
      { sqlog2 := s.rd Reg.HIF_EQSIZE_SQLOG2, cqlog2 := s.rd Reg.HIF_EQSIZE_CQLOG2, vector := s.rd Reg.HIF_EQSIZE_VECTOR,
        sqbase := s.rd Reg.HIF_EQSQBASE_ADDR, cqbase := s.rd Reg.HIF_EQCQBASE_ADDR }).evFlush.settle) ∧
  (∀ s : State, s.dev ≠ 0 →
    (s.rd Reg.HIF_AQCTL_ENABLE = 1 → exec (.aqctlEnable false) s =
      .next (((s.hostAccess Reg.HIF_AQCTL_ENABLE).wr Reg.HIF_AQCTL_ENABLE 0).stopQue 0).evFlush.settle) ∧
    (s.rd Reg.HIF_EQCTL_ENABLE = 1 → exec (.eqctlEnable false) s =
      .next (((s.hostAccess Reg.HIF_EQCTL_ENABLE).wr Reg.HIF_EQCTL_ENABLE 0).stopQue 1).evFlush.settle)) ∧
  (∀ (s : State) (flush : Bool), s.dev ≠ 0 → s.rd Reg.HIF_QSTAT_HALTED 0 0 = 1 →
    exec (.aqctlResume flush) s = .next (
      let u := s.hostAccess Reg.HIF_AQCTL_RESUME
      let t := (u.setQue 0 { u.que 0 with flush := if flush then some (u.que 0).tailAbs else (u.que 0).flush }).wr Reg.HIF_QSTAT_HALTED 0 0 0
      (if flush then t.abortBlits 0 else t).evFlush.settle)) ∧
  (∀ (s : State) (q : Fin 66) (r : Rply) (rest : List Rply) (t : Nat), (s.que q).replies = r :: rest → r.hold = .until t →
    exec (.replyDelayExpiry q) s =
      .next (((s.at t).setQue q { (s.at t).que q with replies := { r with hold := .none } :: rest }).post q).evFlush.settle)

/-! ### The Spindle, the engines and rate control -/

/-- Ticks, releases, tasks, the log and the protected window. -/
def Obligations.SpindleCommandsComplete : Prop :=
  (∀ s : State, s.fclk = true →
    exec .spindleTick s =
      .next (((((s.tickTime.txDue.moveDue s.tick).devDue).forEach (List.range 64) State.startDue).claimTick).pairLift.joinSweeps).evFlush.settle) ∧
  (∀ (s : State) (n : Fin 64) (t : Nat), (s.at t).live n = true → (s.at t).fclk = true →
    (∀ l, ((s.at t).chan n).lastPic = some l → ((s.at t).chan n).nextFrame ≤ l) →
    cdiv ((s.at t).boundaryNs n ((s.at t).chan n).nextFrame ((s.at t).chan n).nextRow) 1000 ≤ (s.at t).tick →
    exec (.rowRelease n t) s = .next ((s.at t).releaseRow n).evFlush.settle) ∧
  (∀ (s : State) (c : Fin 4) (d u : Nat), s.fclk = true →
    State.pickTask ((if c = 0 then s.bindStandins else s).testsDue c) c = some (d, u) →
    exec (.taskDispatch c) s = .next (
      let t := (if c = 0 then s.bindStandins else s).testsDue c
      let k := (t.task d).kind
      let t := if k = kSlice ∨ k = kReencode then t.engStart d u
        else if k = kBlit then t.blitStart d (u - 96)
        else if k = kCompose then t.setTask d { t.task d with state := 4, target := u, start := t.ns, snap := (t.task d).snap.map fun p => { p with emv := t.emvOf (t.task d).ch } }
        else if k = kParamDma then (t.setTask d { t.task d with state := 4, target := u, start := t.ns }).dmaStart d (u - 104)
        else t.setTask d { t.task d with state := 4, target := u, start := t.ns }
      (t.trace 3 d (t.task d).fseq).incWrap Reg.SPD_DISPCNT_COUNT 1 0 c).evFlush.settle) ∧
  (∀ (s : State) (d : Fin 16384), (s.task d).state = 4 → s.fclk = true → (s.task d).ch < 64 →
    ((s.task d).kind = kSubst → exec (.taskComplete d .record) s = .next ((s.substDone d).paramGood (s.task d).ch).evFlush.settle) ∧
    ((s.task d).kind = kHeader → exec (.taskComplete d .header) s = .next ((s.headerDone d).paramGood (s.task d).ch).evFlush.settle) ∧
    (∀ (upto : Nat) (bad : List (Nat × Nat)), (s.task d).kind = kCompose →
      exec (.taskComplete d (.compose upto bad)) s = .next ((s.composeDone d upto bad).paramGood (s.task d).ch).evFlush.settle) ∧
    (∀ bad : List (Nat × Nat), (s.task d).kind = kPack →
      exec (.taskComplete d (.pack bad)) s = .next ((s.packDone d bad).paramGood (s.task d).ch).evFlush.settle) ∧
    (∀ o : Nat, (s.task d).kind = kBandFill ∨ (s.task d).kind = kBandRefetch →
      exec (.taskComplete d (.band o)) s = .next ((s.bandDone d o).paramGood (s.task d).ch).evFlush.settle) ∧
    (∀ e : Bool, (s.task d).kind = kReconCopy →
      exec (.taskComplete d (.written e)) s = .next ((s.copyDone d e).paramGood (s.task d).ch).evFlush.settle) ∧
    (∀ addr kind : Nat, (s.task d).kind ≠ kFlatten → (s.task d).kind ≠ kBlit →
      exec (.taskComplete d (.badParam addr kind)) s = .next (s.paramBadDone d addr kind).evFlush.settle)) ∧
  (∀ (s : State) (d : Fin 16384), s.lateTask d = true → (s.task d).kind ≠ kSlice → (s.task d).kind ≠ kReencode →
    exec (.taskDeadlineMiss d) s = .next (s.missed d).evFlush.settle) ∧
  (∀ (s : State) (q : Fin 66), s.genCount ≠ 0 →
    exec (.poolStallEnd q) s = .next (
      let t := s.post q
      let t := if t.stalledQ q then t.resumeQ q else t
      let t := if t.rd Reg.PAIR_PAIRSTAT_IMAGE = 1 then t.mirrorsHeld else t
      if ((List.range 66).any fun q => t.stalledQ q || t.replyStalled q) ∨ (t.rd Reg.PAIR_PAIRSTAT_IMAGE = 1 ∧ !t.pair.heldMirrors.isEmpty) then t
      else t.stallEnd).evFlush.settle) ∧
  (∀ (s : State) (d : Fin 16384), (s.task d).state ≠ 0 → s.fclk = true →
    exec (.descriptorError d) s = .next (let t := (s.incSat Reg.SPD_DESCERR_COUNT).ev (evSpd 9)
      if d.val < 2048 then t.faultChan (d / 32) 4 else t).evFlush.settle) ∧
  (∀ (s : State) (v : Fin 4), s.fclk = true →
    exec (.tracectlMode v) s =
      .next (let u := s.hostAccess Reg.SPD_TRACECTL_MODE
        (({ u with spd := { u.spd with trigLeft := none } }.wr Reg.SPD_TRACECTL_MODE v).wr Reg.SPD_TRACESTAT_STOPPED 0) : State).evFlush.settle) ∧
  (∀ s : State, s.fclk = true → exec .tracectlClear s = .next (s.hostAccess Reg.SPD_TRACECTL_CLEAR).traceClear.evFlush.settle) ∧
  (∀ s : State, s.rd Reg.SPD_SPDSTAT_WINDOW = 0 → s.fclk = true →
    (s.dramDeadlines.filter fun d => d - s.protLead ≤ s.ns && s.ns < d + s.protTail) ≠ [] →
    (∀ t, s.spd.winLast = some t → t + s.protGap ≤ s.ns) →
    exec .protectedWindowOpen s = .next (
      let now := s.dramDeadlines.filter fun d => d - s.protLead ≤ s.ns && s.ns < d + s.protTail
      let close := s.mergeClose ((now.map (· + s.protTail)).foldl max 0)
      let t : State := { s with spd := { s.spd with winOpen := s.ns, winClose := close } }
      let t := (t.wr Reg.SPD_SPDSTAT_WINDOW 1).wr Reg.SPD_PROTOPEN_TICK t.tick
      (t.incWrap Reg.SPD_PROTCNT_WINDOWS).traceDev 10 255 0 0 0).evFlush.settle) ∧
  (∀ s : State, s.rd Reg.SPD_SPDSTAT_WINDOW = 1 → min (s.mergeClose s.spd.winClose) (s.spd.winOpen + s.protMax) ≤ s.ns →
    exec .protectedWindowClose s = .next (
      let t := ({ s with spd := { s.spd with winLast := some s.ns } } : State).payback
      let t := (t.wr Reg.SPD_SPDSTAT_WINDOW 0).traceDev 11 255 0 0 t.tick
      if s.spd.winOpen + s.protMax < s.mergeClose s.spd.winClose then (t.incSat Reg.SPD_PROTCNT_CAPPED).ev (evSpd 6) else t).evFlush.settle) ∧
  (∀ (s : State) (n : Fin 64), s.lastEnded n = true → exec (.lastPictureEnd n) s = .next (s.stopChan n).evFlush.settle) ∧
  (∀ (s : State) (n : Fin 64) (f k : Nat), (s.chan n).rcWait = some (f, k) → s.boundaryNs n f k + 20000 ≤ s.ns →
    exec (.rcrecWaitExpiry n) s =
      .next (((s.setChan n { s.chan n with rcWait := none }).incSat Reg.PAIR_RCWAIT_COUNT).gateSlices n f k (s.ownPlan n f k)).evFlush.settle)

/-- Slice tasks on the engines: success, deadlines, failures, faults and self-tests. -/
def Obligations.EngineCommandsComplete : Prop :=
  (∀ (s : State) (d : Fin 16384) (maxCtu winCorr : Nat), (s.task d).state = 4 → s.fclk = true → (s.task d).ch < 64 →
    (s.task d).kind = kSlice ∨ (s.task d).kind = kReencode →
    exec (.taskComplete d (.slice maxCtu winCorr)) s = .next ((s.sliceDone d maxCtu winCorr).paramGood (s.task d).ch).evFlush.settle) ∧
  (∀ (s : State) (d : Fin 16384), s.lateTask d = true → (s.task d).kind = kSlice ∨ (s.task d).kind = kReencode →
    exec (.encodeDeadline d) s = .next (let t := s.missed d
      (match t.engOf d with | some e => (t.engPartial e (s.task d)).engIdle e | none => t).substitute d).evFlush.settle) ∧
  (∀ (s : State) (d : Fin 16384) (why : Fin 3) (addr kind e : Nat), (s.task d).state = 4 →
    (s.task d).kind = kSlice ∨ (s.task d).kind = kReencode → s.engOf d = some e →
    exec (.sliceFailure d why addr kind) s = .next (
      let t := s.lineFail (storeLine (addr / 64)) e kind
      let t := if why = 2 then t.paramFail (s.task d).ch else t
      t.failInput d e (if why = 1 then some (64 * (addr / 64 % 8388608)) else none)).evFlush.settle) ∧
  (∀ (s : State) (e : Fin 32) (d t : Nat), (s.eng e).task = some d → s.engSt e = 1 → s.sliceDue (s.task d) = some t → t + 2000 ≤ s.ns →
    exec (.sliceWatchdog e) s = .next (s.engFault e 3).evFlush.settle) ∧
  (∀ (s : State) (e : Fin 32) (cause : Nat), s.fclk = true → s.engSt e = 1 → cause = 1 ∨ cause = 2 ∨ cause = 4 →
    exec (.engineFault e cause) s = .next (s.engFault e cause).evFlush.settle) ∧
  (∀ (s : State) (e : Fin 32) (stage d : Nat), s.engSt e = 3 → s.testOf e = some d →
    exec (.engineSelftestEnd e stage) s = .next (
      let t := ((s.wr Reg.ENC_TESTRES_DONE 1 e).wr Reg.ENC_TESTRES_PASS (bit (stage = 0)) e).wr Reg.ENC_TESTRES_STAGE (min stage 6) e
      let t := if stage = 0 then t else (t.engCount e 16 255 0 0).ev (evEnc e 0) 255 16
      let x := t.eng e
      let st := if stage = 0 ∧ x.outKeys = [] ∧ (x.cmdTest ∨ (t.rd Reg.ENC_ENGSTAT_AUTO_RETURN e = 1 ∧ t.recent e < 3)) then 0 else 4
      let t := ((t.setEng e { x with outKeys := [], inKey := 0, cmdTest := false }).wr Reg.ENC_ENGSTAT_STATE st e).ev (evEnc e 1) 255 st
      let t := if stage = 0 then t.complete x.inKey stOk else t.complete x.inKey stAborted 16
      ((x.outKeys.foldl (fun t k => t.complete k stOk) t).maskCheck).taskDone d).evFlush.settle)

/-- Sweeps, the emergency period and the shown reference descriptor. -/
def Obligations.RateAndReferenceCommandsComplete : Prop :=
  (∀ (s : State) (n : Fin 64), s.rowDue n = true → (s.chan n).nextRow = 0 → (s.chan n).startFrame + 1 < (s.chan n).nextFrame → (s.chan n).follow = false →
    let c := s.chan n
    let st : RcSt := { c.rc with set := s.setAt n c.nextFrame }
    (st.req = false → exec (.sweepPeriodicStart n) s =
      .next (s.setRc n { st.turn c.rows c.cols c.nextFrame false with set := c.rc.set }).evFlush.settle) ∧
    (st.heldTo.isSome = true → exec (.heldSweepBegin n) s =
      .next (s.setRc n { st.turn c.rows c.cols c.nextFrame false with set := c.rc.set }).evFlush.settle) ∧
    exec (.emergencyPeriodEnd n) s = .next (s.setRc n { st.emTurn c.nextFrame with set := c.rc.set }).evFlush.settle) ∧
  (∀ (s : State) (idx : Fin 1024), s.fclk = true →
    exec (.refDescsel idx) s = .next ((s.hostAccess Reg.REF_DESCSEL_INDEX).descSel idx).evFlush.settle)

/-! ### Composition, the blitter and the store -/

/-- Bound layer changes and the flattened overlay. -/
def Obligations.LayerCommandsComplete : Prop :=
  (∀ (s : State) (n : Fin 64) (k : Fin 4), ((s.chan n).nextRow = 0 ∧ cdiv (s.refNs n (s.chan n).nextFrame 0 + (s.chan n).tRow) 1000 ≤ s.tick) ∨ s.live n = false →
    exec (.layerChangeApply n k) s = .next ((s.applyBind n k).layerShow n).evFlush.settle) ∧
  (∀ (s : State) (n : Fin 64) (bad : List (Nat × Nat)) (d : Nat), (s.cache n).flattening = some d → (s.task d).state = 4 →
    let read := s.runLines n
    let u := (bad.filter fun e => read.contains (e.1 / 64 * 64)).foldl (fun (t : State) e => t.lineDamage e.1 e.2) s
    let hit := (read.filter u.badLine).dedup
    let t := (hit.foldl (fun (t : State) a => t.lineRead a 41) u).taskDone d
    let c := { s.cache n with flattening := none }
    (hit ≠ [] → exec (.flattenDone n bad) s =
      .next ((((t.setCache n { c with failed := true, stale := false }).incSat Reg.CMP_FLATCNT_FAIL).ev (evCmp 2)).layerShow n).evFlush.settle) ∧
    (hit = [] → c.stale = true → exec (.flattenDone n bad) s =
      .next ((if t.runAct n = [] then t.setCache n { c with stale := false } else (t.setCache n c).flatten n).layerShow n).evFlush.settle) ∧
    (hit = [] → c.stale = false →
      let tiles := t.occupied n (t.gridOf n (t.chan n).nextFrame)
      let free := (List.range (t.rd Reg.CMP_TILESIZE_BYTES / 20480)).filter fun k => !t.tilesUsed.contains k
      (free.length < tiles.length → exec (.flattenDone n bad) s =
        .next ((((t.setCache n { c with retry := true, freed := false, due := false }).incSat Reg.CMP_FLATCNT_FAIL).ev (evCmp 0)).layerShow n).evFlush.settle) ∧
      (tiles.length ≤ free.length → exec (.flattenDone n bad) s =
        .next (((((t.writeTiles (u.flattenUnit d) n (t.gridOf n (t.chan n).nextFrame) (tiles.zip free)).setCache n { c with fresh := some (tiles.zip free) }).incWrap
          Reg.CMP_FLATCNT_DONE).incWrap Reg.CMP_CHCMP_FLATTENS 1 0 n).layerShow n).evFlush.settle))) ∧
  (∀ (s : State) (n : Fin 64), (s.cache n).retry = true → (s.cache n).due = true → (s.cache n).flattening = none → s.runAct n ≠ [] →
    s.genCount ≠ 0 → exec (.flattenRetry n) s = .next ((s.flatten n).layerShow n).evFlush.settle)

/-- Bursts, dead times, failures and self-tests of the blitters. -/
def Obligations.BlitterCommandsComplete : Prop :=
  (∀ (s : State) (u : Fin 8) (addr part d : Nat), (s.bltU u).task = some d → (s.bltU u).dead = none →
    s.rd Reg.BLT_UNITSTAT_STATE u = 1 →
    let b := (s.blitAt d).2.2
    let out := blitCells b (b.cells - (s.bltU u).pos) 4096 s { pos := (s.bltU u).pos }
    s.burstInject u out.2 = (none, s) → s.burstBad out.2 = none →
    exec (.blitBurstEnd u 0 addr part) s = .next (
      let t := ((out.1).burstMarks out.2).burstCount u out.2
      (if b.cells ≤ out.2.pos then t.blitEnd u stOk 0 0 else t).blitDead u (s.deadOf u b out.2)).evFlush.settle) ∧
  (∀ (s : State) (u : Fin 8) (c : Nat), (s.bltU u).dead = some c →
    exec (.blitDeadTimeEnd u) s = .next (
      let t := (s.setBltU u { s.bltU u with dead := none }).incWrap Reg.BLT_DEADCYC_CYCLES c u
      if (t.bltU u).task = none ∧ t.rd Reg.BLT_UNITSTAT_STATE u = 1 then t.wr Reg.BLT_UNITSTAT_STATE 0 u else t).evFlush.settle) ∧
  (∀ (s : State) (u : Fin 8) (part : Nat), s.rd Reg.BLT_UNITSTAT_STATE u ≤ 1 → (s.bltU u).task = none →
    exec (.blitUnitFailure u part) s = .next (
      let t := s.ev (evBlt u) 255 4 (s.rd Reg.BLT_LASTERR_ADDR u)
      let t := match (s.bltU u).dead with | some c => t.deadSpent u (min part c) | none => t
      ((t.incSat Reg.BLT_ERRCNT_FAULTS 1 u).wr Reg.BLT_UNITSTAT_STATE 2 u).putSelftest (96 + u) 3).evFlush.settle) ∧
  (∀ (s : State) (u : Fin 8) (part d : Nat), s.rd Reg.BLT_UNITSTAT_STATE u ≤ 1 → (s.bltU u).task = some d → (s.bltU u).dead = none →
    exec (.blitUnitFailure u part) s = .next (
      let r := blitCells (s.blitAt d).2.2 ((s.blitAt d).2.2.cells - (s.bltU u).pos) (min part 4095) s { pos := (s.bltU u).pos }
      let w := pieceBytes r.2.wr
      let t := (r.1.burstMarks r.2).incWrap Reg.BLT_BYTES_COUNT w u
      let t := (t.setBltU u { t.bltU u with bytes := (t.bltU u).bytes + w }).blitEnd u stAborted 4 0
      let t := match (t.bltU u).dead with | some c => t.deadSpent u (min part c) | none => t
      ((t.incSat Reg.BLT_ERRCNT_FAULTS 1 u).wr Reg.BLT_UNITSTAT_STATE 2 u).putSelftest (96 + u) 3).evFlush.settle) ∧
  (∀ (s : State) (u : Fin 8) (pass : Bool) (d : Nat), s.rd Reg.BLT_UNITSTAT_STATE u = 2 → s.testOf (96 + u) = some d →
    exec (.blitSelftestEnd u pass) s = .next ((s.wr Reg.BLT_UNITSTAT_STATE (if pass then 0 else 3) u).taskDone d).evFlush.settle)

/-- Scrubbing, the wipe and its timeout, and the accesses that come through the host window and BAR0. -/
def Obligations.StoreCommandsComplete : Prop :=
  (∀ (s : State) (data : List (Fin 512)) (check : List (Fin 96)), s.fclk = true → s.rd Reg.CST_CSTSTAT_READY = 1 →
    (∀ t, s.cst.scrubAt = some t → t + s.rd Reg.CST_SCRUBCTL_INTERVAL * 2 / 3 ≤ s.ns) →
    exec (.csScrubLine data check) s = .next (
      let l := s.cst.scrubLine
      let u := s.csFlip l (tget [] s.mem.csFlip l ++ (lineBits data check).filter fun b => !(tget [] s.mem.csFlip l).contains b)
      let x := u.csFound l
      let t := if x.bad then ((((u.wr Reg.CST_LASTERR_ADDR (64 * l)).wr Reg.CST_LASTERR_PORT 0x3F).wr Reg.CST_LASTERR_KIND x.kind).wr
            Reg.CST_LASTERR_SCRUB 1).ev (evCst 2)
        else if x.corrected = 0 then u else (u.csMend l).csCorrected x.corrected
      let t : State := { t with cst := { t.cst with scrubLine := (l + 1) % 8388608, scrubAt := some t.ns } }
      if (l + 1) % 8388608 = 0 then t.incWrap Reg.CST_SCRUBPASS_COUNT else t).evFlush.settle) ∧
  (∀ s : State, s.rd Reg.CST_CSTSTAT_WIPING = 1 →
    exec .csWipeDone s = .next (
      let t : State := { s with mem := { s.mem with cs := [], csFlip := [] }, cst := { s.cst with pages := [], runs := [], frees := [] } }
      ((((t.wr Reg.CST_CSTSTAT_WIPING 0).wr Reg.CST_CSTSTAT_READY 1).pageCounts).ev (evCst 6)).serveStalled).evFlush.settle) ∧
  (∀ s : State, s.rd Reg.CST_CSTSTAT_WIPING = 1 → s.cst.wipeAt + 1000000 ≤ s.ns → exec .csWipeTimeout s = .next (s.enterSafe 2 0).evFlush.settle) ∧
  (∀ (s : State) (off : Nat) (data : Bytes), s.dev ≠ 0 → s.memHolds off data.length = false →
    (∀ e ∈ linePieces (data.length + 1) (off % 2 ^ 30) data, s.bar2Verdict (s.bar2Addr e.1) = 0) →
    exec (.bar2Write off data) s = .next (((linePieces (data.length + 1) (off % 2 ^ 30) data).foldl
      (fun (t : State) e => ((t.bar2Put (s.bar2Addr e.1) e.2).incWrap Reg.CST_PORT_BYTES e.2.length 0 47).cvuLines 958
        [s.bar2Addr e.1 / 64 * 64]) s)).evFlush.settle) ∧
  (∀ (s : State) (off : Nat) (data : Bytes), s.dev ≠ 0 → s.memHolds off data.length = true →
    exec (.bar2Write off data) s = .next (s.stall (.write off data)).evFlush.settle) ∧
  (∀ (s : State) (off len : Nat) (errs : List (Nat × Nat)), s.dev ≠ 0 → s.memHolds off len = false →
    (s.space (s.bar2Addr ((off % 2 ^ 30) + (max 1 len - 1)))).1 ≠ 2 →
    ∃ (u : State) (bad : Bool), exec (.bar2Read off len errs) s = .next (u.emit (.bar2Data ((List.range len).map fun i =>
        s.byte (s.bar2Addr (off % 2 ^ 30 + i))) bad)).evFlush.settle ∧ u.mem.cs = s.mem.cs ∧ u.mem.dram = s.mem.dram) ∧
  (∀ (s : State) (off len : Nat) (errs : List (Nat × Nat)), s.dev ≠ 0 → s.memHolds off len = true →
    exec (.bar2Read off len errs) s = .next (s.stall (.read off len errs)).evFlush.settle) ∧
  (∀ (s : State) (off : Nat) (write : Bool), s.dev ≠ 0 →
    exec (.bar0SizeError off write) s = .next (
      let t := s.errResp 1 0 write (Config.regBase + off % 0x4000000)
      if write then t else t.emit .unsupported).evFlush.settle)

/-- Register accesses by a master, and the commands of the register bridge and the PCIe port. -/
def Obligations.RegisterAccessCommandsComplete : Prop :=
  (∀ (s : State) (m : Fin 15) (off v : Nat) (wide : Bool), exec (.registerWrite m off wide v) s = .next (s.regWrite m off wide v).evFlush.settle) ∧
  (∀ (s : State) (m : Fin 15) (off : Nat) (wide : Bool), exec (.rcRead m off wide) s = .next (s.regRead m off wide).evFlush.settle) ∧
  (∀ (s : State) (m : Fin 15) (off : Nat), exec (.lowWordRead m off) s = .next (s.regRead m off false).evFlush.settle) ∧
  (∀ (s : State) (cap : Bool), exec (.nowsecLowRead cap) s = .next (s.regRead 0 (if cap then 0x180200 else 0x180008) false).evFlush.settle) ∧
  (∀ (s : State) (m : Fin 15) (a : Nat) (w : Bool), s.fclk = true →
    exec (.lockSequenceBreak m a w) s = .next (s.transferFails 2 m a w).evFlush.settle) ∧
  (∀ (s : State) (m : Fin 15) (a : Nat) (w : Bool), s.fclk = true →
    exec (.bridgeTimeout m a w) s = .next (s.transferFails 3 m a w).evFlush.settle) ∧
  (∀ (s : State) (v : Bool), s.fclk = true → s.dev = 0 → s.rd Reg.MTX_REMAP_ZERO ≠ bit v →
    exec (.remapZeroWrite v) s = .next (((s.hostAccess Reg.MTX_REMAP_ZERO).wr Reg.MTX_REMAP_ZERO (bit v)).ev (evMtx 3)).evFlush.settle) ∧
  (∀ (s : State) (err : Option (Fin 15 × Nat × Fin 6 × Bool)), s.fclk = true →
    exec (.errstatValidClear err) s = .next (
      let u := (s.hostAccess Reg.MTX_ERRSTAT_VALID).wr Reg.MTX_ERRSTAT_VALID 0
      match err with
      | none => u
      | some (m, a, k, w) => u.errResp k m w (a % 2 ^ 40)).evFlush.settle) ∧
  (∀ (s : State) (v : Nat), s.fclk = true → s.dev ≠ 0 →
    exec (.dramwinBaseWrite v) s = .next ((s.hostAccess Reg.HIF_DRAMWIN_BASE).wr Reg.HIF_DRAMWIN_BASE (v / 2 ^ 29)).evFlush.settle) ∧
  (∀ (s : State) (speed width : Nat), s.fclk = true → s.dev ≠ 0 → s.rd Reg.HIF_LINKSTAT_DLUP = 1 ∨ (s.pcr.perstN = true ∧ s.lanePasses 24 = true) →
    exec (.linkctlRetrain speed width) s = .next ((s.hostAccess Reg.HIF_LINKCTL_RETRAIN).pcieUp speed width).evFlush.settle) ∧
  (∀ (s : State) (a : Nat) (d : Bytes), s.fclk = true → s.dapOpen = true → d.length = 4 → (s.region (a % 2 ^ 40)).1 = 3 →
    (s.region (a % 2 ^ 40 + 3)).1 = 3 →
    exec (.debugAccessRequest a 4 (some d)) s = .next (s.regWrite 14 (s.region (a % 2 ^ 40)).2 false (leNat (d.take 4))).evFlush.settle) ∧
  (∀ s : State, s.rd Reg.HIF_LINKSTAT_DLUP = 1 →
    exec .pcieCorrectableError s = .next ((s.incSat Reg.HIF_AERCNT_CORR).ev (evHif 2)).evFlush.settle)

/-! ### Network, time and audio -/

/-- Frames in, losses, path and line timers, MAC changes and the second of the FEC rates. -/
def Obligations.NetworkInputCommandsComplete : Prop :=
  (∀ (s : State) (m : Fin 16) (t : Nat) (fr : Bytes) (w ch rate : Nat) (x : RxFrame), s.macUp m = true → s.fclk = true →
    64 ≤ fr.length → fr.length ≤ 9216 → crc32 (fr.take (fr.length - 4)) = fld fr (fr.length - 4) 4 → untag fr = some x →
    exec (.frameReceive m t fr w ch rate) s =
      .next ((((s.atU t).incWrap Reg.NET_RXFRAMES_COUNT 1 (m / 4) (m % 4)).incWrap Reg.NET_RXBYTES_COUNT fr.length (m / 4) (m % 4)).sortFrame
        m t fr x w ch rate).evFlush.settle) ∧
  (∀ (s : State) (m : Fin 16) (t : Nat) (fr : Bytes) (w ch rate : Nat), s.macUp m = true → s.fclk = true →
    fr.length < 64 ∨ 9216 < fr.length ∨ crc32 (fr.take (fr.length - 4)) ≠ fld fr (fr.length - 4) 4 →
    exec (.frameReceive m t fr w ch rate) s =
      .next ((((s.atU t).incWrap Reg.NET_RXFRAMES_COUNT 1 (m / 4) (m % 4)).incWrap Reg.NET_RXBYTES_COUNT fr.length (m / 4) (m % 4)).incWrap
        Reg.NET_FCSERR_COUNT 1 (m / 4) (m % 4)).evFlush.settle) ∧
  (∀ (s : State) (f : Fin 384) (ext : Nat) (x : InFlow), s.flowIn f = some x →
    let q := x.seqAt ext
    tget 0 x.due q ≠ 0 → tget 0 x.due q ≤ s.ns → (tget ({} : SeqSt) x.win q).a = false → (tget ({} : SeqSt) x.win q).b = false →
    (tget ({} : SeqSt) x.win q).rep = false → (tget ({} : SeqSt) x.win q).decl = false →
    let t := s.setFlowIn f (some { x with win := tset {} x.win q { tget ({} : SeqSt) x.win q with decl := true }, due := tdel x.due q })
    (s.role = 0 ∨ s.rd Reg.PAIR_PAIRSTAT_LINKUP = 0 → exec (.lossDeclare f ext) s = .next t.evFlush.settle) ∧
    (s.role ≠ 0 → s.rd Reg.PAIR_PAIRSTAT_LINKUP ≠ 0 → exec (.lossDeclare f ext) s = .next (
      let t := (t.linkSend 2 (.repairReq f (q % 2 ^ 32))).incSat Reg.PAIR_REPAIRREQ_COUNT
      t.setPair { t.pair with repairs := t.pair.repairs ++ [(f.val, q, t.ns)] }).evFlush.settle)) ∧
  (∀ (s : State) (f : Fin 384) (net : Fin 2) (x : InFlow), s.flowIn f = some x →
    let r := if net = 0 then Reg.INP_FLOWVIEW_UP_A else Reg.INP_FLOWVIEW_UP_B
    s.rd r f = 1 → tget 0 x.pathAt net + (match x.fmt with | some m => 2 * m.periodNs | none => 10000000) ≤ s.ns →
    exec (.flowPathDown f net) s = .next ((s.wr r 0 f).inpEv 2 f).evFlush.settle) ∧
  (∀ (s : State) (f : Fin 384) (x : InFlow) (m : FlowFmt), s.flowIn f = some x → x.fmt = some m → x.lines ≠ 0 →
    x.latchNs m (s.nextGroup x m).1 (s.nextGroup x m).2 ≤ s.ns →
    exec (.groupLatch f) s = .next (
      let g := s.nextGroup x m
      let h := max 1 x.hmin
      let r := latchLines (min h (height m.raster - g.2)) f m g.1 g.2 (s.setFlowIn f (some { x with latNext := some g }))
      let nxt := if height m.raster ≤ g.2 + h then (g.1 + 1, 0) else (g.1, g.2 + h)
      let t := match r.2.flowIn f with | some y => r.2.setFlowIn f (some { y with latNext := some nxt }) | none => r.2
      let t := if nxt.2 = 0 ∧ !t.cvuMs f then t.cvuEnd f else t
      if r.1 = 0 then t else (t.incSat Reg.INP_CONCEAL_LINES r.1 f).inpEvFrame 1 f).evFlush.settle) ∧
  (∀ (s : State) (m inv : Fin 16), s.macUsed m = true → s.macUp m = false →
    exec (.macLinkUp m inv) s = .next (
      let t := (List.range 4).foldl (fun (t : State) i =>
        if inv.val.testBit i && t.rd Reg.SDS_LCTL_RXINV_AUTO (m.val / 4 * 4 + i) = 1 then t.wr Reg.SDS_LSTAT_RXINV 1 (m.val / 4 * 4 + i) else t) s
      let t := ((t.portBit Reg.NET_LINKSTAT_UP m true).portBit Reg.NET_LINKSTAT_FECLOCK m true).ev (evNet (m / 4) 0)
      let t : State := { t with inp := { t.inp with query := tset false t.inp.query m false } }
      let t := t.copies.foldl (fun (t : State) c => if c.2 = netOf m ∧ t.rd (joinRow (netOf m)) c.1 = 15 then t.joinOn c.1 (netOf m) (t.joinPick (netOf m)) else t) t
      balanceFuel (t.copies.length + 1) (netOf m) m t).evFlush.settle) ∧
  (∀ (s : State) (m : Fin 16) (fec : Bool), s.macUp m = true → exec (.macLinkDown m fec) s = .next (
      let t := (((s.setArb m {}).portBit Reg.NET_LINKSTAT_UP m false).portBit Reg.NET_LINKSTAT_FECLOCK m fec).ev (evNet (m / 4) 1)
      t.copies.foldl (fun (t : State) c =>
        if c.2 = netOf m ∧ t.rd (joinRow (netOf m)) c.1 = m.val then
          match t.joinPick (netOf m) with
          | some k => t.joinMove c.1 (netOf m) k
          | none => (t.addJoins m false).joinOn c.1 (netOf m) none
        else t) t).evFlush.settle) ∧
  (∀ (s : State) (f : Fin 384) (net : Fin 2) (e : Nat × Nat × Nat × Nat) (x : InFlow),
    (s.inp.leaves.find? fun e => e.1 = f.val ∧ e.2.1 = net.val ∧ e.2.2.2 ≤ s.ns) = some e → s.flowIn f = some x →
    s.rd (joinRow net) f ≠ e.2.2.1 →
    exec (.joinLeave f net) s =
      .next (({ s with inp := { s.inp with leaves := s.inp.leaves.erase e } } : State).leaveOn f net e.2.2.1 x).evFlush.settle) ∧
  (∀ (s : State) (p : Fin 4) (a b c : List Nat), ∃ t : State, exec (.fecRateSecond p a b c) s = .next t ∧
    ∀ m : Fin 4, t.rd Reg.NET_FECCORR_COUNT p m = (s.rd Reg.NET_FECCORR_COUNT p m + b.getD m 0) % 2 ^ Reg.NET_FECCORR_COUNT.w ∧
      t.rd Reg.NET_FECUNCORR_COUNT p m = (s.rd Reg.NET_FECUNCORR_COUNT p m + c.getD m 0) % 2 ^ Reg.NET_FECUNCORR_COUNT.w)

/-- Launches, moves of flows and shaper changes. -/
def Obligations.NetworkOutputCommandsComplete : Prop :=
  (∀ (s : State) (sh : Fin 256) (t0 : Nat) (bad : List (Nat × Nat)) (f : QFrame) (rest : List QFrame) (p : Prog),
    (s.shp sh).queue = f :: rest → s.prog (sh / 4) = some p → f.e ≤ max t0 s.ns → s.chSt (sh / 4) ≠ 6 → s.fclk = true →
    let t := (s.at (max t0 s.ns)).txDue
    t.launches (sh / 2 % 2) f.base = false →
    exec (.frameLaunch sh t0 bad) s = .next (
      ((t.cvuItem (576 + sh) (p.rtpOf f ++ f.payload) none (some (p.seqNo f.seq))).released sh (max t0 s.ns) f).incWrap
        Reg.SHP_MACSTAT_SUPPRESS 1 0 (t.rd Reg.SHP_SHAPER_MAC 0 sh)).evFlush.settle) ∧
  (∀ (s : State) (sh : Fin 256) (t0 : Nat) (bad : List (Nat × Nat)) (f : QFrame) (rest : List QFrame) (p : Prog),
    (s.shp sh).queue = f :: rest → s.prog (sh / 4) = some p → f.e ≤ max t0 s.ns → s.chSt (sh / 4) ≠ 6 → s.fclk = true →
    let now := max t0 s.ns
    let t := (s.at now).txDue
    let m := t.rd Reg.SHP_SHAPER_MAC 0 sh
    let ws := t.windows m
    let need := t.dMac m + t.wireNs m f.k
    t.launches (sh / 2 % 2) f.base = true →
    (ws = [] ∨ winFits ws now need = true → winOver ws need = false ∨ ws = [] → exec (.frameLaunch sh t0 bad) s =
      .next ((t.released sh now f).sendFrame sh m now p f bad).evFlush.settle) ∧
    (ws ≠ [] → winFits ws now need = false → winOver ws need = false → exec (.frameLaunch sh t0 bad) s = .next (t.winHold sh m f).evFlush.settle) ∧
    (ws ≠ [] → winOver ws need = true → winOpened ws (max f.e (s.shp sh).lastRel) now = true → exec (.frameLaunch sh t0 bad) s =
      .next ((((t.incSat Reg.SHP_MACSTAT_WINOVER 1 0 m).ev (evPkt 1)).released sh now f).sendFrame sh m now p f bad).evFlush.settle)) ∧
  (∀ (s : State) (g : Fin 64) (net : Fin 2) (p : Prog), s.prog g = some p → p.nets.testBit net = true → s.admitted g = true →
    s.macUp (s.rd Reg.SHP_SHAPER_MAC 0 (shaperOf g net 0)) = false → s.macUp (s.pickMac 64 net) = true →
    exec (.flowMove g net) s = .next (((s.forEach p.streams fun t x =>
      t.wr Reg.SHP_SHAPER_MAC (s.pickMac 64 net) 0 (shaperOf g net x)).macCounts).ev (evPkt 2)).evFlush.settle) ∧
  (∀ (s : State) (sh : Fin 256) (b r bu o m : Nat) (auto : Bool) (rest : List (Nat × Nat × Nat × Nat × Nat × Bool)),
    (s.shp sh).applied ++ (s.shp sh).pend = (b, r, bu, o, m, auto) :: rest → b ≤ s.ns →
    exec (.shaperChangeApply sh) s = .next (
      let x := if (s.shp sh).applied = [] then (s.shp sh).due b else s.shp sh
      let t := s.setShp sh { x with applied := x.applied.drop 1 }
      let t := ((t.wr Reg.SHP_SHAPER_RATE r 0 sh).wr Reg.SHP_SHPVIEW_BURST bu sh).wr Reg.SHP_SHPVIEW_OVERHEAD o sh
      let t := ((t.wr Reg.SHP_SHAPER_RESET_MODE m 0 sh).wr Reg.SHP_SHAPER_AUTO (bit auto) 0 sh).macCounts
      if auto && s.rd Reg.SHP_SHAPER_AUTO 0 sh = 1 && s.rd Reg.SHP_SHAPER_RATE 0 sh = r then t else t.ev (evPkt 3)).evFlush.settle)

/-- Announce timeouts, delay requests, holdover and the pulses. -/
def Obligations.TimeCommandsComplete : Prop :=
  (∀ (s : State) (net : Fin 2) (m : Master), (s.inst net).master = some m → s.masterOk m = false →
    exec (.announceTimeout net) s = .next ((s.incSat Reg.TIM_INST_ANNTO 1 0 net).runBmca net).evFlush.settle) ∧
  (∀ (s : State) (net : Fin 2) (t0 : Nat), s.slaveMac net ≠ 15 → (s.inst net).best.isSome = true → (s.inst net).t12.isSome = true → s.fclk = true →
    exec (.delayReqSend net t0) s = .next (
      let m := s.slaveMac net
      let i := s.inst net
      let t := s.atU t0
      let t := t.setInst net { i with dreq := some (i.dseq, t.txStamp m t.time.now), dseq := (i.dseq + 1) % 65536 }
      (((t.emit (.frame m t.ns (t.delayReqFrame m net i.dseq))).incWrap Reg.NET_TXFRAMES_COUNT 1 (m / 4) (m % 4)).incWrap
        Reg.TIM_INST_DREQTX 1 0 net)).evFlush.settle) ∧
  (∀ s : State, s.rd Reg.TIM_TIMSTAT_SERVO = 3 → s.time.holdSaid = false → s.rd Reg.TIM_HOLDCTL_HOLD_MAX_S ≤ s.holdTime →
    exec .holdoverLimit s =
      .next (({ s with time := { s.time with holdSaid := true } }.wr Reg.TIM_HOLDTIME_S s.holdTime).ev (evTim 3)).evFlush.settle) ∧
  (∀ s : State, s.rd Reg.TIM_OUTCTL_PPS = 1 → 2 ≤ s.rd Reg.TIM_TIMSTAT_SERVO → s.fclk = true →
    ∃ t : State, exec .ppsOutEdge s = .next t ∧ t.out = .pulse .ppsOut ((s.sec + 1) * 1000000000) 100000000 :: s.out ∧ t.ns = (s.sec + 1) * 1000000000) ∧
  (∀ (s : State) (o : Fin 4),
    let n := s.rd Reg.TIM_OUTCH_FSCH / 2 ^ (8 * o.val) % 256
    (s.rd Reg.TIM_OUTCTL_FS).testBit o = true → n ≤ 63 → s.chSt n ≠ 0 → s.fclk = true →
    ∃ t : State, exec (.frameSyncOutEdge o) s = .next t ∧ ∃ at_ : Nat, t.out = .pulse (.frameSync o) at_ 10000 :: s.out ∧ t.ns = max s.ns at_) ∧
  (∀ (s : State) (t0 : Nat) (frac : Fin 65536), s.fclk = true → s.time.now ≤ t0 * 65536 + frac →
    (∀ p, s.time.ppsAt = some p → p + 1000 < t0) →
    ∃ t : State, exec (.ppsInEdge t0 frac) s = .next t ∧ t.rd Reg.TIM_CAPSEC_SEC = t0 / 1000000000 % 2 ^ Reg.TIM_CAPSEC_SEC.w ∧
      t.rd Reg.TIM_CAPNS_NS = t0 % 1000000000 % 2 ^ Reg.TIM_CAPNS_NS.w ∧ t.rd Reg.TIM_CAPFRAC_FRAC = frac.val ∧
      t.rd Reg.TIM_CAPCNT_COUNT = (s.rd Reg.TIM_CAPCNT_COUNT + 1) % 2 ^ Reg.TIM_CAPCNT_COUNT.w)

/-- Frames of the serial audio ports. -/
def Obligations.AudioPortCommandsComplete : Prop :=
  (∀ (s : State) (p : Fin 16), exec (.sapRollEnd p) s = .next (s.rollEnd p).evFlush.settle) ∧
  (∀ (s : State) (p : Fin 16) (sl sr : List Bool), (s.rollEnd p).apSt p ≠ 0 → (s.rollEnd p).apMaster p = true → (s.rollEnd p).fclk = true →
    exec (.sapFrameDrive p sl sr) s = .next (
      let t := s.rollEnd p
      let fs := t.apFs p
      let n := max (t.ns * fs / 1000000000) (match (t.audPort p).hi with | some h => h + 1 | none => 0)
      let n := if countNs fs n < t.ns then n + 1 else n
      let t := (((t.at (countNs fs n)).incWrap Reg.AUD_PORT_FRAMES_COUNT 1 0 p).cvuOpaque (880 + p) 1).apDrive p n
      let st := t.apSt p
      let t := if st = 2 then
          (let a := t.audPort p
           let t := if a.hi.isNone ∨ n < a.runFrom then t.setAudPort p { a with runFrom := n } else t
           t.capture p n (t.apSamples p (sl ++ sr)))
        else
          let t := if st = 1 then t.fillTo p (n + 1) else t
          (t.setAudPort p { t.audPort p with hi := some n }).rollFrame p
      (t.audSend p (n + 1)).rollEnd p).evFlush.settle) ∧
  (∀ (s : State) (p : Fin 16) (t0 bclks per : Nat) (sl sr : List Bool), s.apSt p ≠ 0 → s.apMaster p = false → s.fclk = true →
    bclks = 2 * (((s.at t0).rollEnd p).apFmt p).2 → 990000000 ≤ per * ((s.at t0).rollEnd p).apFs p →
    per * ((s.at t0).rollEnd p).apFs p ≤ 1010000000 →
    exec (.sapFrameReceive p t0 bclks per sl sr) s = .next (
      let t := (s.at t0).rollEnd p
      let fs := t.apFs p
      let n := (2 * t0 * fs + 1000000000) / 2000000000
      let t := (t.incWrap Reg.AUD_PORT_FRAMES_COUNT 1 0 p).wr Reg.AUD_PORT_PHASE_NS (toTwos 32 ((t0 : Int) - countNs fs n)) 0 p
      let t := ((t.setAudPort p { t.audPort p with lastAt := t0 }).cvuOpaque (880 + p) 1).apDrive p n
      let v := t.apSamples p (sl ++ sr)
      let st := t.apSt p
      let t := if st = 2 then t.runFrame p n t0 v
        else
          let t := if st = 3 then ((t.setAudPort p { t.audPort p with roll := 0 }).setApSt p 1).ev (evAud p 0) else t
          let t := if st = 4 then t else t.fillTo p (n + 1)
          (t.setAudPort p { t.audPort p with hi := some n }).rollFrame p
      (t.audSend p (n + 1)).rollEnd p).evFlush.settle) ∧
  (∀ (s : State) (p : Fin 16) (h : Nat), s.apSt p = 2 → s.apMaster p = false → 4000000000 ≤ (s.ns - (s.audPort p).lastAt) * s.apFs p →
    (s.audPort p).hi = some h →
    exec (.sapClockLoss p) s = .next (
      let t := (s.ramp p (h + 1)).setAudPort p { (s.ramp p (h + 1)).audPort p with filled := h + 1, wait := none }
      let t := ((t.incSat Reg.AUD_PORT_CLKLOSS_COUNT 1 0 p).setApSt p 3).ev (evAud p 0)
      (t.fillTo p (t.ns * s.apFs p / 1000000000 + 1)).audSend p (h + 1 + 64)).evFlush.settle) ∧
  (∀ (s : State) (v : Bool), s.fclk = true →
    exec (.audMclkctlOut v) s = .next (((s.hostAccess Reg.AUD_MCLKCTL_OUT).wr Reg.AUD_MCLKCTL_OUT (bit v)).emit (.pin .mclkOut v)).evFlush.settle)

/-! ### Serial lanes -/

/-- The states of a lane. -/
def Obligations.LaneStateCommandsComplete : Prop :=
  (∀ (s : State) (l : Fin 32), s.laneSt l = 1 → exec (.lanePllLock l) s = .next (s.laneTo l 2).evFlush.settle) ∧
  (∀ (s : State) (l : Fin 32), s.laneSt l = 1 → (s.lane l).since + 500000 ≤ s.ns → exec (.lanePllTimeout l) s = .next (s.laneTo l 6).evFlush.settle) ∧
  (∀ (s : State) (l : Fin 32) (inv : Bool), s.laneSt l = 2 →
    exec (.laneCdrLock l inv) s = .next (
      let t := (s.wr Reg.SDS_LSTAT_SIGDET 1 l).wr Reg.SDS_LSTAT_CDRLOCK 1 l
      (if 24 ≤ l.val ∧ inv ∧ t.rd Reg.SDS_LCTL_RXINV_AUTO l = 1 then t.wr Reg.SDS_LSTAT_RXINV 1 l else t).laneTo l 3).evFlush.settle) ∧
  (∀ (s : State) (l : Fin 32) (ws : List (Nat × Nat)) (dfe vga : Fin 256), s.laneSt l = 3 →
    exec (.laneAdaptEnd l ws dfe vga) s = .next (
      let fs := (ws.take 16).map fomOf
      let t := fs.foldl (fun (t : State) f => t.fomSeen l f) s
      let t := ((t.wr Reg.SDS_RXEQ_CTLE (bestStep fs).1 l).wr Reg.SDS_RXEQ_DFE1 dfe l).wr Reg.SDS_RXEQ_VGA vga l
      if t.rd Reg.SDS_FOMTHR_WARN l ≤ (bestStep fs).2 then t.laneTo l 4
      else if t.rd Reg.SDS_FOMTHR_FAIL l ≤ (bestStep fs).2 then t.laneTo l 5
      else (t.incSat Reg.SDS_COUNTS_ADAPTFAIL 1 l).laneTo l 2).evFlush.settle) ∧
  (∀ (s : State) (l : Fin 32) (w : Nat × Nat) (dfe : Fin 256), s.lanePasses l = true →
    exec (.fomWindow l w dfe) s = .next (
      let fom := fomOf w
      let t := (s.fomSeen l fom).wr Reg.SDS_RXEQ_DFE1 dfe l
      let x := t.lane l
      let warn := t.rd Reg.SDS_FOMTHR_WARN l
      let x := { x with low := if fom < warn then x.low + 1 else 0,
                        high := if warn + t.rd Reg.SDS_FOMTHR_HYST l ≤ fom then x.high + 1 else 0,
                        fail := if fom < t.rd Reg.SDS_FOMTHR_FAIL l then x.fail + 1 else 0 }
      let t := t.setLane l x
      if 4 ≤ x.fail then t.laneTo l 2
      else if t.laneSt l = 4 ∧ 16 ≤ x.low then t.laneTo l 5
      else if t.laneSt l = 5 ∧ 16 ≤ x.high then t.laneTo l 4
      else t).evFlush.settle) ∧
  (∀ (s : State) (l : Fin 32), s.lanePasses l = true ∨ s.laneSt l = 3 →
    exec (.laneSignalLoss l true) s = .next (
      (((if s.laneSt l = 3 then s.incSat Reg.SDS_COUNTS_ADAPTFAIL 1 l else s).incSat Reg.SDS_LOSS_CDRUNLOCK 1 l).laneTo l 2)).evFlush.settle) ∧
  (∀ (s : State) (l : Fin 32), s.lanePasses l = true ∨ s.laneSt l = 3 →
    exec (.laneSignalLoss l false) s = .next (
      (((if s.laneSt l = 3 then s.incSat Reg.SDS_COUNTS_ADAPTFAIL 1 l else s).incSat Reg.SDS_LOSS_LOS 1 l).laneTo l 2).wr
        Reg.SDS_LSTAT_SIGDET 0 l).evFlush.settle) ∧
  (∀ (s : State) (l : Fin 32), s.laneSt l = 6 → (s.lane l).faults ≤ 3 → (s.lane l).since + 10000000 ≤ s.ns →
    exec (.laneFaultRetry l) s = .next (s.laneTo l 1).evFlush.settle) ∧
  (∀ (s : State) (l : Fin 32) (ws : List (Nat × Nat)), s.lanePasses l = true → s.rd Reg.SDS_ADAPTCTL_BG l ≠ 0 → ws ≠ [] →
    max (s.lane l).since (s.lane l).trialAt + s.rd Reg.SDS_ADAPTCTL_INTERVAL_MS l * 1000000 ≤ s.ns →
    exec (.laneBackgroundTrial l ws) s = .next (
      let x := s.lane l
      let k := s.rd Reg.SDS_RXEQ_CTLE l
      let t := s.setLane l { x with down := !x.down, trialAt := s.ns }
      if (x.down ∧ k = 0) ∨ (!x.down ∧ k = 15) then t else
      let fs := ws.map fomOf
      let bad := fs.any fun f => decide (f < t.rd Reg.SDS_FOMTHR_WARN l)
      let t := fs.foldl (fun (t : State) f => t.fomSeen l f) t
      if !bad ∧ s.rd Reg.SDS_LSTAT_FOM l + t.rd Reg.SDS_FOMTHR_HYST l ≤ fs.getLastD 0 then
        t.wr Reg.SDS_RXEQ_CTLE (if x.down then k - 1 else k + 1) l else t).evFlush.settle) ∧
  (∀ (s : State) (l : Fin 32), s.laneSt l ≠ 0 →
    exec (.lctlRestart l) s = .next ((((s.hostAccess Reg.SDS_LCTL_RESTART l).setLane l { s.lane l with faults := 0 })).laneTo l 1).evFlush.settle)

/-- Superblocks, eye scans, injected errors and the reference clocks of the lanes. -/
def Obligations.LaneDataAndTestCommandsComplete : Prop :=
  (∀ (s : State) (l : Fin 32) (ui : Nat) (sb : Bytes) (lane typ cnt : Nat) (pl : Bytes), 16 ≤ l.val → l.val < 24 → s.lanePasses l = true →
    s.rd Reg.SDS_LSTAT_RXINV l = 0 → bitsVal ((bitsMsb (bytesAt sb 0 274)).take 16) = 0x6A9D →
    superblock (bitsMsb (bytesAt sb 0 274)) = (lane, typ, cnt, true, pl) → typ < 3 → ((s.lane l).good = 0 ∨ ui = (s.lane l).sbAt + 2192) →
    exec (.superblockReceive l ui sb) s = .next (
      let t := s.setLane l { s.lane l with payload := if typ = 0 then pl else [] }
      let x := t.lane l
      let t := t.setLane l { x with good := min 8 (x.good + 1), bad := 0, sbAt := ui }
      let t := (t.setLane l { t.lane l with align := (ui % laneWrap + laneWrap - 2192 * cnt) % laneWrap }).wr Reg.SDS_TYH_LANEID lane l
      (if 8 ≤ (t.lane l).good then t.wr Reg.SDS_TYH_SBLOCK 1 l else t).alignTry).evFlush.settle) ∧
  (∀ (s : State) (l : Fin 32),
    exec (.eyectlStart l) s = .next (((s.hostAccess Reg.SDS_EYECTL_START l).setLane l { s.lane l with scan := true }).wr Reg.SDS_EYECTL_DONE 0 l).evFlush.settle) ∧
  (∀ (s : State) (l : Fin 32) (count : Nat), (s.lane l).scan = true →
    exec (.eyeScanEnd l count) s = .next (((s.setLane l { s.lane l with scan := false }).wr Reg.SDS_EYECTL_DONE 1 l).wr
      Reg.SDS_EYERES_COUNT (min count (2 ^ 32 - 1)) l).evFlush.settle) ∧
  (∀ (s : State) (l : Fin 32), s.rd Reg.TST_LOCKSTAT_OPEN = 1 → s.rd Reg.SDS_INJCTL_MODE l = 1 → s.lanePasses l = true →
    exec (.injctlFire l) s = .next ((s.hostAccess Reg.SDS_INJCTL_FIRE l).injectLane l).evFlush.settle) ∧
  (∀ (s : State) (l : Fin 32), s.rd Reg.SDS_INJCTL_MODE l = 2 → s.lanePasses l = true →
    (∀ t0, (s.lane l).injAt = some t0 → t0 + s.injSpace l ≤ s.ns) →
    exec (.injectionPeriod l) s = .next ((s.setLane l { s.lane l with injAt := some s.ns }).injectLane l).evFlush.settle) ∧
  (∀ (s : State) (pair : Fin 4), exec (.serdesRefclkLoss pair) s = .next (
    ((({ s with pcr := { s.pcr with quadsOff := s.pcr.quadsOff ||| (3 * 4 ^ pair.val) } } : State).quadOff (2 * pair)).quadOff
      (2 * pair + 1))).evFlush.settle) ∧
  (∀ (s : State) (pair : Fin 4), s.pcr.quadsOff.testBit (2 * pair) = true → s.fclk = true → s.dev ≠ 0 ∨ s.pcr.stage = 2 →
    exec (.serdesRefclkReturn pair) s = .next (
      ((({ s with pcr := { s.pcr with quadsOff := s.pcr.quadsOff ^^^ (3 * 4 ^ pair.val) } } : State).quadOn (2 * pair)).quadOn
        (2 * pair + 1))).evFlush.settle)

/-! ### The pair -/

/-- Claims on the interlock, the join timer and the handover. -/
def Obligations.PairClaimCommandsComplete : Prop :=
  (∀ s : State, exec .partnerLockReleased s = .next (
      let t := if s.lockIn then (s.wr Reg.PAIR_PAIRSTAT_LOCKIN 0).ev (evPair 3) else s
      match t.pair.claim with
      | .contest a none => t.setPair { t.pair with claim := .contest a (some t.ns) }
      | _ => t.claimBegin).evFlush.settle) ∧
  (∀ (s : State) (t0 : Nat), s.pair.claim = .guard t0 → t0 + 10000 ≤ s.ns →
    exec (.claimGuardEnd false) s = .next ((s.wr Reg.PAIR_PAIRSTAT_LOCKIN 0).claimWon).evFlush.settle) ∧
  (∀ (s : State) (t0 : Nat), s.pair.claim = .guard t0 → t0 + 10000 ≤ s.ns → s.slot = 1 →
    exec (.claimGuardEnd true) s = .next ((s.wr Reg.PAIR_PAIRSTAT_LOCKIN 1).claimLost).evFlush.settle) ∧
  (∀ (s : State) (t0 : Nat), s.pair.claim = .guard t0 → t0 + 10000 ≤ s.ns → s.slot ≠ 1 →
    exec (.claimGuardEnd true) s =
      .next ((s.wr Reg.PAIR_PAIRSTAT_LOCKIN 1).setPair { s.pair with claim := .contest t0 none }).evFlush.settle) ∧
  (∀ (s : State) (t0 : Nat) (r : Option Nat), s.pair.claim = .contest t0 r → t0 + 50000 ≤ s.ns →
    exec .claimWaitTimeout s = .next s.claimLost.evFlush.settle) ∧
  (∀ s : State, s.pair.claim = .idle → s.mayClaim = true → s.lockIn = false → s.pair.backoff ≤ s.ns →
    exec .claimBackoffEnd s = .next (s.setPair { s.pair with claim := .wait s.ns }).evFlush.settle) ∧
  (∀ s : State, s.role = 1 → exec .claimConflict s = .next (
      let t := (s.wr Reg.PAIR_PAIRSTAT_LOCKIN 1).ev (evPair 5)
      if t.slot = 1 then t.mute 9 0 (t.ns + 100000) else t).evFlush.settle) ∧
  (∀ (s : State) (t0 : Nat), s.pair.joinBy = some t0 → s.role = 0 → t0 ≤ s.ns →
    exec .joinTimeout s = .next (s.claimStop.enableDone stTimeout).evFlush.settle) ∧
  (∀ (s : State) (t0 : Nat), s.pair.handAt = some t0 → t0 ≤ s.ns → s.pair.handKey ≠ 0 →
    exec .handoverClaimTimeout s = .next (
      ((((s.setPair { s.pair with handKey := 0, handAt := none, handBack := true }).ev (evPair 14)).complete s.pair.handKey stAborted 0x11).claimBegin)).evFlush.settle)

/-- Heartbeats on both paths. -/
def Obligations.HeartbeatCommandsComplete : Prop :=
  (∀ s : State, s.paired = true → s.fclk = true → s.dev ≠ 0 → s.pair.hbNext ≤ s.ns →
    exec .heartbeatSend s = .next (
      let t := s.linkSend 0 (.heartbeat s.heartbeat)
      let lvl := !t.pair.hbLevel
      let t := t.setPair { t.pair with hbSeq := (t.pair.hbSeq + 1) % 2 ^ 32, hbSent := t.ns, hbNext := t.ns + t.rd Reg.PAIR_HBCFG_PERIOD_US * 1000 }
      if t.hbSilent true || t.mgt.down then t else (t.setPair { t.pair with hbLevel := lvl }).emit (.pin .hbOut lvl)).evFlush.settle) ∧
  (∀ (s : State) (body : Bytes) (lock : Bool), s.rd Reg.PAIR_PAIRSTAT_LINKUP = 1 → s.fclk = true → s.dev ≠ 0 →
    exec (.heartbeatReceive body lock) s = .next (
      let t := (s.setPair { s.pair with hbLinkAt := s.ns }).hbAlive Reg.PAIR_PAIRSTAT_HBLINK
      let t := if lock then t.wr Reg.PAIR_PAIRSTAT_LOCKIN 1 else if t.lockIn then t.lockReleased else t
      let t := ((t.wr Reg.PAIR_PARTNER_PPV (fld body 8 4)).wr Reg.PAIR_PARTNER_FWVER (fld body 12 4)).wr Reg.PAIR_OCN_PARTNER (fld body 16 2)
      let t := t.viewChange fun t =>
        t.setPair { t.pair with pRole := fld body 0 1 % 4, pImage := decide (fld body 1 1 % 2 = 1), pUpd := (fld body 1 1).testBit 2, pSlot := fld body 2 1 % 2, pRev := fld body 3 1,
                                imageSending := t.pair.imageSending && fld body 1 1 % 2 = 0 && fld body 0 1 % 4 = 3, failed := t.pair.failed && !t.versionsMatch }
      if !t.paired ∨ t.pair.disabling then t else
      let t := if t.versionsMatch then t.setPair { t.pair with failed := false } else t.viewChange State.versionBad
      let t := if t.role = 0 ∧ !t.pair.failed then t.joinSees else t
      if t.pair.handKey ≠ 0 ∧ t.pair.pRole = 1 then
        ((t.setPair { t.pair with handKey := 0, handAt := none }).ev (evPair 14)).complete t.pair.handKey stOk
      else t).evFlush.settle) ∧
  (∀ (s : State) (line : Bool),
    let r := if line then Reg.PAIR_PAIRSTAT_HBLINE else Reg.PAIR_PAIRSTAT_HBLINK
    s.paired = true → s.rd r ≠ 0 → (if line then s.pair.hbLineAt else s.pair.hbLinkAt) + s.rd Reg.PAIR_HBTIMEOUT_US * 1000 ≤ s.ns →
    exec (.heartbeatPathSilent line) s = .next (
      let t := (s.wr r 0).incSat (if line then Reg.PAIR_HBSILENT_LINE else Reg.PAIR_HBSILENT_LINK)
      if !t.bothSilent then t.ev (evPair 1)
      else if !t.lockIn ∧ t.role ≠ 1 then t
      else
        let t := t.ev (evPair 2)
        let t := t.viewChange fun t => t.setPair { t.pair with pRole := 0, pImage := false, imageSending := false }
        if t.role = 2 then t.mute 8 0 (t.ns + 100000) else t).evFlush.settle) ∧
  (∀ s : State, s.rd Reg.PCR_DEVSTAT_PSTATE ≠ 0 → s.fclk = false ∨ s.pair.hbLineAt = 0 ∨ s.pair.hbLineAt + 1000 ≤ s.ns →
    exec .pairHbInEdge s = .next ((s.setPair { s.pair with hbLineAt := s.ns }).hbAlive Reg.PAIR_PAIRSTAT_HBLINE).evFlush.settle) ∧
  (∀ s : State, s.role = 1 → s.pair.hbSent + s.rd Reg.PAIR_HBTIMEOUT_US * 500 ≤ s.ns →
    exec .hbGeneratorWatchdog s = .next ((s.setPair { s.pair with aStop := true }).lockOut false).evFlush.settle)

/-- Frames of the link, their acknowledgement, and mirrored commands. -/
def Obligations.LinkCommandsComplete : Prop :=
  (∀ (s : State) (fr : Bytes), s.rd Reg.PAIR_PAIRSTAT_LINKUP = 1 → fr.length = 2048 → crc32c (fr.take 2044) = fld fr 2044 4 →
    fld fr 0 1 < 3 → fld fr 2 2 = tget 0 s.pair.rx (fld fr 0 1) →
    exec (.linkFrameReceive fr none) s = .next (
      let c := fld fr 0 1
      let seq := fld fr 2 2
      let t := if tget none s.pair.lastBad c = some (seq, fr.take 2044) then s.incSat Reg.CVU_CHKONLY_TYH else s
      let t := t.cvuItem (916 + c) fr none (some seq)
      let t := t.setPair { t.pair with rx := tset 0 t.pair.rx c ((seq + 1) % 65536) }
      ((t.takeAck 0 (fld fr 4 2)).takeAck 1 (fld fr 6 2)).takeAck 2 (fld fr 8 2)).evFlush.settle) ∧
  (∀ (s : State) (c : Fin 3) (e : Nat × Nat × Nat × LRec) (rest : List (Nat × Nat × Nat × LRec)), (s.tx c).unacked = e :: rest →
    e.2.2.1 + 4000 ≤ s.ns →
    exec (.linkRetransmit c) s = .next (
      let t := s.setTx c { s.tx c with unacked := (s.tx c).unacked.map fun e => (e.1, e.2.1, s.ns, e.2.2.2) }
      (s.tx c).unacked.foldl (fun (t : State) e => t.linkOut c e.1 e.2.2.2) t).evFlush.settle) ∧
  (∀ (s : State) (c : Fin 3) (e : Nat × Nat × Nat × LRec) (rest : List (Nat × Nat × Nat × LRec)), (s.tx c).unacked = e :: rest →
    e.2.1 + 150000 ≤ s.ns →
    exec (.linkGiveup c) s = .next (
      let t := s.setTx c { s.tx c with unacked := [], wait := [] }
      let r := if c = 0 then Reg.PAIR_LINKGIVEUP_HB else if c = 1 then Reg.PAIR_LINKGIVEUP_MIRROR else Reg.PAIR_LINKGIVEUP_DATA
      ((t.incSat r).linkOut 3 0 (.reset c (s.tx c).next)).ev (evPair 6)).evFlush.settle) ∧
  (∀ (s : State) (c : Fin 3), s.rd Reg.PAIR_PAIRSTAT_LINKUP = 1 → (s.tx c).unacked ≠ [] →
    exec .linkControlSend s = .next (s.linkOut 3 0 .ackOnly).evFlush.settle) ∧
  (∀ (s : State) (seq op : Nat) (h : Hdr) (p : Bytes) (st d r0 r1 : Nat), 2 ≤ s.role → seq < 65536 → seq = s.rd Reg.PAIR_MIRRORSEQ_RX →
    s.rd Reg.PAIR_PAIRSTAT_IMAGE = 1 → s.pair.heldMirrors = [] →
    exec (.mirrorReceive seq op h p st d r0 r1) s =
      .next ((s.wr Reg.PAIR_MIRRORSEQ_RX (seq + 1)).mirrorApply { seq := seq, op := op, h := h, p := p, status := st, detail := d, r0 := r0, r1 := r1 }).evFlush.settle)

/-- Check records, repairs, audio and rate-control records, resync and the image. -/
def Obligations.PairDataCommandsComplete : Prop :=
  (∀ (s : State) (body : Bytes), s.role ≠ 0 → exec (.checkRecordReceive body) s = .next (s.checkArrived (checkOf body)).evFlush.settle) ∧
  (∀ (s : State) (e : CheckRec × Nat × Nat), (s.pair.own.find? fun e => decide (e.2.2 ≤ s.ns)) = some e →
    exec .checkDeadline s = .next (
      let t := s.setPair { s.pair with own := s.pair.own.erase e }
      if t.role = 2 ∧ !t.lockIn then t else t.unitFailed e.1 e.2.1 3).evFlush.settle) ∧
  (∀ (s : State) (f : Fin 384) (ext : Nat) (e : Nat × Bytes × Bytes), s.role ≠ 0 → s.repairOf f ext = some e →
    exec (.repairReq f ext) s = .next (s.linkSend 2 (.repairAns f ext e.2.1 e.2.2)).evFlush.settle) ∧
  (∀ (s : State) (f : Fin 384) (ext : Nat), s.role ≠ 0 → s.repairOf f ext = none →
    exec (.repairReq f ext) s = .next (s.linkSend 2 (.repairAbsent f ext)).evFlush.settle) ∧
  (∀ (s : State) (f : Fin 384) (ext w ch rate : Nat) (hdr pl : Bytes) (e : Nat × Nat × Nat) (x : InFlow), s.repairAsked f ext = some e →
    let t := s.setPair { s.pair with repairs := s.pair.repairs.erase e }
    let n := e.2.1
    t.flowIn f = some x → t.ns ≤ e.2.2 + 500000 → (tget ({} : SeqSt) x.win n).a = false → (tget ({} : SeqSt) x.win n).b = false →
    (tget ({} : SeqSt) x.win n).rep = false → t.repairLatched f hdr pl = false →
    exec (.repairAns f ext hdr pl w ch rate) s = .next (
      let u := (t.setFlowIn f (some { x with win := tset {} x.win n { tget ({} : SeqSt) x.win n with rep := true } })).incSat
        Reg.PAIR_REPAIRANS_COUNT
      if x.kind = 0 then u.videoIn f 0 n (nfld hdr 4 4) hdr pl true
      else if x.kind = 1 then u.audioIn f 0 n (nfld hdr 4 4) w ch rate hdr pl true
      else u.ancIn f 0 n (nfld hdr 4 4) hdr pl true).evFlush.settle) ∧
  (∀ (s : State) (f : Fin 384) (ext : Nat),
    exec (.repairAbsent f ext) s =
      .next (s.setPair { s.pair with repairs := s.pair.repairs.filter fun e => !(e.1 = f.val && e.2.1 % 2 ^ 32 = ext % 2 ^ 32) }).evFlush.settle) ∧
  (∀ (s : State) (port : Fin 16) (first : Nat) (samples : List Int), 2 ≤ s.role →
    exec (.audioRecordReceive port first samples) s = .next (
      let new := (List.range 8).map fun i => (first + i, samples.getD (2 * i) 0, samples.getD (2 * i + 1) 0)
      let l := ((tget [] s.pair.portAudio port).filter fun e => !(decide (first ≤ e.1) && decide (e.1 < first + 8))) ++ new
      s.setPair { s.pair with portAudio := tset [] s.pair.portAudio port (l.reverse.take 8192).reverse }).evFlush.settle) ∧
  (∀ (s : State) (ch : Fin 64) (frame row cap qp : Nat) (floor : List Bool) (units : List Nat) (conv : Bool) (rc : Option RcSt),
    s.role = 3 ∨ (s.chan ch).follow = true →
    ((s.chan ch).rcWait = some (frame, row) → exec (.rcrecReceive ch frame row cap qp floor units conv rc) s =
      .next (((s.setChan ch { s.chan ch with rcWait := none }).takeRcrec ch frame row cap qp floor units rc).gateSlices ch frame row
        { cap, qp, forms := floor }).evFlush.settle) ∧
    ((s.chan ch).rcWait ≠ some (frame, row) → rowLt (frame, row) ((s.chan ch).nextFrame, (s.chan ch).nextRow) = false →
      exec (.rcrecReceive ch frame row cap qp floor units conv rc) s =
        .next (s.setPair { s.pair with rcrecs := s.pair.rcrecs ++ [.rcrec ch frame row cap qp floor units conv rc] }).evFlush.settle)) ∧
  (∀ (s : State) (mask : Nat), s.role = 1 →
    exec (.resyncReq false mask) s =
      .next (s.running.foldl (fun (t : State) n => if mask.testBit n then t.askSweep n true else t) s).evFlush.settle) ∧
  (∀ (s : State) (mask : Nat), s.role = 1 →
    exec (.resyncReq true mask) s = .next (
      let t := s.viewChange fun t => t.setPair { t.pair with imageSending := true, imageAt := some t.ns, asked := [] }
      t.linkSend 2 (.image t.imageOf)).evFlush.settle) ∧
  (∀ (s : State) (g : Image), s.role = 3 → s.pair.fullPend = true →
    ((List.range 64).any fun n => (s.dropContexts.withImage g).admitted n && ((s.dropContexts.withImage g).admitCheck n).isSome) = false →
    exec (.imageReceive g) s = .next (
      let t := (s.dropContexts.withImage g).forEach (List.range 64) fun t n =>
        let t := t.joinChan g.ts n
        if t.admitted n ∧ (t.prog n).isSome then (t.assignMacs n).launchShow n else t
      let r := (t.forEach (List.range 1024) State.descWrite).number g.devCommits
      let t := r.1.foldl State.handCommit r.2
      let t := (t.wr Reg.PAIR_PAIRSTAT_IMAGE 1).setPair { t.pair with fullPend := false }
      (((t.pageCounts).fbCounts).ev (evPair 12)).mirrorsHeld).evFlush.settle)

/-! ### DRAM, check values and events -/

/-- Refresh, training, scrubbing and line accesses. -/
def Obligations.DramCommandsComplete : Prop :=
  (∀ s : State, s.dramUp = true → s.fclk = true → s.rd Reg.SPD_SPDSTAT_WINDOW = 0 →
    exec .refreshDue s = .next (
      let t := s.at (cdiv s.dmc.due 16)
      let u : State := { t with dmc := { t.dmc with last := s.dmc.due } }
      (u.refresh 1 (max s.dmc.due u.dmc.payEnd)).nextDue t.refRate s.dmc.due).evFlush.settle) ∧
  (∀ (s : State) (readings : List (Nat × Nat)), s.dramUp = true → s.fclk = true →
    (∀ t, s.dmc.mr4At = some t → t + s.rd Reg.DMC_REFCFG_MR4_INT * 1000 ≤ s.ns) →
    exec (.mr4Poll readings) s =
      .next ((({ s with dmc := { s.dmc with mr4At := some s.ns } } : State).mr4Show readings).mr4Calm).mr4Apply.evFlush.settle) ∧
  (∀ s : State, s.dmc.clearAt + 32000000 ≤ s.ns → exec .guardTableClear s =
    .next (({ s with dmc := { s.dmc with clearAt := s.ns } } : State).allDmc fun t c => t.setDmcCh c { t.dmcCh c with guard := [] }).evFlush.settle) ∧
  (∀ (s : State) (line : Nat) (d : Bytes) (res : Fin 4), 64 * line < s.rd Reg.MTX_DRAMSIZE_BYTES → s.dramReady (s.dramPlace line).chan = true →
    s.dramHolds (s.dramPlace line).chan = false →
    exec (.dramAccess line (some d) false res) s = .next (
      ({ s with mem := { dramWrites s.mem (64 * line) (bytesAt d 0 64) with dramBad := tset 0 s.mem.dramBad line 0 } } : State).codeUse
        (s.dramPlace line)).evFlush.settle) ∧
  (∀ (s : State) (line : Nat) (w : Option Bytes) (act : Bool) (res : Fin 4), 64 * line < s.rd Reg.MTX_DRAMSIZE_BYTES →
    s.dramHolds (s.dramPlace line).chan = true →
    exec (.dramAccess line w act res) s = .next (s.stall (.dram line w act res)).evFlush.settle) ∧
  (∀ (s : State) (c : Fin 24) (slot : Nat), exec (.codeCacheWriteback c slot) s =
    .next (s.setDmcCh c { s.dmcCh c with code := (s.dmcCh c).code.filter (· ≠ slot) }).evFlush.settle) ∧
  (∀ (s : State) (c : Fin 24), s.dramReady c = true → tget 0 s.mem.dramBad ((s.dmcCh c).scrub * 24 + c) = 0 →
    (∀ t, (s.dmcCh c).scrubAt = some t → t + s.rd Reg.DMC_SCRUB_INTERVAL c * 1000000 / dclkKhz (s.rd Reg.DMC_CHSTAT_POINT c) ≤ s.ns) →
    exec (.dramScrubLine c 0) s = .next (
      let next := if s.rd Reg.MTX_DRAMSIZE_BYTES ≤ 64 * ((s.dmcCh c).scrub * 24 + c + 24) then 0 else (s.dmcCh c).scrub + 1
      let t := s.setDmcCh c { s.dmcCh c with scrub := next, scrubAt := some s.ns }
      if next = 0 then t.incWrap Reg.DMC_SCRUBPASS_COUNT 1 c else t).evFlush.settle) ∧
  (∀ (s : State) (pass : Nat) (t0 : Train), s.dmc.train = some t0 → t0.step ≠ 0 →
    exec (.trainingStepEnd pass) s = .next (
      let r := ((List.range 24).filter t0.live.testBit).foldl (fun (acc : Train × State) c => acc.2.trainedStep acc.1 c (pass.testBit c)) (t0, s)
      let t := (((List.range 24).filter r.1.live.testBit).foldl (fun (t : State) c => (t.wr Reg.DMC_CHSTAT_STATE 3 c).wr Reg.DMC_TRNCTL_STEP 0 c) r.2).serveStalled
      if t.dmc.points = [] then t.trainStep r.1 else
      let t := ({ t with dmc := { t.dmc with train := none } } : State).powerRefresh
      (t.complete r.1.key stAborted 0x30 r.1.good).switchBegin).evFlush.settle) ∧
  (∀ (s : State) (pt key : Nat) (rest : List (Nat × Nat)), s.dmc.points = (pt, key) :: rest → s.rd Reg.DMC_CHSTAT_STATE = 4 →
    exec .setPointSwitchEnd s = .next (
      let t : State := { s with dmc := { s.dmc with points := rest } }
      let t := t.allDmc fun t c => ((t.wr Reg.DMC_CHSTAT_STATE 3 c).wr Reg.DMC_CHSTAT_POINT pt c).dmcStatus c 5
      let t := (t.complete key stOk).serveStalled
      if rest ≠ [] then t.switchBegin else
      match t.dmc.train with
      | some x => t.trainStep x
      | none => t).evFlush.settle)

/-- Check value windows, the backlog and the records held in the AO domain. -/
def Obligations.CheckValueAndRecordCommandsComplete : Prop :=
  (∀ (s : State) (us : List (Nat × Nat)), s.fclk = true →
    exec (.cvuWindowClose us) s = .next (
      let r := us.foldl (fun (acc : List Nat × State) e =>
        (if (acc.2.cvuClose e.1 e.2).1 then acc.1 ++ [e.1] else acc.1, (acc.2.cvuClose e.1 e.2).2)) ([], s)
      r.2.forEach (List.range 32) fun t g =>
        let m := (r.1.filter fun u => u / 32 = g).foldl (fun m u => m ||| 2 ^ (u % 32)) 0
        if m = 0 then t else t.ev (evCvu g) 255 m).evFlush.settle) ∧
  (∀ (s : State) (us : List (Nat × Nat)), s.fclk = true →
    (exec (.cvuMismatchClear none us) s = .next
      (((s.hostAccess Reg.CVU_UNITVIEW_MISMATCH).wr Reg.CVU_UNITVIEW_MISMATCH 0 (s.rd Reg.CVU_UNITSEL_UNIT)).cvuCloses us).evFlush.settle) ∧
    ∀ b, exec (.cvuMismatchClear (some b) us) s = .next (((s.hostAccess Reg.CVU_GRPSUM_GROUPS).wr Reg.CVU_GRPSUM_GROUPS
      (s.rd Reg.CVU_GRPSUM_GROUPS ^^^ (s.rd Reg.CVU_GRPSUM_GROUPS &&& b))).cvuCloses us).evFlush.settle) ∧
  (∀ s : State, ∃ t : State, exec (.cvuMismatchClear none []) s = .next t ∧ t.rd Reg.CVU_UNITVIEW_MISMATCH (s.rd Reg.CVU_UNITSEL_UNIT) = 0) ∧
  (∀ s : State, s.fclk = true → exec .eventBacklogDrain s = .next s.drain.evFlush.settle) ∧
  (∀ s : State, s.fclk = true → exec .aoRecordFlush s = .next s.aoFlush.evFlush.settle)

/-! ### Power, reset, firmware and test -/

/-- Resets, rails and reference clocks. -/
def Obligations.ResetCommandsComplete : Prop :=
  (∀ s : State, exec .vddAoLoss s = .next s.powerLost.evFlush.settle) ∧
  (∀ (s : State) (nv : Option NonVol), s.rd Reg.PCR_DEVSTAT_PSTATE = 0 → s.pcr.refLost = false →
    exec (.powerOn nv) s =
      .next ((((s.setNv (nv.getD s.mgt.nv)).startReset true 0).wr Reg.PCR_DEVSTAT_PSTATE 0).setPower 1).evFlush.settle) ∧
  (∀ s : State, s.rd Reg.PCR_DEVSTAT_PSTATE ≠ 0 →
    exec .refclkLoss s = .next ({ s.powerLost with pcr := { s.powerLost.pcr with refLost := true } } : State).evFlush.settle) ∧
  (∀ s : State, s.pcr.refLost = true →
    exec .refclkReturn s = .next ((((({ s with pcr := { s.pcr with refLost := false } } : State).startReset true 0).wr
      Reg.PCR_DEVSTAT_PSTATE 0).setPower 1)).evFlush.settle) ∧
  (∀ s : State, s.aoOn = true → exec .sysResetN s = .next (s.startReset true 1).evFlush.settle) ∧
  (∀ (s : State) (b : BootInfo), s.aoOn = true → s.pcr.tripped = false → s.pcr.kind = 1 → s.pcr.stage = 0 →
    exec (.coldReset b) s = .next (
      let t := s.senseFuses.wr Reg.PAIR_PAIRSTAT_SLOT b.slot
      ({ t with pcr := { t.pcr with stage := 1, boot := some b } } : State).mainEn true).evFlush.settle) ∧
  (∀ (s : State) (b : BootInfo), s.aoOn = true → s.pcr.kind = 2 → s.pcr.stage = 0 → s.pcr.rails = true →
    exec (.warmReset b) s = .next (s.bootPll b).evFlush.settle) ∧
  (∀ s : State, s.pcr.kind = 1 → s.pcr.stage = 1 → s.pcr.en = true → exec .pwrMainGoodRise s = .next s.bootReady.evFlush.settle) ∧
  (∀ s : State, s.pcr.kind = 1 → s.pcr.stage = 1 → s.pcr.en = true → exec .pwrMainGoodTimeout s = .next s.pwrFail.evFlush.settle) ∧
  (∀ s : State, s.pcr.kind = 1 → s.pcr.stage = 1 → s.pcr.en = false → s.pcr.fails < 3 →
    exec .mainPowerRetry s = .next (s.mainEn true).evFlush.settle) ∧
  (∀ s : State, s.pcr.rails = true → exec .pwrMainGoodFall s = .next (s.startReset true 4).evFlush.settle) ∧
  (∀ s : State, s.dev = 0 → s.pcr.kind ≠ 0 → s.pcr.stage = 2 → s.rd Reg.CST_CSTSTAT_WIPING = 0 →
    exec .bootEnd s = .next s.endBoot.evFlush.settle) ∧
  (∀ (s : State) (temps : List Int), s.pcr.tripped = true → (List.range 8).all (fun i => decide (temps.getD i 0 < 950)) = true →
    exec (.tripRecovery temps) s = .next ((s.startReset true 4).alarm 6 true).evFlush.settle) ∧
  (∀ s : State, s.aoOn = true → exec (.rstctlWarm 0x5A5A) s = .next ((s.hostAccess Reg.PCR_RSTCTL_WARM).startReset false 5).evFlush.settle) ∧
  (∀ s : State, s.aoOn = true → exec (.rstctlCold 0x5A5A) s = .next ((s.hostAccess Reg.PCR_RSTCTL_COLD).startReset true 2).evFlush.settle) ∧
  (∀ (s : State) (key : Nat), key ≠ 0x5A5A →
    exec (.rstctlWarm key) s = .next (s.hostAccess Reg.PCR_RSTCTL_WARM).evFlush.settle ∧
    exec (.rstctlCold key) s = .next (s.hostAccess Reg.PCR_RSTCTL_COLD).evFlush.settle)

/-- Power states, wakes, PERST_N, monitors and the management core. -/
def Obligations.PowerCommandsComplete : Prop :=
  (∀ s : State, s.rd Reg.PCR_DEVSTAT_PSTATE = 2 → s.dev ≠ 0 → (List.range 64).all (fun n => [0, 1, 2, 5].contains (s.chSt n)) = true →
    exec .pwrctlAoreq s = .next (s.hostAccess Reg.PCR_PWRCTL_AOREQ).enterAo.evFlush.settle) ∧
  (∀ (s : State) (pin : Fin 32), s.rd Reg.PCR_PWRCTL_WAKEEN = 1 → s.rd Reg.PCR_PWRCTL_WAKEPIN = pin →
    exec (.wakePin pin) s = .next s.wakeUp.evFlush.settle) ∧
  (∀ s : State, s.aoOn = true → ∃ t : State, exec .perstNAssert s = .next t ∧ t.pcr.perstN = false) ∧
  (∀ s : State, s.aoOn = true →
    exec .perstNRise s = .next (({ s with pcr := { s.pcr with perstN := true } } : State).wakeUp.pcieTrain).evFlush.settle) ∧
  (∀ (s : State) (u : Fin 256), s.fclk = true → s.atTarget u = 0 → tget false s.pcr.gates u = true → u.val < 32 →
    exec (.clockGateClose u) s = .next (({ s with pcr := { s.pcr with gates := tset false s.pcr.gates u false } } : State).wr
      Reg.PCR_GATESTAT_ENGINES (s.rd Reg.PCR_GATESTAT_ENGINES ^^^ (s.rd Reg.PCR_GATESTAT_ENGINES &&& 2 ^ u.val))).evFlush.settle) ∧
  (∀ (s : State) (temps : Option (List Int)) (mv : List Nat) (mw : Nat), s.aoOn = true → 720 ≤ mv.getD 2 0 →
    exec (.monitorSample temps mv mw) s = .next (match temps with
      | some t => ((s.wr Reg.PCR_POWER_MW mw).supplySample mv).tempSample t
      | none => (s.wr Reg.PCR_POWER_MW mw).supplySample mv).evFlush.settle) ∧
  (∀ (s : State) (bits hw : Nat), s.aoOn = true → ∃ t : State, exec (.alarmlatClear bits hw) s = .next t ∧
    t.rd Reg.PCR_ALARMLAT_BITS =
      ((s.rd Reg.PCR_ALARMLAT_BITS ^^^ (s.rd Reg.PCR_ALARMLAT_BITS &&& bits)) ||| (hw &&& s.rd Reg.PCR_ALARM_BITS)) % 2 ^ Reg.PCR_ALARMLAT_BITS.w) ∧
  (∀ s : State, s.aoOn = true → s.dev ≠ 0 → (s.mgt.wdog.filter fun t => s.ns < t + 60000000000).length < 2 →
    ∃ t : State, exec .mgtWatchdogExpiry s = .next t ∧ t.mgt.down = true ∧
      t.mgt.wdog = (s.mgt.wdog.filter fun t => s.ns < t + 60000000000) ++ [s.ns]) ∧
  (∀ s : State, s.mgt.down = true →
    exec (.mgtCoreRestartDone true) s = .next ((({ s with mgt := { s.mgt with down := false } } : State).ev (evMgt 14))).evFlush.settle) ∧
  (∀ s : State, s.mgt.down = true → exec (.mgtCoreRestartDone false) s = .next (s.enterSafe 6 0).evFlush.settle) ∧
  (∀ (s : State) (up : Bool), s.aoOn = true → s.rd Reg.MGT_SVCSTAT_LINK ≠ bit up →
    exec (.serviceLinkChange up) s = .next ((s.wr Reg.MGT_SVCSTAT_LINK (bit up)).ev (evMgt 10)).evFlush.settle)

/-- Messages of the service port. -/
def Obligations.ServiceMessagesComplete : Prop :=
  (∀ (s : State) (snd seq : Nat), s.TakesMsg snd seq 1 →
    exec (.info snd seq) s = .next (let t := s.svcAccept snd seq
      t.svcReply snd seq 1 stOk 0 (t.updWord + (if t.mgt.nv.staged.st = 0 then 0 else t.mgt.nv.staged.version % 2 ^ 32) * 2 ^ 32)).evFlush.settle) ∧
  (∀ (s : State) (snd seq length version : Nat) (kind : Fin 3), s.TakesMsg snd seq 2 →
    exec (.begin snd seq length version kind) s = .next ((s.svcAccept snd seq).svcBegin snd seq length version kind).evFlush.settle) ∧
  (∀ (s : State) (snd seq index crc : Nat) (data : Bytes), s.TakesMsg snd seq 3 →
    exec (.block snd seq index crc data) s = .next ((s.svcAccept snd seq).svcBlock snd seq index crc data).evFlush.settle) ∧
  (∀ (s : State) (snd seq : Nat), s.TakesMsg snd seq 4 → (s.svcAccept snd seq).updSt = 2 →
    exec (.verify snd seq) s = .next (let t := s.svcAccept snd seq
      (t.putStaged { t.mgt.nv.staged with st := 3 }).svcReply snd seq 4 stAccepted 0).evFlush.settle) ∧
  (∀ (s : State) (snd seq req : Nat) (signed : Bool), s.TakesMsg snd seq 5 →
    exec (.activate snd seq req signed) s = .next ((s.svcAccept snd seq).svcActivate snd seq req signed).evFlush.settle) ∧
  (∀ (s : State) (snd seq : Nat), s.TakesMsg snd seq 6 → (s.svcAccept snd seq).canConfirm = true →
    exec (.confirm snd seq) s = .next (let t := s.svcAccept snd seq
      ({ t with mgt := { t.mgt with confirming := true, confMsgs := t.mgt.confMsgs ++ [(snd, seq)] } } : State)).evFlush.settle) ∧
  (∀ (s : State) (snd seq : Nat), s.TakesMsg snd seq 7 →
    exec (.abort snd seq) s = .next ((s.svcAccept snd seq).svcAbort.svcReply snd seq 7 stOk 0).evFlush.settle) ∧
  (∀ (s : State) (snd seq : Nat), s.TakesMsg snd seq 8 →
    exec (.reset snd seq 0) s = .next (((s.svcAccept snd seq).svcReply snd seq 8 stOk 0).startReset false 6).evFlush.settle) ∧
  (∀ (s : State) (snd seq : Nat), s.TakesMsg snd seq 8 →
    exec (.reset snd seq 1) s = .next (((s.svcAccept snd seq).svcReply snd seq 8 stOk 0).startReset true 3).evFlush.settle) ∧
  (∀ (s : State) (snd seq : Nat), s.TakesMsg snd seq 9 →
    exec (.wake snd seq) s = .next ((s.svcAccept snd seq).svcReply snd seq 9 stOk 0).wakeUp.evFlush.settle) ∧
  (∀ (s : State) (snd seq item mask value : Nat), s.TakesMsg snd seq 10 →
    exec (.set snd seq item mask value) s = .next ((s.svcAccept snd seq).svcSet snd seq item mask value).evFlush.settle) ∧
  (∀ (s : State) (snd seq typ : Nat), typ < 256 → typ = 0 ∨ 10 < typ → s.TakesMsg snd seq typ →
    exec (.reservedServiceMessage snd seq typ) s = .next ((s.svcAccept snd seq).svcReply snd seq typ stUnsupported 1).evFlush.settle)

/-- The rest of an update: flash, verification and confirmation. -/
def Obligations.UpdateProgressCommandsComplete : Prop :=
  (∀ (s : State) (index a b c : Nat) (d : Bytes), (s.mgt.prog.find? fun e => e.1 = index) = some (a, b, c, d) →
    s.mgt.nv.staged.st = 1 → s.mgt.down = false →
    exec (.flashBlockProgrammed index) s = .next (s.programmed index d).evFlush.settle) ∧
  (∀ (s : State) (off len : Nat) (done : List (Nat × Nat)), s.mgt.erase = some done → s.mgt.down = false →
    exec (.stagingEraseDone off len) s = .next (s.erased off (min len (0x3000000 - off)) done).evFlush.settle) ∧
  (∀ (s : State) (ok : Fin 16), s.mgt.down = false → s.updSt = 3 → exec (.verifyEnd ok) s = .next (s.verifyEnd ok).evFlush.settle) ∧
  (∀ s : State, s.mgt.confirming = true → s.mgt.down = false → s.mgt.nv.slots.trial = true →
    exec .confirmationWriteDone s = .next s.confirmed.evFlush.settle) ∧
  (∀ (s : State) (snd seq t : Nat), s.mgt.down = false → s.mgt.beginWait = some (snd, seq, t) →
    t + 2000 * s.rd Reg.PAIR_HBCFG_PERIOD_US ≤ s.ns →
    ¬(s.mgt.upd = true ∧ s.rd Reg.PAIR_PAIRSTAT_LINKUP = 1 ∧ s.pair.pUpd = true ∧ s.rd Reg.PAIR_PAIRSTAT_SLOT = 1) →
    exec .beginPairWaitEnd s =
      .next (({ s with mgt := { s.mgt with beginWait := none } } : State).svcReply snd seq 2 stOk 0).evFlush.settle)

/-- The test block: what each command does while the lock is open, and the store's back-pressure. -/
def Obligations.TestCommandsComplete : Prop :=
  (∀ (s : State) (key : Nat), s.fclk = true → s.tstDeny key = none → s.rd Reg.TST_LOCKSTAT_OPEN = 0 →
    exec (.tstLockWrite key true) s = .next (((((s.hostAccess Reg.TST_LOCK_OPEN).wr Reg.TST_LOCKSTAT_OPEN 1).wr Reg.TST_LOCK_OPEN 1).tstShow).ev
      (evTst 0)).evFlush.settle) ∧
  (∀ (s : State) (key : Nat), s.fclk = true → exec (.tstLockWrite key false) s = .next (s.hostAccess Reg.TST_LOCK_OPEN).tstClose.evFlush.settle) ∧
  (∀ s : State, s.tstOn = true → exec .refctlApply s = .next (
    let u := s.hostAccess Reg.TST_REFCTL_APPLY
    { u with dmc := { u.dmc with skew := some (ofTwos 32 (s.rd Reg.TST_REFSKEW_NS), s.dmc.due) } } : State).tstShow.evFlush.settle) ∧
  (∀ s : State, s.tstOn = true → exec .timectlFire s =
    .next (((s.hostAccess Reg.TST_TIMECTL_FIRE).timeStep (ofTwos 32 (s.rd Reg.TST_TIMESTEP_NS) * 65536)).ev (evTst 3)).evFlush.settle) ∧
  (∀ s : State, s.tstOn = true → s.rd Reg.TST_CHKINJ_KIND ≠ 0 → exec .chkinjFire s = .next (
    let u := s.hostAccess Reg.TST_CHKINJ_FIRE
    { u with tst := { u.tst with inj := (s.rd Reg.TST_CHKINJ_KIND, s.rd Reg.TST_CHKINJ_TARGET, s.rd Reg.TST_CHKINJ_COUNT) } } : State).tstShow.evFlush.settle) ∧
  (∀ (s : State) (link line : Bool) (ms : Nat), s.tstOn = true →
    exec (.hbsuppWrite link line ms) s = .next (
      let t := (((s.hostAccess Reg.TST_HBSUPP_MS).wr Reg.TST_HBSUPP_LINK (bit link)).wr Reg.TST_HBSUPP_LINE (bit line)).wr Reg.TST_HBSUPP_MS ms
      ({ t with tst := { t.tst with hbUntil := if t.rd Reg.TST_HBSUPP_MS = 0 then none else some (t.ns + t.rd Reg.TST_HBSUPP_MS * 1000000) } } : State).tstShow).evFlush.settle) ∧
  (∀ (s : State) (t0 : Nat), s.tst.hbUntil = some t0 →
    exec .hbsuppExpiry s = .next ({ s.at t0 with tst := { s.tst with hbUntil := none } } : State).tstShow.evFlush.settle) ∧
  (∀ (s : State) (late : Nat), s.tstOn = true → s.rd Reg.TST_BPINJ_EN ≠ 0 → s.rd Reg.TST_BPTIME_ON ≠ 0 →
    s.rd Reg.CST_PORT_CLASS 0 (s.rd Reg.TST_BPINJ_PORT) ≠ 1 →
    exec (.backpressurePeriod late) s = .next (s.forEach (List.range late) fun t _ =>
      (t.incSat Reg.CST_PORT_LATE 1 0 (s.rd Reg.TST_BPINJ_PORT)).ev (evCst 4)).evFlush.settle)

/-! ### Rules of the spec -/

/-- R443: an occurrence of a source sets its status bit and adds one to its counter, whatever the mask; a masked one posts
no record and sends no route message when the command's events are processed, and processing changes neither status bits nor
counters; the reserved bits of word 21 stay as they are. -/
def Obligations.EventOccurrencesSetStatusAndCount : Prop :=
  (∀ (s : State) (src ch detail aux : Nat), src < 692 →
    let t := s.ev src ch detail aux
    (t.rd Reg.EVT_STAT_BITS 0 (src / 32) = s.rd Reg.EVT_STAT_BITS 0 (src / 32) % 2 ^ 32 ||| 2 ^ (src % 32)) ∧
    (∀ w, w < 22 → w ≠ src / 32 → t.rd Reg.EVT_STAT_BITS 0 w = s.rd Reg.EVT_STAT_BITS 0 w) ∧
    (tget 0 t.evt.occ src = min (tget 0 s.evt.occ src + 1) (2 ^ 32 - 1)) ∧
    (∀ x, x ≠ src → tget 0 t.evt.occ x = tget 0 s.evt.occ x) ∧
    (s.evt.burst = [] → (s.rd Reg.EVT_MASK_BITS 0 (src / 32)).testBit (src % 32) = true →
      t.evFlush.out = s.out ∧ t.evFlush.evt.backlog = s.evt.backlog ∧ t.evFlush.evt.ao = s.evt.ao ∧ t.evFlush.evt.lastMsg = s.evt.lastMsg ∧
      t.evFlush.rd Reg.EVT_LASTSRC_SRC = src) ∧
    (s.rd Reg.EVT_STAT_BITS 0 21 < 2 ^ 20 → t.rd Reg.EVT_STAT_BITS 0 21 < 2 ^ 20)) ∧
  (∀ (s : State) (w : Nat), s.evFlush.evt.occ = s.evt.occ ∧ s.evFlush.rd Reg.EVT_STAT_BITS 0 w = s.rd Reg.EVT_STAT_BITS 0 w)

/-- R444, R445 on the registers: a write of ones clears status bits but for those whose source occurs in its cycle; OCCCLR clears
the selected counter, which then reads 1 where its source occurs in the cycle of the write. Where no source occurs, nothing
else changes. Each of them completes in every state and for all operands, with the next state written out. -/
def Obligations.EventClearsLetTheSetWin : Prop :=
  (∀ (s : State) (w : Fin 22) (bits : Nat) (hw : List (Nat × Nat × Nat × Nat)), ∃ t : State, exec (.evtStatClear w bits hw) s = .next t ∧
    (∀ b, b < 32 → (t.rd Reg.EVT_STAT_BITS 0 w).testBit b =
      ((hw.any fun e => evNamed e.1 && e.1 = 32 * w.val + b) || ((s.rd Reg.EVT_STAT_BITS 0 w).testBit b && !bits.testBit b))) ∧
    (∀ v : Fin 22, v ≠ w → t.rd Reg.EVT_STAT_BITS 0 v = s.rd Reg.EVT_STAT_BITS 0 v) ∧
    (hw = [] → s.evt.burst = [] → t.evt = s.evt ∧ t.out = s.out)) ∧
  (∀ (s : State) (occ : Option (Nat × Nat × Nat)), s.rd Reg.EVT_OCCSEL_SRC ≤ 691 → ∃ t : State, exec (.occclr occ) s = .next t ∧
    (tget 0 t.evt.occ (s.rd Reg.EVT_OCCSEL_SRC) = bit (occ.isSome && evNamed (s.rd Reg.EVT_OCCSEL_SRC))) ∧
    (∀ x, x ≠ s.rd Reg.EVT_OCCSEL_SRC → tget 0 t.evt.occ x = tget 0 s.evt.occ x) ∧
    (occ = none → (∀ x : Fin 22, t.rd Reg.EVT_STAT_BITS 0 x = s.rd Reg.EVT_STAT_BITS 0 x) ∧ (s.evt.burst = [] → t.out = s.out))) ∧
  (∀ (s : State) (w : Fin 22) (bits : Nat) (hw : List (Nat × Nat × Nat × Nat)),
    exec (.evtStatClear w bits hw) s = .next (
      let u := s.hostAccess Reg.EVT_STAT_BITS 0 w
      (u.wr Reg.EVT_STAT_BITS (s.rd Reg.EVT_STAT_BITS 0 w ^^^ (s.rd Reg.EVT_STAT_BITS 0 w &&& bits)) 0 w).evAll
        (hw.filter fun e => e.1 / 32 = w.val)).evFlush.settle) ∧
  (∀ s : State, exec (.occclr none) s = .next (s.hostAccess Reg.EVT_OCCCLR_CLEAR).occClear.evFlush.settle) ∧
  (∀ (s : State) (c d a : Nat), exec (.occclr (some (c, d, a))) s =
    .next (((s.hostAccess Reg.EVT_OCCCLR_CLEAR).occClear.evAll [(s.rd Reg.EVT_OCCSEL_SRC, c, d, a)])).evFlush.settle)

/-- R493: an opening write opens the lock exactly with the key, in LC_FACTORY, LC_PROVISIONED or LC_RETURNED, with the
on-air lock open, in DEV_READY or DEV_TRIAL; any other leaves the lock as it is, records a reason and is counted. -/
def Obligations.TestLockOpensOnlyUnderItsConditions : Prop :=
  ∀ (s : State) (key : Nat), s.fclk = true → key < 2 ^ 16 →
    let may := key = 0x7E57 ∧ s.rd Reg.PCR_LCSTAT_STATE ≠ 2 ∧ s.rd Reg.PCR_LCSTAT_ON_AIR_LOCK ≠ 1 ∧ (s.dev = 1 ∨ s.dev = 3)
    ∃ t : State, exec (.tstLockWrite key true) s = .next t ∧
      (may → t.rd Reg.TST_LOCKSTAT_OPEN = 1) ∧
      (¬may → t.rd Reg.TST_LOCKSTAT_OPEN = s.rd Reg.TST_LOCKSTAT_OPEN ∧ t.rd Reg.TST_LOCKSTAT_REASON ≠ 0 ∧
        t.rd Reg.TST_LOCKSTAT_DENIED = min (s.rd Reg.TST_LOCKSTAT_DENIED + 1) (2 ^ Reg.TST_LOCKSTAT_DENIED.w - 1) ∧
        tget 0 t.evt.occ (evTst 2) = min (tget 0 s.evt.occ (evTst 2) + 1) (2 ^ 32 - 1))

/-- R202: a host write through BAR2 reaches the lines of HOST pages, and those of the emergency partition while its lock is
open; every other byte of the store and of DRAM keeps its value, and a request with a refused line is counted once. One that the
memory holds off (R201, R399) waits and changes no byte. -/
def Obligations.HostWritesReachOnlyTheirPages : Prop :=
  ∀ (s : State) (off : Nat) (data : Bytes), s.dev ≠ 0 →
    (s.memHolds off data.length = false → ∃ t : State, exec (.bar2Write off data) s = .next t ∧
      (∀ a, (∀ e ∈ linePieces (data.length + 1) (off % 2 ^ 30) data, s.bar2Verdict (s.bar2Addr e.1) = 0 →
          ¬(s.bar2Addr e.1 ≤ a ∧ a < s.bar2Addr e.1 + e.2.length)) → t.byte a = s.byte a) ∧
      (t.rd Reg.CST_BAR2DENY_COUNT = if (linePieces (data.length + 1) (off % 2 ^ 30) data).any (fun e => s.bar2Verdict (s.bar2Addr e.1) = 1)
        then min (s.rd Reg.CST_BAR2DENY_COUNT + 1) (2 ^ Reg.CST_BAR2DENY_COUNT.w - 1) else s.rd Reg.CST_BAR2DENY_COUNT)) ∧
    (s.memHolds off data.length = true → ∃ t : State, exec (.bar2Write off data) s = .next t ∧
      (∀ a, t.byte a = s.byte a) ∧ t.rd Reg.CST_BAR2DENY_COUNT = s.rd Reg.CST_BAR2DENY_COUNT ∧ t.stalled = s.stalled ++ [.write off data])

/-- R232: a doorbell of a queue that does not exist, a tail of a queue that is being deleted, a value not below the ring size
and a tail that would overfill the ring are discarded and counted; a tail equal to the present one has no effect. -/
def Obligations.BadDoorbellsAreDiscarded : Prop :=
  (∀ (s : State) (q v : Nat), s.dev ≠ 0 → q ≤ 66 → v < 2 ^ 32 →
    (s.qExists q = false ∨ (s.que q).deleting.isSome = true ∨ (if q = 66 then 0 else 2 ^ (s.que q).sqlog2) ≤ v) →
    exec (.submissionTailDoorbell q v) s = .next (((s.incSat Reg.HIF_ERRCNT_DOORBELL).ev (evHif 4)).evFlush.settle)) ∧
  (∀ (s : State) (q v : Nat), s.dev ≠ 0 → q ≤ 66 → v < 2 ^ 32 → (s.qExists q = false ∨ 2 ^ (s.que q).cqlog2 ≤ v) →
    exec (.completionHeadDoorbell q v) s = .next (((s.incSat Reg.HIF_ERRCNT_DOORBELL).ev (evHif 4)).evFlush.settle)) ∧
  (∀ (s : State) (q v : Nat), s.dev ≠ 0 → q < 66 → v < 2 ^ 32 → s.qExists q = true → (s.que q).deleting = none →
    v < 2 ^ (s.que q).sqlog2 → v = s.rd Reg.HIF_QSTAT_TAIL 0 q → exec (.submissionTailDoorbell q v) s = .next s.evFlush.settle) ∧
  (∀ (s : State) (q v : Nat), s.dev ≠ 0 → q < 66 → v < 2 ^ 32 → s.qExists q = true → (s.que q).deleting = none →
    v < 2 ^ (s.que q).sqlog2 →
    let size := 2 ^ (s.que q).sqlog2
    let adv := (v + size - s.rd Reg.HIF_QSTAT_TAIL 0 q) % size
    adv ≠ 0 → size - 1 < (s.rd Reg.HIF_QSTAT_TAIL 0 q + size - s.rd Reg.HIF_QSTAT_HEAD 0 q) % size + adv →
    exec (.submissionTailDoorbell q v) s = .next (((s.incSat Reg.HIF_ERRCNT_DOORBELL).ev (evHif 4)).evFlush.settle))

/-- R195: the end of a page's zero-fill leaves every byte of the page zero and the page free, and no other byte changed. -/
def Obligations.WipedPagesReadZero : Prop :=
  ∀ (s : State) (page : Fin 131072), (s.page page).owner = 6 →
    (s.cst.frees.any fun e => e.2.1.contains page.val && !s.blitsDone e.2.2) = false →
    ∃ t : State, exec (.pageWipeDone page) s = .next t ∧ t.page page = pageDefault page ∧
      (∀ o, 4096 * page.val ≤ o → o < 4096 * page.val + 4096 → csRead t.mem o = 0) ∧
      (∀ o, o < 4096 * page.val ∨ 4096 * page.val + 4096 ≤ o → csRead t.mem o = csRead s.mem o) ∧
      t.mem.dram = s.mem.dram ∧ t.mem.flash = s.mem.flash ∧ t.mem.sram = s.mem.sram

/-- R201: when the wipe of the store ends, every byte of it reads zero, every line's codes are good, every shared page is free, READY
is set and WIPING is clear; the requests that waited are served in that state. -/
def Obligations.StoreWipeLeavesZeroes : Prop :=
  ∀ s : State, s.rd Reg.CST_CSTSTAT_WIPING = 1 → ∃ u : State, exec .csWipeDone s = .next u.serveStalled.evFlush.settle ∧
    u.stalled = s.stalled ∧ (∀ o, csRead u.mem o = 0) ∧ (∀ l, u.csBad l = false) ∧ u.rd Reg.CST_CSTSTAT_READY = 1 ∧
    u.rd Reg.CST_CSTSTAT_WIPING = 0 ∧ (∀ p, u.page p = pageDefault p) ∧ u.mem.dram = s.mem.dram ∧ u.mem.flash = s.mem.flash ∧
    (s.stalled = [] → u.serveStalled.evFlush.settle.mem = u.mem)

/-- R115: the QP of a row never falls below TARGET_QP and never rises above QP_MAX, and its cap is at least its floor. -/
def Obligations.RateStepKeepsItsBounds : Prop :=
  ∀ (st : RcSt) (c : Chan) (slack frame row pfx : Nat) (allIntra : Bool) (ref0 : Option Nat),
    let r := st.plan c slack frame row pfx allIntra ref0
    r.1.set = st.set ∧
    (st.set.tq ≤ st.set.qmax → st.set.tq ≤ r.2.qp ∧ r.2.qp ≤ st.set.qmax) ∧
    floorRow c.coding.codec (sliceCols c.raster) r.2.forms ≤ r.2.cap ∧
    r.2.forms.length = c.cols ∧ r.1.lastQp = r.2.qp ∧ r.1.lastCap = r.2.cap

/-- R120, R121: a sweep refreshes every unit in exactly one of its pictures, in no other picture, and takes no more pictures
than the period. -/
def Obligations.SweepRefreshesEveryUnitOnce : Prop :=
  ∀ (st : RcSt) (rows cols frame : Nat) (w : Sweep), 0 < st.set.period → 0 < rows → 0 < cols →
    (st.sweepBegin rows cols frame).newest = some w →
    w.len ≤ st.set.period ∧
    (∀ u, u < (if st.set.mode = 1 then rows else cols) →
      ∃ f, frame ≤ f ∧ f < frame + w.len ∧ (if w.rowMode then 2 * u + 1 else 2 * u) ∈ w.unitsIn f ∧
        ∀ g, frame ≤ g → (if w.rowMode then 2 * u + 1 else 2 * u) ∈ w.unitsIn g → g = f) ∧
    (∀ g, frame + w.len ≤ g → w.unitsIn g = [])

/-- R239: the commits of one command get consecutive numbers of their channel's flow, in order. -/
def Obligations.CommitsAreNumberedInOrder : Prop :=
  ∀ (s : State) (n : Nat) (cs : List Commit), (∀ c ∈ cs, c.ch = n) →
    let f := if n < 64 then 0x100 + n else 0x140
    let r := s.number cs
    r.1.map (·.fseq) = (List.range cs.length).map ((s.flow f).next + ·) ∧ r.1.map (·.kind) = cs.map (·.kind) ∧
    (r.2.flow f).next = (s.flow f).next + cs.length ∧ ∀ g, g ≠ f → r.2.flow g = s.flow g

/-- R240, R446: the bytes of a completion entry and of an event record. -/
def Obligations.EntriesHaveTheirLayout : Prop :=
  (∀ tag status st fl detail hd op r0 r1 : Nat,
    let e := entryBytes tag status st fl detail hd op r0 r1
    e.length = 32 ∧ fld e 0 2 = tag % 2 ^ 16 ∧ fld e 2 2 = status % 2 ^ 16 ∧ fld e 4 1 = st % 2 ^ 8 ∧ fld e 5 1 = fl % 2 ^ 8 ∧
    fld e 6 2 = detail % 2 ^ 16 ∧ fld e 8 2 = hd % 2 ^ 16 ∧ fld e 10 2 = op % 2 ^ 16 ∧ fld e 12 4 = 0 ∧ fld e 16 8 = r0 % 2 ^ 64 ∧
    fld e 24 8 = r1 % 2 ^ 64) ∧
  (∀ (r : Rec) (fl : Nat),
    let e := recBytes r fl
    e.length = 32 ∧ fld e 0 2 = r.src % 2 ^ 16 ∧ fld e 2 1 = fl % 2 ^ 8 ∧ fld e 3 1 = r.channel % 2 ^ 8 ∧ fld e 4 4 = r.detail % 2 ^ 32 ∧
    fld e 8 8 = r.ns / 1000000000 % 2 ^ 64 ∧ fld e 16 4 = r.ns % 1000000000 % 2 ^ 32 ∧ fld e 20 4 = r.occ % 2 ^ 32 ∧ fld e 24 8 = r.aux % 2 ^ 64)

/-- R241: replies leave a queue in submission order: posting takes entries off the front of the waiting list and leaves
the rest in order. -/
def Obligations.RepliesLeaveInOrder : Prop :=
  ∀ (s : State) (q : Nat), ∃ n, ((s.post q).que q).replies = (s.que q).replies.drop n

/-- A byte stored at an internal address of the store or of DRAM is read back, every other byte is as before, the memories
keep their canonical form and no register changes. -/
def Obligations.StoredBytesReadBack : Prop :=
  ∀ (s : State) (a : Nat) (p : Bytes),
    (∀ i, i < p.length → (s.space (a + i)).1 ≠ 2) →
    (∀ i, i < p.length → (s.setBytes a p).byte (a + i) = p.getD i 0) ∧
    (∀ x, x < a ∨ a + p.length ≤ x → (s.setBytes a p).byte x = s.byte x) ∧
    (s.MemWf → (s.setBytes a p).MemWf) ∧ (s.setBytes a p).regs = s.regs ∧ (s.setBytes a p).mem.flash = s.mem.flash

/-- A register field reads what was written to it, cut to its width, and a write leaves every other field and every other
instance as it was. -/
def Obligations.RegisterWritesReachOneField : Prop :=
  ∀ (s : State) (r r' : Row) (v i j i' j' : Nat), i < 4096 → j < 4096 → i' < 4096 → j' < 4096 →
    (s.wr r v i j).rd r i j = v % 2 ^ r.w ∧
    ((r'.id, i', j') ≠ (r.id, i, j) → (s.wr r v i j).rd r' i' j' = s.rd r' i' j')

/-- R418: an error response is counted; it is recorded while VALID is 0, and leaves the record alone while VALID is 1. -/
def Obligations.ErrorResponsesAreRecordedOnce : Prop :=
  ∀ (s : State) (m : Fin 15) (a : Nat) (w : Bool), s.fclk = true →
    ∃ t : State, exec (.lockSequenceBreak m a w) s = .next t ∧ t.rd Reg.MTX_ERRSTAT_VALID = 1 ∧
      t.rd Reg.MTX_ERRCNT_LOCKBRK = min (s.rd Reg.MTX_ERRCNT_LOCKBRK + 1) (2 ^ Reg.MTX_ERRCNT_LOCKBRK.w - 1) ∧
      (s.rd Reg.MTX_ERRSTAT_VALID = 1 → t.rd Reg.MTX_ERRADDR_ADDR = s.rd Reg.MTX_ERRADDR_ADDR ∧
        t.rd Reg.MTX_ERRSTAT_MASTER = s.rd Reg.MTX_ERRSTAT_MASTER ∧ t.rd Reg.MTX_ERRSTAT_KIND = s.rd Reg.MTX_ERRSTAT_KIND ∧
        t.rd Reg.MTX_ERRSTAT_WRITE = s.rd Reg.MTX_ERRSTAT_WRITE) ∧
      (s.rd Reg.MTX_ERRSTAT_VALID ≠ 1 → t.rd Reg.MTX_ERRADDR_ADDR = a % 2 ^ 40 ∧ t.rd Reg.MTX_ERRSTAT_MASTER = m.val ∧
        t.rd Reg.MTX_ERRSTAT_KIND = 2 ∧ t.rd Reg.MTX_ERRSTAT_WRITE = bit w)

/-- R401: an activate puts its row in the guard table with a count one higher than the row had, or than the smallest count
the full table held; the table never holds more than 16 rows, each once, and no other row's count changes but by
giving up its entry. -/
def Obligations.GuardTableCountsActivates : Prop :=
  ∀ (t : List (Nat × Nat)) (row : Nat), t.length ≤ 16 → (t.map Prod.fst).Nodup →
    let r := guardHit t row
    r.2.length ≤ 16 ∧ (r.2.map Prod.fst).Nodup ∧ (row, r.1) ∈ r.2 ∧
    (∀ n, (row, n) ∈ t → r.1 = n + 1) ∧
    (row ∉ t.map Prod.fst → t.length < 16 → r.1 = 1 ∧ ∀ e ∈ t, e ∈ r.2) ∧
    (row ∉ t.map Prod.fst → t.length = 16 → (∃ e ∈ t, r.1 = e.2 + 1) ∧ ∀ e ∈ t, r.1 ≤ e.2 + 1) ∧
    (∀ e ∈ r.2, e.1 ≠ row → e ∈ t)

/-- What OP_NOP does to its queue: with nothing waiting ahead it posts one entry with its TAG and ST_OK (R263), counts one
command, and leaves every channel, task and memory alone. -/
def Obligations.NopPostsItsReply : Prop :=
  ∀ (s : State) (h : Hdr) (p : Bytes), s.Takes 0x0000 h p noChk → h.plen = 0 → ((s.front h.qid.val).que h.qid.val).replies = [] →
    (s.front h.qid.val).ringRoom h.qid.val = true → (s.front h.qid.val).replyDelay h.qid.val = 0 →
    s.rd Reg.HIF_QSTAT_ENABLED 0 h.qid.val = 1 →
    ∃ (t : State) (st fl hd : Nat), exec (.opNop h p) s = .next t ∧
      .reply h.qid.val h.tag.toNat stOk st fl 0 hd 0 0 0 ∈ t.out ∧ t.chans = s.chans ∧ t.spd = s.spd ∧ t.mem = s.mem

/-- The registers after reset, as the tables of the spec give them: the block boots, no queue is on, the stated defaults
stand, and every byte of the wiped memories reads zero. -/
def Obligations.ResetLeavesTheStatedValues : Prop :=
  State.reset.rd Reg.PCR_DEVSTAT_DEV = 0 ∧ State.reset.rd Reg.HIF_AQCTL_ENABLE = 0 ∧ State.reset.rd Reg.HIF_EQCTL_ENABLE = 0 ∧
  State.reset.rd Reg.MTX_REMAP_ZERO = 0 ∧ State.reset.rd Reg.DMC_GUARDCFG_THR = 2048 ∧ State.reset.rd Reg.TIM_SERVOCTL_UNLOCK_NS = 200 ∧
  State.reset.rd Reg.TIM_STEPCTL_STEP_NS = 10000 ∧ State.reset.rd Reg.TIM_HOLDCTL_HOLD_MAX_S = 3600 ∧
  State.reset.rd Reg.TST_LOCKSTAT_OPEN = 0 ∧ State.reset.rd Reg.MTX_ERRSTAT_VALID = 0 ∧
  (∀ w, State.reset.rd Reg.EVT_STAT_BITS 0 w = 0) ∧ (∀ src, tget 0 State.reset.evt.occ src = 0) ∧
  (∀ o, csRead State.reset.mem o = 0) ∧ (∀ o, dramRead State.reset.mem o = 0) ∧ State.reset.pending = [] ∧ State.reset.MemWf

/-- R495, R411: outside its grant a request of the debug access port receives an error response of kind DEFAULT and reaches
nothing; inside it a read of the boot ROM returns its contents, and a write to it is not performed and receives READONLY. -/
def Obligations.DebugPortObeysItsGrant : Prop :=
  (∀ (s : State) (a len : Nat) (data : Option Bytes), s.fclk = true →
    ¬(s.rd Reg.TST_LOCKSTAT_OPEN = 1 ∧ s.rd Reg.TST_DAP_EN = 1 ∧ (s.rd Reg.PCR_LCSTAT_STATE = 0 ∨ s.rd Reg.PCR_LCSTAT_STATE = 3)) →
    ∃ t : State, exec (.debugAccessRequest a len data) s = .next t ∧ t.mem = s.mem ∧
      t.rd Reg.MTX_ERRCNT_DEFAULT = min (s.rd Reg.MTX_ERRCNT_DEFAULT + 1) (2 ^ Reg.MTX_ERRCNT_DEFAULT.w - 1) ∧
      (s.rd Reg.MTX_ERRSTAT_VALID ≠ 1 → t.rd Reg.MTX_ERRSTAT_KIND = 0 ∧ t.rd Reg.MTX_ERRSTAT_MASTER = 14 ∧
        t.rd Reg.MTX_ERRADDR_ADDR = a % 2 ^ 40)) ∧
  (∀ (s : State) (a len : Nat), s.fclk = true → s.rd Reg.TST_LOCKSTAT_OPEN = 1 → s.rd Reg.TST_DAP_EN = 1 →
    (s.rd Reg.PCR_LCSTAT_STATE = 0 ∨ s.rd Reg.PCR_LCSTAT_STATE = 3) → 0x10000000 ≤ a → a + len ≤ 0x10040000 → 0 < len → len ≤ 1024 →
    exec (.debugAccessRequest a len none) s = .next (s.emit (.regData 14 (leNat ((List.range len).map fun k =>
      Config.bootRom (a - 0x10000000 + k))))).evFlush.settle) ∧
  (∀ (s : State) (a len : Nat) (d : Bytes), s.fclk = true → s.rd Reg.TST_LOCKSTAT_OPEN = 1 → s.rd Reg.TST_DAP_EN = 1 →
    (s.rd Reg.PCR_LCSTAT_STATE = 0 ∨ s.rd Reg.PCR_LCSTAT_STATE = 3) → 0x10000000 ≤ a → a + d.length ≤ 0x10040000 → 0 < d.length →
    d.length ≤ 1024 →
    ∃ t : State, exec (.debugAccessRequest a len (some d)) s = .next t ∧ t.mem = s.mem ∧
      t.rd Reg.MTX_ERRCNT_DEFAULT = min (s.rd Reg.MTX_ERRCNT_DEFAULT + 1) (2 ^ Reg.MTX_ERRCNT_DEFAULT.w - 1) ∧
      (s.rd Reg.MTX_ERRSTAT_VALID ≠ 1 → t.rd Reg.MTX_ERRSTAT_KIND = 4 ∧ t.rd Reg.MTX_ERRSTAT_MASTER = 14 ∧
        t.rd Reg.MTX_ERRADDR_ADDR = a))

/-- R50: admission requires L − L_min ≥ T_row, and the first result word of the refusal is the smallest admissible L in µs. -/
def Obligations.AdmissionKeepsTheLatencyBudget : Prop :=
  ∀ (s : State) (n : Nat),
    let need := s.lMinOf n + (s.chan n).tRow
    (s.latNs n < need → ∃ r, s.admitCheck n = some r ∧ r.status = stCapacity ∧ need ≤ 1000 * r.r0 ∧ 1000 * r.r0 < need + 1000) ∧
    (s.admitCheck n = none → need ≤ s.latNs n)
end

