-- ==== Sys2Proof/Laws/Tab.lean ====
section
/-! SUPPORT. What reading and writing a sparse table do: a read after a write gives the value written, a write leaves every
other key alone, and a write keeps the canonical form. -/

namespace Sys2Proof

variable {α : Type}

theorem tget_tdel_same (d : α) (t : Tab α) (k : Nat) : tget d (tdel t k) k = d := by
  induction t with
  | nil => rfl
  | cons e r ih => by_cases h : e.1 = k <;> simp [tdel, tget, h, ih]

theorem tget_tdel_other (d : α) (t : Tab α) {k j : Nat} (h : j ≠ k) : tget d (tdel t k) j = tget d t j := by
  induction t with
  | nil => rfl
  | cons e r ih =>
    by_cases hk : e.1 = k
    · simp [tdel, tget, hk, ih, h.symm]
    · rw [tdel, if_neg hk, tget, tget, ih]

theorem tget_tins_same (d : α) (t : Tab α) (k : Nat) (v : α) : tget d (tins t k v) k = v := by
  induction t with
  | nil => simp [tins, tget]
  | cons e r ih =>
    by_cases h1 : k < e.1
    · simp [tins, tget, h1]
    · by_cases h2 : e.1 = k <;> simp [tins, tget, h1, h2, ih]

theorem tget_tins_other (d : α) (t : Tab α) {k j : Nat} (v : α) (h : j ≠ k) : tget d (tins t k v) j = tget d t j := by
  induction t with
  | nil => simp [tins, tget, h.symm]
  | cons e r ih =>
    by_cases h1 : k < e.1
    · simp [tins, tget, h1, h.symm]
    · by_cases h2 : e.1 = k
      · simp [tins, tget, h2, h.symm]
      · rw [tins, if_neg h1, if_neg h2, tget, tget, ih]

@[simp] theorem tget_tset_same [DecidableEq α] (d : α) (t : Tab α) (k : Nat) (v : α) : tget d (tset d t k v) k = v := by
  unfold tset
  split
  · next h => rw [tget_tdel_same, h]
  · exact tget_tins_same ..

theorem tget_tset_other [DecidableEq α] (d d' : α) (t : Tab α) {k j : Nat} (v : α) (h : j ≠ k) :
    tget d (tset d' t k v) j = tget d t j := by
  unfold tset
  split
  · exact tget_tdel_other _ _ h
  · exact tget_tins_other _ _ _ h

/-! ### The canonical form -/

/-- Keys rise from a bound. -/
theorem rising_cons {a : Nat} {l : List Nat} : rising (a :: l) = true ↔ (∀ b ∈ l, a < b) ∧ rising l = true := by
  induction l generalizing a with
  | nil => simp [rising]
  | cons b r ih =>
    simp only [rising, Bool.and_eq_true, decide_eq_true_eq, List.mem_cons, forall_eq_or_imp]
    constructor
    · rintro ⟨h, hr⟩
      exact ⟨⟨h, fun x hx => h.trans ((ih.1 hr).1 x hx)⟩, hr⟩
    · rintro ⟨⟨h, -⟩, hr⟩
      exact ⟨h, hr⟩

theorem keys_tdel (t : Tab α) (k : Nat) : ∀ x ∈ tdel t k, x ∈ t := by
  induction t with
  | nil => simp [tdel]
  | cons e r ih =>
    intro x hx
    by_cases h : e.1 = k
    · simp only [tdel, h, if_true] at hx
      exact List.mem_cons_of_mem _ (ih x hx)
    · simp only [tdel, h, if_false, List.mem_cons] at hx
      rcases hx with rfl | hx
      · exact List.mem_cons_self
      · exact List.mem_cons_of_mem _ (ih x hx)

theorem mem_tins (t : Tab α) (k : Nat) (v : α) : ∀ x ∈ tins t k v, x = (k, v) ∨ x ∈ t := by
  induction t with
  | nil => simp [tins]
  | cons e r ih =>
    intro x hx
    obtain ⟨k', v'⟩ := e
    simp only [tins] at hx
    split at hx
    · simpa using hx
    · split at hx
      · simp only [List.mem_cons] at hx ⊢
        tauto
      · simp only [List.mem_cons] at hx ⊢
        rcases hx with rfl | hx
        · exact .inr (.inl rfl)
        · rcases ih x hx with h | h
          · exact .inl h
          · exact .inr (.inr h)

theorem rising_tdel (t : Tab α) (k : Nat) (h : rising (t.map Prod.fst) = true) : rising ((tdel t k).map Prod.fst) = true := by
  induction t with
  | nil => rfl
  | cons e r ih =>
    rw [List.map_cons, rising_cons] at h
    by_cases hk : e.1 = k
    · simpa [tdel, hk] using ih h.2
    · simp only [tdel, hk, if_false, List.map_cons]
      refine rising_cons.2 ⟨fun b hb => ?_, ih h.2⟩
      obtain ⟨x, hx, rfl⟩ := List.mem_map.1 hb
      exact h.1 _ (List.mem_map_of_mem (keys_tdel r k x hx))

theorem rising_tins (t : Tab α) (k : Nat) (v : α) (h : rising (t.map Prod.fst) = true) :
    rising ((tins t k v).map Prod.fst) = true := by
  induction t with
  | nil => rfl
  | cons e r ih =>
    obtain ⟨k', v'⟩ := e
    have h' := h
    rw [List.map_cons, rising_cons] at h
    simp only [tins]
    split
    · next hlt =>
      rw [List.map_cons]
      refine rising_cons.2 ⟨fun b hb => ?_, h'⟩
      rcases List.mem_cons.1 (List.map_cons ▸ hb) with rfl | hb
      · exact hlt
      · exact hlt.trans (h.1 b hb)
    · split
      · next hEq =>
        rw [List.map_cons]
        exact rising_cons.2 ⟨by simpa [← hEq] using h.1, h.2⟩
      · next h1 h2 =>
        rw [List.map_cons]
        refine rising_cons.2 ⟨fun b hb => ?_, ih h.2⟩
        obtain ⟨x, hx, rfl⟩ := List.mem_map.1 hb
        rcases mem_tins r k v x hx with rfl | hx
        · show k' < k
          omega
        · exact h.1 _ (List.mem_map_of_mem hx)

/-- A write keeps the canonical form. -/
theorem twf_tset [DecidableEq α] (d : α) (t : Tab α) (k : Nat) (v : α) (h : twf d t = true) : twf d (tset d t k v) = true := by
  simp only [twf, Bool.and_eq_true, List.all_eq_true, decide_eq_true_eq] at h ⊢
  unfold tset
  split
  · exact ⟨rising_tdel t k h.1, fun x hx => h.2 x (keys_tdel t k x hx)⟩
  · next hv =>
    refine ⟨rising_tins t k v h.1, fun x hx => ?_⟩
    rcases mem_tins t k v x hx with rfl | hx
    · exact hv
    · exact h.2 x hx

end Sys2Proof
end

