-- ==== Sys2Proof/Laws/Reg.lean ====
section
/-! SUPPORT. The register file: what a read gives after a write, and what a register write leaves alone. -/

namespace Sys2Proof.Machine

/-- Two instances have one place exactly where field, instance and array index agree. -/
theorem rowKey_eq_iff {r r' : Row} {i j i' j' : Nat} :
    rowKey r i j = rowKey r' i' j' ↔ r.id = r'.id ∧ i % 4096 = i' % 4096 ∧ j % 4096 = j' % 4096 := by
  unfold rowKey
  constructor
  · intro h
    have h1 := Nat.mod_lt i (show 0 < 4096 by decide)
    have h2 := Nat.mod_lt j (show 0 < 4096 by decide)
    have h3 := Nat.mod_lt i' (show 0 < 4096 by decide)
    have h4 := Nat.mod_lt j' (show 0 < 4096 by decide)
    norm_num at h
    omega
  · rintro ⟨h1, h2, h3⟩
    rw [h1, h2, h3]

/-- A field reads what was written, cut to its width. -/
@[simp] theorem rd_wr_same (s : State) (r : Row) (v i j : Nat) : (s.wr r v i j).rd r i j = v % 2 ^ r.w := by
  simp [State.rd, State.wr]

/-- A write leaves every other place alone. -/
theorem rd_wr_other (s : State) {r r' : Row} (v i j i' j' : Nat) (h : rowKey r' i' j' ≠ rowKey r i j) :
    (s.wr r v i j).rd r' i' j' = s.rd r' i' j' := by
  simp only [State.rd, State.wr]
  exact tget_tset_other _ _ _ _ h

/-- A write leaves every other field alone. -/
@[simp] theorem rd_wr_field (s : State) {r r' : Row} (v i j i' j' : Nat) (h : r'.id ≠ r.id) :
    (s.wr r v i j).rd r' i' j' = s.rd r' i' j' :=
  rd_wr_other s v i j i' j' fun e => h (rowKey_eq_iff.mp e).1

/-- A write leaves every other instance of its field alone. -/
theorem rd_wr_inst (s : State) (r : Row) (v i j i' j' : Nat) (h : i' % 4096 ≠ i % 4096 ∨ j' % 4096 ≠ j % 4096) :
    (s.wr r v i j).rd r i' j' = s.rd r i' j' :=
  rd_wr_other s v i j i' j' fun e => by have := rowKey_eq_iff.mp e; omega

/-- A register write changes the register file alone. -/
theorem wr_eq (s : State) (r : Row) (v i j : Nat) :
    s.wr r v i j = { s with regs := tset (rowReset r i j) s.regs (rowKey r i j) (v % 2 ^ r.w) } := rfl

/-- Registers do not depend on the other fields of the state. -/
theorem rd_congr {s t : State} (h : s.regs = t.regs) (r : Row) (i j : Nat) : s.rd r i j = t.rd r i j := by
  simp [State.rd, h]

@[simp] theorem wr_pending (s : State) (r : Row) (v i j : Nat) : (s.wr r v i j).pending = s.pending := rfl
@[simp] theorem wr_out (s : State) (r : Row) (v i j : Nat) : (s.wr r v i j).out = s.out := rfl
@[simp] theorem wr_fresh (s : State) (r : Row) (v i j : Nat) : (s.wr r v i j).fresh = s.fresh := rfl
@[simp] theorem wr_hif (s : State) (r : Row) (v i j : Nat) : (s.wr r v i j).hif = s.hif := rfl
@[simp] theorem wr_evt (s : State) (r : Row) (v i j : Nat) : (s.wr r v i j).evt = s.evt := rfl
@[simp] theorem wr_time (s : State) (r : Row) (v i j : Nat) : (s.wr r v i j).time = s.time := rfl
@[simp] theorem wr_chans (s : State) (r : Row) (v i j : Nat) : (s.wr r v i j).chans = s.chans := rfl
@[simp] theorem wr_spd (s : State) (r : Row) (v i j : Nat) : (s.wr r v i j).spd = s.spd := rfl
@[simp] theorem wr_engs (s : State) (r : Row) (v i j : Nat) : (s.wr r v i j).engs = s.engs := rfl
@[simp] theorem wr_refs (s : State) (r : Row) (v i j : Nat) : (s.wr r v i j).refs = s.refs := rfl
@[simp] theorem wr_cmp (s : State) (r : Row) (v i j : Nat) : (s.wr r v i j).cmp = s.cmp := rfl
@[simp] theorem wr_cst (s : State) (r : Row) (v i j : Nat) : (s.wr r v i j).cst = s.cst := rfl
@[simp] theorem wr_mem (s : State) (r : Row) (v i j : Nat) : (s.wr r v i j).mem = s.mem := rfl
@[simp] theorem wr_stalled (s : State) (r : Row) (v i j : Nat) : (s.wr r v i j).stalled = s.stalled := rfl
@[simp] theorem wr_progs (s : State) (r : Row) (v i j : Nat) : (s.wr r v i j).progs = s.progs := rfl
@[simp] theorem wr_routes (s : State) (r : Row) (v i j : Nat) : (s.wr r v i j).routes = s.routes := rfl
@[simp] theorem wr_routesAct (s : State) (r : Row) (v i j : Nat) : (s.wr r v i j).routesAct = s.routesAct := rfl
@[simp] theorem wr_shps (s : State) (r : Row) (v i j : Nat) : (s.wr r v i j).shps = s.shps := rfl
@[simp] theorem wr_arbs (s : State) (r : Row) (v i j : Nat) : (s.wr r v i j).arbs = s.arbs := rfl
@[simp] theorem wr_pkrs (s : State) (r : Row) (v i j : Nat) : (s.wr r v i j).pkrs = s.pkrs := rfl
@[simp] theorem wr_pair (s : State) (r : Row) (v i j : Nat) : (s.wr r v i j).pair = s.pair := rfl
@[simp] theorem wr_inp (s : State) (r : Row) (v i j : Nat) : (s.wr r v i j).inp = s.inp := rfl
@[simp] theorem wr_aud (s : State) (r : Row) (v i j : Nat) : (s.wr r v i j).aud = s.aud := rfl
@[simp] theorem wr_blt (s : State) (r : Row) (v i j : Nat) : (s.wr r v i j).blt = s.blt := rfl
@[simp] theorem wr_dmc (s : State) (r : Row) (v i j : Nat) : (s.wr r v i j).dmc = s.dmc := rfl
@[simp] theorem wr_tst (s : State) (r : Row) (v i j : Nat) : (s.wr r v i j).tst = s.tst := rfl
@[simp] theorem wr_lanes (s : State) (r : Row) (v i j : Nat) : (s.wr r v i j).lanes = s.lanes := rfl
@[simp] theorem wr_cvu (s : State) (r : Row) (v i j : Nat) : (s.wr r v i j).cvu = s.cvu := rfl
@[simp] theorem wr_pcr (s : State) (r : Row) (v i j : Nat) : (s.wr r v i j).pcr = s.pcr := rfl
@[simp] theorem wr_mgt (s : State) (r : Row) (v i j : Nat) : (s.wr r v i j).mgt = s.mgt := rfl

/-! ### Saturating and wrapping counters -/

@[simp] theorem rd_incSat_same (s : State) (r : Row) (n i j : Nat) :
    (s.incSat r n i j).rd r i j = min (s.rd r i j + n) (2 ^ r.w - 1) := by
  have h : 0 < 2 ^ r.w := Nat.two_pow_pos _
  rw [State.incSat, rd_wr_same, Nat.mod_eq_of_lt (by omega)]

@[simp] theorem rd_incSat_field (s : State) {r r' : Row} (n i j i' j' : Nat) (h : r'.id ≠ r.id) :
    (s.incSat r n i j).rd r' i' j' = s.rd r' i' j' := rd_wr_field s _ i j i' j' h

@[simp] theorem rd_incWrap_same (s : State) (r : Row) (n i j : Nat) :
    (s.incWrap r n i j).rd r i j = (s.rd r i j + n) % 2 ^ r.w := rd_wr_same ..

@[simp] theorem rd_incWrap_field (s : State) {r r' : Row} (n i j i' j' : Nat) (h : r'.id ≠ r.id) :
    (s.incWrap r n i j).rd r' i' j' = s.rd r' i' j' := rd_wr_field s _ i j i' j' h


end Sys2Proof.Machine
end

