-- ==== Sys2Proof/Laws/Access.lean ====
section
/-! SUPPORT. A register access by the host: what it does to halves of split 64-bit accesses, and what it leaves alone. -/

namespace Sys2Proof.Machine

/-- An access changes the halves that wait in the host interface and the latched time, and nothing else (R12, R13). -/
theorem touch_eq (s : State) (m a : Nat) : ∃ h t, s.touch m a = { s with hif := h, time := t } ∧ h.ques = s.hif.ques ∧ t.now = s.time.now := by
  unfold State.touch
  dsimp only
  split_ifs <;> exact ⟨_, _, rfl, rfl, rfl⟩

@[simp] theorem hostAccess_pending (s : State) (r : Row) (i j : Nat) : (s.hostAccess r i j).pending = s.pending := by
  obtain ⟨_, _, e, -⟩ := touch_eq s 0 (regAddr r i j); rw [State.hostAccess, e]
@[simp] theorem hostAccess_out (s : State) (r : Row) (i j : Nat) : (s.hostAccess r i j).out = s.out := by
  obtain ⟨_, _, e, -⟩ := touch_eq s 0 (regAddr r i j); rw [State.hostAccess, e]
@[simp] theorem hostAccess_fresh (s : State) (r : Row) (i j : Nat) : (s.hostAccess r i j).fresh = s.fresh := by
  obtain ⟨_, _, e, -⟩ := touch_eq s 0 (regAddr r i j); rw [State.hostAccess, e]
@[simp] theorem hostAccess_regs (s : State) (r : Row) (i j : Nat) : (s.hostAccess r i j).regs = s.regs := by
  obtain ⟨_, _, e, -⟩ := touch_eq s 0 (regAddr r i j); rw [State.hostAccess, e]
@[simp] theorem hostAccess_evt (s : State) (r : Row) (i j : Nat) : (s.hostAccess r i j).evt = s.evt := by
  obtain ⟨_, _, e, -⟩ := touch_eq s 0 (regAddr r i j); rw [State.hostAccess, e]
@[simp] theorem hostAccess_chans (s : State) (r : Row) (i j : Nat) : (s.hostAccess r i j).chans = s.chans := by
  obtain ⟨_, _, e, -⟩ := touch_eq s 0 (regAddr r i j); rw [State.hostAccess, e]
@[simp] theorem hostAccess_spd (s : State) (r : Row) (i j : Nat) : (s.hostAccess r i j).spd = s.spd := by
  obtain ⟨_, _, e, -⟩ := touch_eq s 0 (regAddr r i j); rw [State.hostAccess, e]
@[simp] theorem hostAccess_engs (s : State) (r : Row) (i j : Nat) : (s.hostAccess r i j).engs = s.engs := by
  obtain ⟨_, _, e, -⟩ := touch_eq s 0 (regAddr r i j); rw [State.hostAccess, e]
@[simp] theorem hostAccess_refs (s : State) (r : Row) (i j : Nat) : (s.hostAccess r i j).refs = s.refs := by
  obtain ⟨_, _, e, -⟩ := touch_eq s 0 (regAddr r i j); rw [State.hostAccess, e]
@[simp] theorem hostAccess_cmp (s : State) (r : Row) (i j : Nat) : (s.hostAccess r i j).cmp = s.cmp := by
  obtain ⟨_, _, e, -⟩ := touch_eq s 0 (regAddr r i j); rw [State.hostAccess, e]
@[simp] theorem hostAccess_cst (s : State) (r : Row) (i j : Nat) : (s.hostAccess r i j).cst = s.cst := by
  obtain ⟨_, _, e, -⟩ := touch_eq s 0 (regAddr r i j); rw [State.hostAccess, e]
@[simp] theorem hostAccess_mem (s : State) (r : Row) (i j : Nat) : (s.hostAccess r i j).mem = s.mem := by
  obtain ⟨_, _, e, -⟩ := touch_eq s 0 (regAddr r i j); rw [State.hostAccess, e]
@[simp] theorem hostAccess_stalled (s : State) (r : Row) (i j : Nat) : (s.hostAccess r i j).stalled = s.stalled := by
  obtain ⟨_, _, e, -⟩ := touch_eq s 0 (regAddr r i j); rw [State.hostAccess, e]
@[simp] theorem hostAccess_progs (s : State) (r : Row) (i j : Nat) : (s.hostAccess r i j).progs = s.progs := by
  obtain ⟨_, _, e, -⟩ := touch_eq s 0 (regAddr r i j); rw [State.hostAccess, e]
@[simp] theorem hostAccess_routes (s : State) (r : Row) (i j : Nat) : (s.hostAccess r i j).routes = s.routes := by
  obtain ⟨_, _, e, -⟩ := touch_eq s 0 (regAddr r i j); rw [State.hostAccess, e]
@[simp] theorem hostAccess_routesAct (s : State) (r : Row) (i j : Nat) : (s.hostAccess r i j).routesAct = s.routesAct := by
  obtain ⟨_, _, e, -⟩ := touch_eq s 0 (regAddr r i j); rw [State.hostAccess, e]
@[simp] theorem hostAccess_shps (s : State) (r : Row) (i j : Nat) : (s.hostAccess r i j).shps = s.shps := by
  obtain ⟨_, _, e, -⟩ := touch_eq s 0 (regAddr r i j); rw [State.hostAccess, e]
@[simp] theorem hostAccess_arbs (s : State) (r : Row) (i j : Nat) : (s.hostAccess r i j).arbs = s.arbs := by
  obtain ⟨_, _, e, -⟩ := touch_eq s 0 (regAddr r i j); rw [State.hostAccess, e]
@[simp] theorem hostAccess_pkrs (s : State) (r : Row) (i j : Nat) : (s.hostAccess r i j).pkrs = s.pkrs := by
  obtain ⟨_, _, e, -⟩ := touch_eq s 0 (regAddr r i j); rw [State.hostAccess, e]
@[simp] theorem hostAccess_pair (s : State) (r : Row) (i j : Nat) : (s.hostAccess r i j).pair = s.pair := by
  obtain ⟨_, _, e, -⟩ := touch_eq s 0 (regAddr r i j); rw [State.hostAccess, e]
@[simp] theorem hostAccess_inp (s : State) (r : Row) (i j : Nat) : (s.hostAccess r i j).inp = s.inp := by
  obtain ⟨_, _, e, -⟩ := touch_eq s 0 (regAddr r i j); rw [State.hostAccess, e]
@[simp] theorem hostAccess_aud (s : State) (r : Row) (i j : Nat) : (s.hostAccess r i j).aud = s.aud := by
  obtain ⟨_, _, e, -⟩ := touch_eq s 0 (regAddr r i j); rw [State.hostAccess, e]
@[simp] theorem hostAccess_blt (s : State) (r : Row) (i j : Nat) : (s.hostAccess r i j).blt = s.blt := by
  obtain ⟨_, _, e, -⟩ := touch_eq s 0 (regAddr r i j); rw [State.hostAccess, e]
@[simp] theorem hostAccess_dmc (s : State) (r : Row) (i j : Nat) : (s.hostAccess r i j).dmc = s.dmc := by
  obtain ⟨_, _, e, -⟩ := touch_eq s 0 (regAddr r i j); rw [State.hostAccess, e]
@[simp] theorem hostAccess_tst (s : State) (r : Row) (i j : Nat) : (s.hostAccess r i j).tst = s.tst := by
  obtain ⟨_, _, e, -⟩ := touch_eq s 0 (regAddr r i j); rw [State.hostAccess, e]
@[simp] theorem hostAccess_lanes (s : State) (r : Row) (i j : Nat) : (s.hostAccess r i j).lanes = s.lanes := by
  obtain ⟨_, _, e, -⟩ := touch_eq s 0 (regAddr r i j); rw [State.hostAccess, e]
@[simp] theorem hostAccess_cvu (s : State) (r : Row) (i j : Nat) : (s.hostAccess r i j).cvu = s.cvu := by
  obtain ⟨_, _, e, -⟩ := touch_eq s 0 (regAddr r i j); rw [State.hostAccess, e]
@[simp] theorem hostAccess_pcr (s : State) (r : Row) (i j : Nat) : (s.hostAccess r i j).pcr = s.pcr := by
  obtain ⟨_, _, e, -⟩ := touch_eq s 0 (regAddr r i j); rw [State.hostAccess, e]
@[simp] theorem hostAccess_mgt (s : State) (r : Row) (i j : Nat) : (s.hostAccess r i j).mgt = s.mgt := by
  obtain ⟨_, _, e, -⟩ := touch_eq s 0 (regAddr r i j); rw [State.hostAccess, e]
@[simp] theorem hostAccess_rd (s : State) (r r' : Row) (i j i' j' : Nat) : (s.hostAccess r i j).rd r' i' j' = s.rd r' i' j' :=
  rd_congr (hostAccess_regs s r i j) r' i' j'
@[simp] theorem hostAccess_que (s : State) (r : Row) (i j q : Nat) : (s.hostAccess r i j).que q = s.que q := by
  obtain ⟨_, _, e, h, -⟩ := touch_eq s 0 (regAddr r i j); rw [State.hostAccess, e, State.que, State.que, h]
@[simp] theorem hostAccess_ns (s : State) (r : Row) (i j : Nat) : (s.hostAccess r i j).ns = s.ns := by
  obtain ⟨_, _, e, -, h⟩ := touch_eq s 0 (regAddr r i j); rw [State.hostAccess, e, State.ns, State.ns, h]

end Sys2Proof.Machine
end

