-- ==== Sys2Proof/Laws/Settle.lean ====
section
/-! SUPPORT. The end of every command: the six registers it brings up to date, and what it leaves alone. -/

namespace Sys2Proof.Machine

/-- The numbers of the six fields that `settle` writes. -/
def settledIds : List Nat :=
  [Reg.TST_ACTIVE_BITS.id, Reg.EVT_EQSTAT_BACKLOG.id, Reg.EVT_EQSTAT_FULL.id, Reg.SPD_TRACESTAT_COUNT.id, Reg.CMP_CMPSTAT_ANY_EM.id,
   Reg.MGT_BLOCKS_WRITTEN.id]

/-- Every other field reads as before. -/
theorem rd_settle (s : State) (r : Row) (i j : Nat) (h : r.id ∉ settledIds) : s.settle.rd r i j = s.rd r i j := by
  simp only [settledIds, List.mem_cons, List.not_mem_nil, or_false, not_or] at h
  obtain ⟨h1, h2, h3, h4, h5, h6⟩ := h
  unfold State.settle
  exact (rd_wr_field _ _ _ _ _ _ h6).trans ((rd_wr_field _ _ _ _ _ _ h5).trans ((rd_wr_field _ _ _ _ _ _ h4).trans
    ((rd_wr_field _ _ _ _ _ _ h3).trans ((rd_wr_field _ _ _ _ _ _ h2).trans (rd_wr_field _ _ _ _ _ _ h1)))))

@[simp] theorem settle_pending (s : State) : s.settle.pending = s.pending := by simp only [State.settle, wr_pending]
@[simp] theorem settle_out (s : State) : s.settle.out = s.out := by simp only [State.settle, wr_out]
@[simp] theorem settle_fresh (s : State) : s.settle.fresh = s.fresh := by simp only [State.settle, wr_fresh]
@[simp] theorem settle_hif (s : State) : s.settle.hif = s.hif := by simp only [State.settle, wr_hif]
@[simp] theorem settle_evt (s : State) : s.settle.evt = s.evt := by simp only [State.settle, wr_evt]
@[simp] theorem settle_time (s : State) : s.settle.time = s.time := by simp only [State.settle, wr_time]
@[simp] theorem settle_chans (s : State) : s.settle.chans = s.chans := by simp only [State.settle, wr_chans]
@[simp] theorem settle_spd (s : State) : s.settle.spd = s.spd := by simp only [State.settle, wr_spd]
@[simp] theorem settle_engs (s : State) : s.settle.engs = s.engs := by simp only [State.settle, wr_engs]
@[simp] theorem settle_refs (s : State) : s.settle.refs = s.refs := by simp only [State.settle, wr_refs]
@[simp] theorem settle_cmp (s : State) : s.settle.cmp = s.cmp := by simp only [State.settle, wr_cmp]
@[simp] theorem settle_cst (s : State) : s.settle.cst = s.cst := by simp only [State.settle, wr_cst]
@[simp] theorem settle_mem (s : State) : s.settle.mem = s.mem := by simp only [State.settle, wr_mem]
@[simp] theorem settle_stalled (s : State) : s.settle.stalled = s.stalled := by simp only [State.settle, wr_stalled]
@[simp] theorem settle_progs (s : State) : s.settle.progs = s.progs := by simp only [State.settle, wr_progs]
@[simp] theorem settle_routes (s : State) : s.settle.routes = s.routes := by simp only [State.settle, wr_routes]
@[simp] theorem settle_routesAct (s : State) : s.settle.routesAct = s.routesAct := by simp only [State.settle, wr_routesAct]
@[simp] theorem settle_shps (s : State) : s.settle.shps = s.shps := by simp only [State.settle, wr_shps]
@[simp] theorem settle_arbs (s : State) : s.settle.arbs = s.arbs := by simp only [State.settle, wr_arbs]
@[simp] theorem settle_pkrs (s : State) : s.settle.pkrs = s.pkrs := by simp only [State.settle, wr_pkrs]
@[simp] theorem settle_pair (s : State) : s.settle.pair = s.pair := by simp only [State.settle, wr_pair]
@[simp] theorem settle_inp (s : State) : s.settle.inp = s.inp := by simp only [State.settle, wr_inp]
@[simp] theorem settle_aud (s : State) : s.settle.aud = s.aud := by simp only [State.settle, wr_aud]
@[simp] theorem settle_blt (s : State) : s.settle.blt = s.blt := by simp only [State.settle, wr_blt]
@[simp] theorem settle_dmc (s : State) : s.settle.dmc = s.dmc := by simp only [State.settle, wr_dmc]
@[simp] theorem settle_tst (s : State) : s.settle.tst = s.tst := by simp only [State.settle, wr_tst]
@[simp] theorem settle_lanes (s : State) : s.settle.lanes = s.lanes := by simp only [State.settle, wr_lanes]
@[simp] theorem settle_cvu (s : State) : s.settle.cvu = s.cvu := by simp only [State.settle, wr_cvu]
@[simp] theorem settle_pcr (s : State) : s.settle.pcr = s.pcr := by simp only [State.settle, wr_pcr]
@[simp] theorem settle_mgt (s : State) : s.settle.mgt = s.mgt := by simp only [State.settle, wr_mgt]


/-- What `tstBits` looks at. -/
theorem tstBits_congr {s t : State} (hd : s.dmc = t.dmc) (ht : s.tst = t.tst)
    (hr : ∀ (r : Row) (i j : Nat), r.id ∉ settledIds → s.rd r i j = t.rd r i j) : s.tstBits = t.tstBits := by
  have e (r : Row) (i : Nat) (h : r.id ∉ settledIds) : s.rd r i = t.rd r i := hr r i 0 h
  have e1 := e Reg.TST_REFCTL_NOPOST 0 (by decide)
  have e2 := e Reg.TST_LOCKSTAT_OPEN 0 (by decide)
  have e3 := e Reg.TST_CSDELAY_PORTS 0 (by decide)
  have e4 := e Reg.TST_CSDELAY_FCLK 0 (by decide)
  have e5 := e Reg.TST_BPINJ_EN 0 (by decide)
  have e6 := e Reg.TST_CPLDELAY_US 0 (by decide)
  have e7 : (fun l => decide (s.rd Reg.SDS_INJCTL_MODE l ≠ 0)) = (fun l => decide (t.rd Reg.SDS_INJCTL_MODE l ≠ 0)) := by
    funext l; rw [e Reg.SDS_INJCTL_MODE l (by decide)]
  unfold State.tstBits
  rw [hd, ht, e1, e2, e3, e4, e5, e6, e7]

theorem ringFull_congr {s t : State} (hh : s.hif = t.hif)
    (hr : ∀ (r : Row) (i j : Nat), r.id ∉ settledIds → s.rd r i j = t.rd r i j) : s.ringFull = t.ringFull := by
  have e : s.rd Reg.HIF_QSTAT_ENABLED 0 66 = t.rd Reg.HIF_QSTAT_ENABLED 0 66 := hr _ _ _ (by decide)
  unfold State.ringFull State.que
  rw [hh, e]

end Sys2Proof.Machine
end

