-- ==== Sys2Proof/Laws/Ev.lean ====
section
/-! SUPPORT. Events: what one occurrence can change. -/

namespace Sys2Proof.Machine

/-- The state without the parts that posting a record touches. -/
def State.quiet (s : State) : State :=
  { s with out := [], fresh := 0, regs := [], evt := {}, cvu := [], hif := { s.hif with ques := [] } }

/-- The fields that posting a record touches: those of the event queue, and the settings of a check value unit whose window ends before the record
passes (R431). -/
def postIds : List Nat :=
  [Reg.HIF_QSTAT_CQTAIL.id, Reg.HIF_QSTAT_PHASE.id, Reg.EVT_RECORDS_COUNT.id, Reg.EVT_EQDROP_COUNT.id, Reg.EVT_AODROP_COUNT.id,
   Reg.EVT_EQSTAT_BACKLOG.id, Reg.EVT_EQSTAT_FULL.id, Reg.CVU_UNITVIEW_MODE.id, Reg.CVU_UNITVIEW_POLY.id, Reg.CVU_EXPECTVIEW_EXPECT.id,
   Reg.CVU_UNITVIEW_COMPARE.id, Reg.CVU_UNITVIEW_PENDING.id]

/-- The fields that the end of a command's events touches. -/
def flushIds : List Nat := [Reg.EVT_LASTSRC_SRC.id, Reg.EVT_LASTSRC_CLASS.id] ++ postIds

/-- `t` is `s` after records, messages and folded items: all that can differ is the event ring, the records that wait, the
check value sums, the outputs, and the fields in `ids`. -/
structure Told (ids : List Nat) (s t : State) : Prop where
  rest : t.quiet = s.quiet
  reg  : ∀ r i j, r.id ∉ ids → t.rd r i j = s.rd r i j
  que  : ∀ q, q ≠ 66 → t.que q = s.que q
  outs : ∃ l, t.out = l ++ s.out

theorem Told.refl (ids : List Nat) (s : State) : Told ids s s := ⟨rfl, fun _ _ _ _ => rfl, fun _ _ => rfl, [], rfl⟩

theorem Told.trans {ids : List Nat} {s t u : State} (h : Told ids s t) (k : Told ids t u) : Told ids s u :=
  ⟨k.rest.trans h.rest, fun r i j hr => (k.reg r i j hr).trans (h.reg r i j hr), fun q hq => (k.que q hq).trans (h.que q hq), by
    obtain ⟨l, hl⟩ := h.outs
    obtain ⟨m, hm⟩ := k.outs
    exact ⟨m ++ l, by rw [hm, hl, List.append_assoc]⟩⟩

theorem Told.mono {ids jds : List Nat} {s t : State} (h : Told ids s t) (hs : ids ⊆ jds) : Told jds s t :=
  ⟨h.rest, fun r i j hr => h.reg r i j fun m => hr (hs m), h.que, h.outs⟩

theorem Told.pending {ids : List Nat} {s t : State} (h : Told ids s t) : t.pending = s.pending := by
  have e := congrArg State.pending h.rest; exact e
theorem Told.time {ids : List Nat} {s t : State} (h : Told ids s t) : t.time = s.time := by
  have e := congrArg State.time h.rest; exact e
theorem Told.chans {ids : List Nat} {s t : State} (h : Told ids s t) : t.chans = s.chans := by
  have e := congrArg State.chans h.rest; exact e
theorem Told.spd {ids : List Nat} {s t : State} (h : Told ids s t) : t.spd = s.spd := by
  have e := congrArg State.spd h.rest; exact e
theorem Told.engs {ids : List Nat} {s t : State} (h : Told ids s t) : t.engs = s.engs := by
  have e := congrArg State.engs h.rest; exact e
theorem Told.refs {ids : List Nat} {s t : State} (h : Told ids s t) : t.refs = s.refs := by
  have e := congrArg State.refs h.rest; exact e
theorem Told.cmp {ids : List Nat} {s t : State} (h : Told ids s t) : t.cmp = s.cmp := by
  have e := congrArg State.cmp h.rest; exact e
theorem Told.cst {ids : List Nat} {s t : State} (h : Told ids s t) : t.cst = s.cst := by
  have e := congrArg State.cst h.rest; exact e
theorem Told.stalled {ids : List Nat} {s t : State} (h : Told ids s t) : t.stalled = s.stalled := by
  have e := congrArg State.stalled h.rest; exact e
theorem Told.mem {ids : List Nat} {s t : State} (h : Told ids s t) : t.mem = s.mem := by
  have e := congrArg State.mem h.rest; exact e
theorem Told.progs {ids : List Nat} {s t : State} (h : Told ids s t) : t.progs = s.progs := by
  have e := congrArg State.progs h.rest; exact e
theorem Told.arbs {ids : List Nat} {s t : State} (h : Told ids s t) : t.arbs = s.arbs := by
  have e := congrArg State.arbs h.rest; exact e
theorem Told.shps {ids : List Nat} {s t : State} (h : Told ids s t) : t.shps = s.shps := by
  have e := congrArg State.shps h.rest; exact e
theorem Told.pair {ids : List Nat} {s t : State} (h : Told ids s t) : t.pair = s.pair := by
  have e := congrArg State.pair h.rest; exact e
theorem Told.inp {ids : List Nat} {s t : State} (h : Told ids s t) : t.inp = s.inp := by
  have e := congrArg State.inp h.rest; exact e
theorem Told.aud {ids : List Nat} {s t : State} (h : Told ids s t) : t.aud = s.aud := by
  have e := congrArg State.aud h.rest; exact e
theorem Told.blt {ids : List Nat} {s t : State} (h : Told ids s t) : t.blt = s.blt := by
  have e := congrArg State.blt h.rest; exact e
theorem Told.dmc {ids : List Nat} {s t : State} (h : Told ids s t) : t.dmc = s.dmc := by
  have e := congrArg State.dmc h.rest; exact e
theorem Told.tst {ids : List Nat} {s t : State} (h : Told ids s t) : t.tst = s.tst := by
  have e := congrArg State.tst h.rest; exact e
theorem Told.lanes {ids : List Nat} {s t : State} (h : Told ids s t) : t.lanes = s.lanes := by
  have e := congrArg State.lanes h.rest; exact e
theorem Told.pcr {ids : List Nat} {s t : State} (h : Told ids s t) : t.pcr = s.pcr := by
  have e := congrArg State.pcr h.rest; exact e
theorem Told.mgt {ids : List Nat} {s t : State} (h : Told ids s t) : t.mgt = s.mgt := by
  have e := congrArg State.mgt h.rest; exact e

theorem told_wr {ids : List Nat} (s : State) (r : Row) (v i j : Nat) (h : r.id ∈ ids) : Told ids s (s.wr r v i j) :=
  ⟨rfl, fun _ _ _ hr => rd_wr_field s _ _ _ _ _ fun e => hr (e ▸ h), fun _ _ => rfl, [], rfl⟩

theorem told_emit (ids : List Nat) (s : State) (o : Out) : Told ids s (s.emit o) :=
  ⟨rfl, fun _ _ _ _ => rfl, fun _ _ => rfl, [o], rfl⟩

theorem told_evt (ids : List Nat) (s : State) (e : Evt) : Told ids s { s with evt := e } :=
  ⟨rfl, fun _ _ _ _ => rfl, fun _ _ => rfl, [], rfl⟩

theorem told_setCvuU (ids : List Nat) (s : State) (u : Nat) (v : CvuUnit) : Told ids s (s.setCvuU u v) :=
  ⟨rfl, fun _ _ _ _ => rfl, fun _ _ => rfl, [], rfl⟩

theorem told_evq (ids : List Nat) (s : State) (v : Que) : Told ids s (s.setQue 66 v) :=
  ⟨rfl, fun _ _ _ _ => rfl, fun _ hq => tget_tset_other _ _ _ _ hq, [], rfl⟩

/-- What posting keeps beside the parts of `Told`: the occurrence counters. -/
structure Posted (s t : State) : Prop extends Told postIds s t where
  occ : t.evt.occ = s.evt.occ

theorem Posted.trans {s t u : State} (h : Posted s t) (k : Posted t u) : Posted s u := ⟨h.toTold.trans k.toTold, k.occ.trans h.occ⟩
theorem Posted.refl (s : State) : Posted s s := ⟨.refl _ _, rfl⟩

theorem posted_wr (s : State) (r : Row) (v i j : Nat) (h : r.id ∈ postIds) : Posted s (s.wr r v i j) := ⟨told_wr s r v i j h, rfl⟩
theorem posted_emit (s : State) (o : Out) : Posted s (s.emit o) := ⟨told_emit _ s o, rfl⟩
theorem posted_evt (s : State) (e : Evt) (h : e.occ = s.evt.occ) : Posted s { s with evt := e } := ⟨told_evt _ s e, h⟩
theorem posted_evq (s : State) (v : Que) : Posted s (s.setQue 66 v) := ⟨told_evq _ s v, rfl⟩

theorem posted_free (s : State) : Posted s s.free.2 := ⟨⟨rfl, fun _ _ _ _ => rfl, fun _ _ => rfl, [], rfl⟩, rfl⟩

theorem posted_setCvuU (s : State) (u : Nat) (v : CvuUnit) : Posted s (s.setCvuU u v) := ⟨told_setCvuU _ s u v, rfl⟩

theorem posted_cvuApply (s : State) (u : Nat) : Posted s (s.cvuApply u) := by
  unfold State.cvuApply
  split
  · exact .refl s
  · exact (((((posted_wr s _ _ _ _ (by decide)).trans (posted_wr _ _ _ _ _ (by decide))).trans (posted_wr _ _ _ _ _ (by decide))).trans
      (posted_wr _ _ _ _ _ (by decide))).trans (posted_wr _ _ _ _ _ (by decide))).trans (posted_setCvuU _ _ _)

/-- The end of a window. -/
theorem posted_cvuTurn (s : State) (u : Nat) : Posted s (s.cvuTurn u) := by
  unfold State.cvuTurn
  split
  · exact (posted_setCvuU s _ _).trans (posted_cvuApply _ _)
  · exact .refl s

/-- An item that passes a check value unit. -/
theorem posted_cvuItem (s : State) (u : Nat) (p : Bytes) (addr seq : Option Nat) : Posted s (s.cvuItem u p addr seq) := by
  unfold State.cvuItem
  refine (posted_cvuTurn s u).trans ?_
  dsimp only
  split
  · exact .refl _
  split
  · exact posted_setCvuU _ _ _
  split
  · exact posted_setCvuU _ _ _
  split
  · exact posted_setCvuU _ _ _
  · exact (posted_free _).trans (posted_setCvuU _ _ _)

theorem posted_route (s : State) (g : Option Nat) : Posted s (s.route g) := by
  cases g with
  | none => exact .refl s
  | some g =>
    have step : Posted s (({ s with evt := { s.evt with lastMsg := tset none s.evt.lastMsg g (some s.ns) } } : State).emit
        (.msix (s.rd Reg.EVT_ROUTE_VECTOR 0 g))) := (posted_evt s _ (by rfl)).trans (posted_emit _ _)
    unfold State.route
    dsimp only
    split
    · split
      · exact .refl s
      · exact step
    · split
      · exact .refl s
      · exact step

theorem posted_signal (s : State) (u : Bool) : Posted s (s.signal 66 u) := by
  unfold State.signal
  dsimp only
  split
  · exact (posted_evq _ _).trans (posted_emit _ _)
  · exact posted_evq _ _

theorem posted_ringSlot (s : State) : Posted s (s.ringSlot 66).2 := by
  unfold State.ringSlot
  dsimp only
  split
  · exact ((posted_evq _ _).trans (posted_wr _ _ _ _ _ (by decide))).trans (posted_wr _ _ _ _ _ (by decide))
  · exact (posted_evq _ _).trans (posted_wr _ _ _ _ _ (by decide))

theorem posted_writeRec (s : State) (r : Rec) (gap : Bool) : Posted s (s.writeRec r gap) := by
  unfold State.writeRec
  exact (((((posted_ringSlot s).trans (posted_cvuItem _ _ _ _ _)).trans (posted_emit _ _)).trans
    (posted_wr _ _ _ _ _ (by decide))).trans (posted_signal _ _)).trans (posted_route _ _)

theorem posted_drainFuel (n : Nat) (s : State) : Posted s (drainFuel n s) := by
  induction n generalizing s with
  | zero => exact .refl s
  | succ n ih =>
    unfold drainFuel
    split
    · exact .refl s
    split
    · exact .refl s
    · exact ((posted_evt s _ (by rfl)).trans (posted_writeRec _ _ _)).trans (ih _)
    · exact ((posted_evt s _ (by rfl)).trans (posted_writeRec _ _ _)).trans (ih _)

theorem posted_drain (s : State) : Posted s s.drain :=
  ((posted_drainFuel _ s).trans (posted_wr _ _ _ _ _ (by decide))).trans (posted_wr _ _ _ _ _ (by decide))

/-- Posting a record. -/
theorem posted_postRec (s : State) (r : Rec) : Posted s (s.postRec r) := by
  unfold State.postRec
  dsimp only
  split
  · exact posted_route s _
  split
  · exact (posted_evt s _ (by rfl)).trans (posted_drain _)
  · exact ((posted_wr s Reg.EVT_EQDROP_COUNT _ _ _ (by decide)).trans (posted_route _ _)).trans (posted_evt _ _ (by rfl))

theorem posted_postRecs (s : State) (l : List Rec) : Posted s (l.foldl State.postRec s) := by
  induction l generalizing s with
  | nil => exact .refl s
  | cons r l ih => exact (posted_postRec s r).trans (ih _)

theorem posted_aoFlush (s : State) : Posted s s.aoFlush := by
  unfold State.aoFlush
  split
  · exact .refl s
  · exact (posted_evt s _ (by rfl)).trans (posted_postRecs _ _)

/-- What an occurrence changes at once (R443): its status bit, its counter, and the list of the command's events. -/
theorem ev_told (s : State) (src ch detail aux : Nat) : Told [Reg.EVT_STAT_BITS.id] s (s.ev src ch detail aux) :=
  (told_wr s _ _ _ _ (by decide)).trans (told_evt _ _ _)

/-- A field that no occurrence touches. -/
theorem rd_ev (s : State) (src ch detail aux : Nat) (r : Row) (i j : Nat) (h : r.id ≠ Reg.EVT_STAT_BITS.id) :
    (s.ev src ch detail aux).rd r i j = s.rd r i j := (ev_told s src ch detail aux).reg r i j (by simpa using h)

/-- The counters of occurrences after one. -/
theorem ev_occ (s : State) (src ch detail aux : Nat) :
    (s.ev src ch detail aux).evt.occ = tset 0 s.evt.occ src (min (tget 0 s.evt.occ src + 1) (2 ^ 32 - 1)) := rfl

/-- The status words after an occurrence. -/
theorem ev_stat (s : State) (src ch detail aux w : Nat) : (s.ev src ch detail aux).rd Reg.EVT_STAT_BITS 0 w =
    (s.wr Reg.EVT_STAT_BITS (s.rd Reg.EVT_STAT_BITS 0 (src / 32) ||| 2 ^ (src % 32)) 0 (src / 32)).rd Reg.EVT_STAT_BITS 0 w := rfl

@[simp] theorem ev_out (s : State) (src ch detail aux : Nat) : (s.ev src ch detail aux).out = s.out := rfl
@[simp] theorem ev_fresh (s : State) (src ch detail aux : Nat) : (s.ev src ch detail aux).fresh = s.fresh := rfl
@[simp] theorem ev_hif (s : State) (src ch detail aux : Nat) : (s.ev src ch detail aux).hif = s.hif := rfl
@[simp] theorem ev_pending (s : State) (src ch detail aux : Nat) : (s.ev src ch detail aux).pending = s.pending := rfl
@[simp] theorem ev_time (s : State) (src ch detail aux : Nat) : (s.ev src ch detail aux).time = s.time := rfl
@[simp] theorem ev_chans (s : State) (src ch detail aux : Nat) : (s.ev src ch detail aux).chans = s.chans := rfl
@[simp] theorem ev_spd (s : State) (src ch detail aux : Nat) : (s.ev src ch detail aux).spd = s.spd := rfl
@[simp] theorem ev_mem (s : State) (src ch detail aux : Nat) : (s.ev src ch detail aux).mem = s.mem := rfl
@[simp] theorem ev_cst (s : State) (src ch detail aux : Nat) : (s.ev src ch detail aux).cst = s.cst := rfl
@[simp] theorem ev_mgt (s : State) (src ch detail aux : Nat) : (s.ev src ch detail aux).mgt = s.mgt := rfl
@[simp] theorem ev_pcr (s : State) (src ch detail aux : Nat) : (s.ev src ch detail aux).pcr = s.pcr := rfl

/-! ### The end of a command: its events are processed -/

/-- The part of processing an occurrence that a mask does not hold back (R443). -/
def State.lastSrc (s : State) (r : Rec) : State := (s.wr Reg.EVT_LASTSRC_SRC r.src).wr Reg.EVT_LASTSRC_CLASS r.cls

theorem told_lastSrc (s : State) (r : Rec) : Told flushIds s (s.lastSrc r) :=
  (told_wr s _ _ _ _ (by decide)).trans (told_wr _ _ _ _ _ (by decide))

/-- A masked occurrence is the last source, and nothing else. -/
theorem evPost_masked (s : State) (r : Rec) (h : (s.rd Reg.EVT_MASK_BITS 0 (r.src / 32)).testBit (r.src % 32) = true) :
    s.evPost r = s.lastSrc r := by
  have hm : (s.lastSrc r).rd Reg.EVT_MASK_BITS 0 (r.src / 32) = s.rd Reg.EVT_MASK_BITS 0 (r.src / 32) :=
    (told_lastSrc s r).reg _ _ _ (by decide)
  unfold State.evPost
  exact if_pos (by rw [← hm] at h; exact h)

/-- An occurrence is the last source, and then at most a record is posted, held or dropped. -/
theorem evPost_posted (s : State) (r : Rec) : Posted (s.lastSrc r) (s.evPost r) := by
  unfold State.evPost
  dsimp only
  change Posted (s.lastSrc r) (if _ then s.lastSrc r else _)
  split
  · exact .refl _
  split
  · exact (posted_aoFlush _).trans (posted_postRec _ _)
  split
  · exact posted_evt _ _ (by rfl)
  · exact (posted_evt _ _ (by rfl)).trans (posted_wr _ _ _ _ _ (by decide))

/-- What processing one occurrence can change. -/
theorem evPost_told (s : State) (r : Rec) : Told flushIds s (s.evPost r) :=
  (told_lastSrc s r).trans ((evPost_posted s r).toTold.mono fun _ h => by simp [flushIds, h])

/-- What processing a command's events can change. -/
theorem evFlush_told (s : State) : Told flushIds s s.evFlush := by
  have h (l : List Rec) : ∀ t : State, Told flushIds t (l.foldl State.evPost t) := by
    induction l with
    | nil => exact .refl _
    | cons r l ih => exact fun t => (evPost_told t r).trans (ih _)
  exact (told_evt _ s _).trans (h _ _)

/-- A command without events has nothing to process. -/
theorem evFlush_none (s : State) (h : s.evt.burst = []) : s.evFlush = s := by
  have e : { s.evt with burst := [] } = s.evt := by rw [← h]
  unfold State.evFlush
  rw [e, h]
  rfl

/-- A field that no processing of events touches. -/
theorem rd_evFlush (s : State) (r : Row) (i j : Nat) (h : r.id ∉ flushIds) : s.evFlush.rd r i j = s.rd r i j := (evFlush_told s).reg r i j h

@[simp] theorem evFlush_pending (s : State) : s.evFlush.pending = s.pending := (evFlush_told s).pending
@[simp] theorem evFlush_time (s : State) : s.evFlush.time = s.time := (evFlush_told s).time
@[simp] theorem evFlush_chans (s : State) : s.evFlush.chans = s.chans := (evFlush_told s).chans
@[simp] theorem evFlush_spd (s : State) : s.evFlush.spd = s.spd := (evFlush_told s).spd
@[simp] theorem evFlush_mem (s : State) : s.evFlush.mem = s.mem := (evFlush_told s).mem
@[simp] theorem evFlush_cst (s : State) : s.evFlush.cst = s.cst := (evFlush_told s).cst
@[simp] theorem evFlush_mgt (s : State) : s.evFlush.mgt = s.mgt := (evFlush_told s).mgt
@[simp] theorem evFlush_pcr (s : State) : s.evFlush.pcr = s.pcr := (evFlush_told s).pcr

end Sys2Proof.Machine
end

