-- ==== Sys2Proof/Laws/Hif.lean ====
section
/-! SUPPORT. The path of host commands and of service-port messages: what it comes to for one that is taken. -/

namespace Sys2Proof.Machine

/-- A command that passes its checks has its effect. -/
theorem judge_passes (s : State) (op q flags ch tag plen eff : Nat) (zero : Bool) (p : Bytes) (key : Nat) (chk : OpChk) (run : OpRun)
    (h1 : preCheck s false op q flags ch plen eff zero p = none) (h2 : chk s ch p = none) :
    s.judge false op q flags ch tag plen eff zero p key chk run = s.perform false op q ch tag eff p key run := by
  unfold State.judge
  rw [h1]
  dsimp only
  rw [h2]

/-- A host command that its queue takes is carried out. -/
theorem hostCmd_takes (s : State) (i : Instr) (op : Nat) (h : Hdr) (p : Bytes) (chk : OpChk) (run : OpRun) (ht : s.Takes op h p chk) :
    s.hostCmd i op h p chk run = s.carried i op h p run := by
  obtain ⟨h1, h2, h3, h4, h5, h6, h7, h8, -⟩ := ht
  have hord : (h.flags.toNat.testBit 1 && ((s.popFetched h.qid.val).2.2.que h.qid.val).owes) = false := by
    cases hb : h.flags.toNat.testBit 1
    · rfl
    · simp [h4 hb]
  have hsnd : ¬ (h.qid.val ≥ 2 ∧ ((s.popFetched h.qid.val).2.2.chan (h.qid.val - 2)).intDue = true) := by
    rintro ⟨a, b⟩; simp [h6 a] at b
  have key : ∀ (b : Bool) (x : State), b = false →
      (if b = true then x else (s.popFetched h.qid.val).2.2.interpAt i (s.popFetched h.qid.val).1 op h p chk run) =
        s.carried i op h p run := by
    rintro b x rfl
    rw [if_neg (by decide)]
    unfold State.interpAt
    dsimp only
    rw [show ((s.popFetched h.qid.val).2.2.newKey h.qid.val).2 = s.front h.qid.val from rfl, judge_passes _ _ _ _ _ _ _ _ _ _ _ _ _ h7 h8]
    rfl
  unfold State.hostCmd
  simp only [h1, h2, h5, hord, hsnd, Bool.not_true, Bool.false_eq_true, if_false, Option.isSome_none, Bool.or_false]
  refine key _ _ ?_
  unfold Que.flushes
  split
  · next f hf => simpa using h3 f hf
  · rfl

/-- A service-port message that the core takes is acted on. -/
theorem svcMsg_takes (s : State) (snd seq typ : Nat) (act : State → State) (ht : s.TakesMsg snd seq typ) :
    s.svcMsg snd seq typ act = act (s.svcAccept snd seq) := by
  obtain ⟨h1, h2, h3, h4, h5⟩ := ht
  have hc : (s.svcRom && !([1, 2, 3, 4, 5, 8].contains typ)) = false := by
    cases hb : s.svcRom
    · rfl
    · simp only [h4 hb, Bool.not_true, Bool.and_false]
  unfold State.svcMsg
  rw [if_neg (by simp [h1, h2]), if_neg (by rw [h3]; decide), if_neg (by rw [hc]; decide), h5]

end Sys2Proof.Machine
end

