-- ==== Sys2Proof/Laws/Lanes.lean ====
section
/-! SUPPORT. The receiver's unstuffing undoes the transmitter's stuffing (R358). -/

namespace Sys2Proof.Machine

/-- A receiver that takes as many bits as were stuffed gets them back, whatever bits follow them. -/
theorem unstuff_stuff (l rest : List Bool) (last : Bool) (run : Nat) :
    unstuff l.length last run (stuff last run l ++ rest) = l := by
  induction l generalizing last run with
  | nil => cases rest <;> simp [unstuff]
  | cons b r ih =>
    by_cases h : (if b = last then run + 1 else 1) = 31 <;> simp [stuff, unstuff, h, ih]

end Sys2Proof.Machine
end

