-- ==== Sys2Proof/Laws/Mem.lean ====
section
/-! SUPPORT. The memories: each store changes one byte and keeps the canonical form. -/

namespace Sys2Proof.Machine

@[simp] theorem csRead_csWrite_same (m : Mem) (a : Nat) (b : Byte) : csRead (csWrite m a b) a = b := by simp [csRead, csWrite]
theorem csRead_csWrite_other (m : Mem) {a a' : Nat} (b : Byte) (h : a' ≠ a) : csRead (csWrite m a b) a' = csRead m a' := by
  simp [csRead, csWrite, tget_tset_other _ _ _ _ h]
@[simp] theorem dramRead_dramWrite_same (m : Mem) (a : Nat) (b : Byte) : dramRead (dramWrite m a b) a = b := by
  simp [dramRead, dramWrite]
theorem dramRead_dramWrite_other (m : Mem) {a a' : Nat} (b : Byte) (h : a' ≠ a) :
    dramRead (dramWrite m a b) a' = dramRead m a' := by
  simp [dramRead, dramWrite, tget_tset_other _ _ _ _ h]
@[simp] theorem flashRead_flashWrite_same (m : Mem) (a : Nat) (b : Byte) : flashRead (flashWrite m a b) a = b := by
  simp [flashRead, flashWrite]
theorem flashRead_flashWrite_other (m : Mem) {a a' : Nat} (b : Byte) (h : a' ≠ a) :
    flashRead (flashWrite m a b) a' = flashRead m a' := by
  simp [flashRead, flashWrite, tget_tset_other _ _ _ _ h]
@[simp] theorem sramRead_sramWrite_same (m : Mem) (a : Nat) (b : Byte) : sramRead (sramWrite m a b) a = b := by
  simp [sramRead, sramWrite]
theorem sramRead_sramWrite_other (m : Mem) {a a' : Nat} (b : Byte) (h : a' ≠ a) :
    sramRead (sramWrite m a b) a' = sramRead m a' := by
  simp [sramRead, sramWrite, tget_tset_other _ _ _ _ h]

theorem wf_iff (m : Mem) :
    m.wf = true ↔ twf 0 m.cs = true ∧ twf 0 m.dram = true ∧ twf 255 m.flash = true ∧ twf 0 m.sram = true := by
  simp [Mem.wf, and_assoc]

/-- Every store keeps the canonical form. -/
theorem wf_csWrite (m : Mem) (a : Nat) (b : Byte) (h : m.wf = true) : (csWrite m a b).wf = true := by
  rw [wf_iff] at h ⊢; exact ⟨twf_tset _ _ _ _ h.1, h.2⟩
theorem wf_dramWrite (m : Mem) (a : Nat) (b : Byte) (h : m.wf = true) : (dramWrite m a b).wf = true := by
  rw [wf_iff] at h ⊢; exact ⟨h.1, twf_tset _ _ _ _ h.2.1, h.2.2⟩
theorem wf_flashWrite (m : Mem) (a : Nat) (b : Byte) (h : m.wf = true) : (flashWrite m a b).wf = true := by
  rw [wf_iff] at h ⊢; exact ⟨h.1, h.2.1, twf_tset _ _ _ _ h.2.2.1, h.2.2.2⟩
theorem wf_sramWrite (m : Mem) (a : Nat) (b : Byte) (h : m.wf = true) : (sramWrite m a b).wf = true := by
  rw [wf_iff] at h ⊢; exact ⟨h.1, h.2.1, h.2.2.1, twf_tset _ _ _ _ h.2.2.2⟩

theorem wf_csWrites (m : Mem) (a : Nat) (p : Bytes) (h : m.wf = true) : (csWrites m a p).wf = true := by
  induction p generalizing m a with
  | nil => exact h
  | cons b r ih => exact ih _ _ (wf_csWrite m a b h)
theorem wf_dramWrites (m : Mem) (a : Nat) (p : Bytes) (h : m.wf = true) : (dramWrites m a p).wf = true := by
  induction p generalizing m a with
  | nil => exact h
  | cons b r ih => exact ih _ _ (wf_dramWrite m a b h)
theorem wf_flashWrites (m : Mem) (a : Nat) (p : Bytes) (h : m.wf = true) : (flashWrites m a p).wf = true := by
  induction p generalizing m a with
  | nil => exact h
  | cons b r ih => exact ih _ _ (wf_flashWrite m a b h)

/-- A store at an internal address keeps the canonical form and changes the memories alone. -/
theorem wf_setByte (s : State) (a : Nat) (b : Byte) (h : s.mem.wf = true) : (s.setByte a b).mem.wf = true := by
  unfold State.setByte
  split
  · exact wf_csWrite _ _ _ h
  · exact wf_dramWrite _ _ _ h
  · exact h

theorem wf_setBytes (s : State) (a : Nat) (p : Bytes) (h : s.mem.wf = true) : (s.setBytes a p).mem.wf = true := by
  induction p generalizing s a with
  | nil => exact h
  | cons b r ih => exact ih _ _ (wf_setByte s a b h)

@[simp] theorem setByte_regs (s : State) (a : Nat) (b : Byte) : (s.setByte a b).regs = s.regs := by
  unfold State.setByte; split <;> rfl

@[simp] theorem setByte_rd (s : State) (a : Nat) (b : Byte) (r : Row) (i j : Nat) : (s.setByte a b).rd r i j = s.rd r i j :=
  rd_congr (setByte_regs s a b) r i j

/-- The place of an address does not depend on the memories. -/
@[simp] theorem space_setByte (s : State) (a : Nat) (b : Byte) (x : Nat) : (s.setByte a b).space x = s.space x := by
  simp [State.space]

end Sys2Proof.Machine
end

