-- ==== Sys2Proof/Laws/Post.lean ====
section
/-! SUPPORT. Posting replies and completions, and handing on their commits: the memories and the pages of the store are no
part of it. -/

namespace Sys2Proof.Machine

/-- The memories and the store's pages are the same. -/
def State.SameStore (s t : State) : Prop := t.mem = s.mem ∧ t.cst = s.cst

theorem sameStore_refl (s : State) : s.SameStore s := ⟨rfl, rfl⟩
theorem sameStore_trans {s t u : State} (h : s.SameStore t) (k : t.SameStore u) : s.SameStore u := ⟨k.1.trans h.1, k.2.trans h.2⟩

theorem sameStore_ev (s : State) (src ch detail aux : Nat) : s.SameStore (s.ev src ch detail aux) := ⟨by simp, by simp⟩
theorem sameStore_wr (s : State) (r : Row) (v i j : Nat) : s.SameStore (s.wr r v i j) := ⟨rfl, rfl⟩

theorem sameStore_foldl {α : Type} (f : State → α → State) (h : ∀ (s : State) (a : α), s.SameStore (f s a)) (l : List α) (s : State) :
    s.SameStore (l.foldl f s) := by
  induction l generalizing s with
  | nil => exact sameStore_refl s
  | cons a l ih => exact sameStore_trans (h s a) (ih _)

theorem sameStore_cvuItem (s : State) (u : Nat) (p : Bytes) (addr seq : Option Nat) : s.SameStore (s.cvuItem u p addr seq) :=
  ⟨(posted_cvuItem s u p addr seq).mem, (posted_cvuItem s u p addr seq).cst⟩

theorem sameStore_signal (s : State) (q : Nat) (u : Bool) : s.SameStore (s.signal q u) := by
  unfold State.signal
  dsimp only
  split <;> exact ⟨rfl, rfl⟩

theorem sameStore_ringSlot (s : State) (q : Nat) : s.SameStore (s.ringSlot q).2 := by
  unfold State.ringSlot
  dsimp only
  split <;> exact ⟨rfl, rfl⟩

theorem sameStore_poolNote (s : State) (n : Nat) : s.SameStore (s.poolNote n) := by
  unfold State.poolNote
  generalize s.genCount = k
  have h : s.SameStore ((s.wr Reg.SPD_POOL_FREE k).wrMax Reg.SPD_POOLMAX_USED (14336 - k)) :=
    sameStore_trans (sameStore_wr _ _ _ _ _) (sameStore_wr _ _ _ _ _)
  dsimp only
  split
  · exact sameStore_trans h (sameStore_ev _ _ _ _ _)
  · exact h

theorem sameStore_putTask (s : State) (d : Nat) (t : Task) : s.SameStore (s.putTask d t) := by
  unfold State.putTask
  dsimp only
  generalize (if t.release = 0 then { t with release := s.tick } else t) = t
  split
  · exact ⟨rfl, rfl⟩
  · exact sameStore_trans (t := (s.wr Reg.SPD_GSEQ_NEXT (s.rd Reg.SPD_GSEQ_NEXT + 1)).setTask d _) ⟨rfl, rfl⟩ (sameStore_poolNote _ _)

theorem sameStore_commitTask (s : State) (c : Commit) : s.SameStore (s.commitTask c).2 := by
  unfold State.commitTask
  split
  · exact sameStore_refl s
  · exact sameStore_putTask _ _ _

/-- Handing a commit to the Spindle. -/
theorem sameStore_handCommit (s : State) (c : Commit) : s.SameStore (s.handCommit c) := by
  have h := sameStore_commitTask s c
  unfold State.handCommit
  generalize s.commitTask c = x at h
  obtain ⟨d, t⟩ := x
  dsimp only at h ⊢
  split
  · exact sameStore_refl s
  split
  · exact ⟨h.1, h.2⟩
  split
  · exact sameStore_trans (sameStore_trans h (show t.SameStore (t.setChan _ _) from ⟨rfl, rfl⟩)) (sameStore_ev _ _ _ _ _)
  · exact ⟨h.1, h.2⟩

theorem sameStore_postEntry (s : State) (q : Nat) (r : Rply) : s.SameStore (s.postEntry q r) := by
  have h1 (v : Bytes) (a b : Option Nat) (o : Out) : s.SameStore (((s.ringSlot q).2.cvuItem 956 v a b).emit o) :=
    sameStore_trans (sameStore_ringSlot s q) (sameStore_trans (sameStore_cvuItem _ _ _ _ _) ⟨rfl, rfl⟩)
  have h2 (t : State) (h : s.SameStore t) (u : Bool) : s.SameStore (t.signal q u) := sameStore_trans h (sameStore_signal _ _ _)
  have h3 (t : State) (h : s.SameStore t) : s.SameStore ((t.wr Reg.HIF_QSTAT_CQFULL 1 0 q).ev (evHif 6)) :=
    sameStore_trans h (sameStore_trans (sameStore_wr _ _ _ _ _) (sameStore_ev _ _ _ _ _))
  unfold State.postEntry
  dsimp only
  refine sameStore_trans ?_ (sameStore_foldl _ sameStore_handCommit _ _)
  generalize hx : State.emit _ _ = x
  have hs : s.SameStore x := hx ▸ h1 _ _ _ _
  have hq (v : Que) : s.SameStore (x.setQue q v) := ⟨hs.1, hs.2⟩
  split <;> split
  · exact h2 _ (hq _) _
  · exact h3 _ (h2 _ (hq _) _)
  · exact h2 _ hs _
  · exact h3 _ (h2 _ hs _)

theorem sameStore_traceAdd (s : State) (r : Trace) : s.SameStore (s.traceAdd r) := by
  unfold State.traceAdd
  dsimp only
  split <;> exact ⟨rfl, rfl⟩

theorem sameStore_traceTrig (s : State) (r : Trace) : s.SameStore (s.traceTrig r) := by
  unfold State.traceTrig
  repeat' split
  all_goals exact ⟨rfl, rfl⟩

/-- A record of the Spindle's log. -/
theorem sameStore_traceRec (s : State) (r : Trace) : s.SameStore (s.traceRec r) := by
  have hs (t : State) (h : s.SameStore t) : s.SameStore t.traceStop := ⟨h.1, h.2⟩
  have ha := sameStore_traceAdd s r
  unfold State.traceRec
  dsimp only
  split
  · exact sameStore_refl s
  split
  · exact hs _ (sameStore_refl s)
  split
  · exact hs _ ha
  split
  · exact sameStore_trans ha (sameStore_traceTrig _ _)
  · exact ha

theorem sameStore_stallBegin (s : State) : s.SameStore s.stallBegin := by
  unfold State.stallBegin
  split
  · exact sameStore_refl s
  · exact sameStore_trans (t := (({ s with spd := { s.spd with stallFrom := some s.ns } } : State).wr Reg.SPD_SPDSTAT_STALL 1).ev (evSpd 1)) ⟨rfl, rfl⟩
      (sameStore_traceRec _ _)

theorem sameStore_post (s : State) (q : Nat) : s.SameStore (s.post q) := by
  have h (n : Nat) : ∀ t : State, t.SameStore (postFuel n q t) := by
    induction n with
    | zero => exact sameStore_refl
    | succ n ih =>
      intro t
      unfold postFuel
      split
      · exact sameStore_refl t
      split
      · exact sameStore_refl t
      split
      · exact sameStore_stallBegin t
      · exact sameStore_trans (sameStore_trans (t := State.setQue _ _ _) ⟨rfl, rfl⟩ (sameStore_postEntry _ _ _)) (ih _)
  exact h _ s

/-- A reply. -/
theorem sameStore_reply (s : State) (q : Nat) (r : Rply) : s.SameStore (s.reply q r) := by
  unfold State.reply
  split
  · exact sameStore_foldl _ sameStore_handCommit _ _
  · exact sameStore_trans (t := State.setQue _ _ _) ⟨rfl, rfl⟩ (sameStore_post _ _)

/-- A completion. -/
theorem sameStore_complete (s : State) (key status detail r0 r1 : Nat) : s.SameStore (s.complete key status detail r0 r1) := by
  have h (n q : Nat) : ∀ t : State, t.SameStore (completeFuel n q t) := by
    induction n with
    | zero => exact sameStore_refl
    | succ n ih =>
      intro t
      unfold completeFuel
      dsimp only
      split
      · exact sameStore_refl t
      split
      · exact sameStore_refl t
      · refine sameStore_trans (sameStore_trans ?_ (sameStore_reply _ _ _)) (ih _)
        split
        · exact sameStore_trans (t := State.setQue _ _ _) ⟨rfl, rfl⟩ (sameStore_trans (sameStore_wr _ _ _ _ _) (sameStore_ev _ _ _ _ _))
        · exact ⟨rfl, rfl⟩
  unfold State.complete
  split
  · exact sameStore_refl s
  · exact sameStore_trans (t := State.setQue _ _ _) ⟨rfl, rfl⟩ (h _ _ _)

end Sys2Proof.Machine
end

