-- ==== Sys2Proof/Laws/State.lean ====
section
/-! SUPPORT. One lemma per field per update of the state: what an update leaves alone and what it sets. -/

namespace Sys2Proof.Machine

@[simp] theorem State.upd_pending_pending (s : State) v : ({ s with pending := v } : State).pending = v := rfl
@[simp] theorem State.upd_pending_out (s : State) v : ({ s with pending := v } : State).out = s.out := rfl
@[simp] theorem State.upd_pending_fresh (s : State) v : ({ s with pending := v } : State).fresh = s.fresh := rfl
@[simp] theorem State.upd_pending_regs (s : State) v : ({ s with pending := v } : State).regs = s.regs := rfl
@[simp] theorem State.upd_pending_hif (s : State) v : ({ s with pending := v } : State).hif = s.hif := rfl
@[simp] theorem State.upd_pending_evt (s : State) v : ({ s with pending := v } : State).evt = s.evt := rfl
@[simp] theorem State.upd_pending_time (s : State) v : ({ s with pending := v } : State).time = s.time := rfl
@[simp] theorem State.upd_pending_chans (s : State) v : ({ s with pending := v } : State).chans = s.chans := rfl
@[simp] theorem State.upd_pending_spd (s : State) v : ({ s with pending := v } : State).spd = s.spd := rfl
@[simp] theorem State.upd_pending_engs (s : State) v : ({ s with pending := v } : State).engs = s.engs := rfl
@[simp] theorem State.upd_pending_refs (s : State) v : ({ s with pending := v } : State).refs = s.refs := rfl
@[simp] theorem State.upd_pending_cmp (s : State) v : ({ s with pending := v } : State).cmp = s.cmp := rfl
@[simp] theorem State.upd_pending_cst (s : State) v : ({ s with pending := v } : State).cst = s.cst := rfl
@[simp] theorem State.upd_pending_mem (s : State) v : ({ s with pending := v } : State).mem = s.mem := rfl
@[simp] theorem State.upd_pending_stalled (s : State) v : ({ s with pending := v } : State).stalled = s.stalled := rfl
@[simp] theorem State.upd_pending_progs (s : State) v : ({ s with pending := v } : State).progs = s.progs := rfl
@[simp] theorem State.upd_pending_routes (s : State) v : ({ s with pending := v } : State).routes = s.routes := rfl
@[simp] theorem State.upd_pending_routesAct (s : State) v : ({ s with pending := v } : State).routesAct = s.routesAct := rfl
@[simp] theorem State.upd_pending_shps (s : State) v : ({ s with pending := v } : State).shps = s.shps := rfl
@[simp] theorem State.upd_pending_arbs (s : State) v : ({ s with pending := v } : State).arbs = s.arbs := rfl
@[simp] theorem State.upd_pending_pkrs (s : State) v : ({ s with pending := v } : State).pkrs = s.pkrs := rfl
@[simp] theorem State.upd_pending_pair (s : State) v : ({ s with pending := v } : State).pair = s.pair := rfl
@[simp] theorem State.upd_pending_inp (s : State) v : ({ s with pending := v } : State).inp = s.inp := rfl
@[simp] theorem State.upd_pending_aud (s : State) v : ({ s with pending := v } : State).aud = s.aud := rfl
@[simp] theorem State.upd_pending_blt (s : State) v : ({ s with pending := v } : State).blt = s.blt := rfl
@[simp] theorem State.upd_pending_dmc (s : State) v : ({ s with pending := v } : State).dmc = s.dmc := rfl
@[simp] theorem State.upd_pending_tst (s : State) v : ({ s with pending := v } : State).tst = s.tst := rfl
@[simp] theorem State.upd_pending_lanes (s : State) v : ({ s with pending := v } : State).lanes = s.lanes := rfl
@[simp] theorem State.upd_pending_cvu (s : State) v : ({ s with pending := v } : State).cvu = s.cvu := rfl
@[simp] theorem State.upd_pending_pcr (s : State) v : ({ s with pending := v } : State).pcr = s.pcr := rfl
@[simp] theorem State.upd_pending_mgt (s : State) v : ({ s with pending := v } : State).mgt = s.mgt := rfl
@[simp] theorem State.upd_out_pending (s : State) v : ({ s with out := v } : State).pending = s.pending := rfl
@[simp] theorem State.upd_out_out (s : State) v : ({ s with out := v } : State).out = v := rfl
@[simp] theorem State.upd_out_fresh (s : State) v : ({ s with out := v } : State).fresh = s.fresh := rfl
@[simp] theorem State.upd_out_regs (s : State) v : ({ s with out := v } : State).regs = s.regs := rfl
@[simp] theorem State.upd_out_hif (s : State) v : ({ s with out := v } : State).hif = s.hif := rfl
@[simp] theorem State.upd_out_evt (s : State) v : ({ s with out := v } : State).evt = s.evt := rfl
@[simp] theorem State.upd_out_time (s : State) v : ({ s with out := v } : State).time = s.time := rfl
@[simp] theorem State.upd_out_chans (s : State) v : ({ s with out := v } : State).chans = s.chans := rfl
@[simp] theorem State.upd_out_spd (s : State) v : ({ s with out := v } : State).spd = s.spd := rfl
@[simp] theorem State.upd_out_engs (s : State) v : ({ s with out := v } : State).engs = s.engs := rfl
@[simp] theorem State.upd_out_refs (s : State) v : ({ s with out := v } : State).refs = s.refs := rfl
@[simp] theorem State.upd_out_cmp (s : State) v : ({ s with out := v } : State).cmp = s.cmp := rfl
@[simp] theorem State.upd_out_cst (s : State) v : ({ s with out := v } : State).cst = s.cst := rfl
@[simp] theorem State.upd_out_mem (s : State) v : ({ s with out := v } : State).mem = s.mem := rfl
@[simp] theorem State.upd_out_stalled (s : State) v : ({ s with out := v } : State).stalled = s.stalled := rfl
@[simp] theorem State.upd_out_progs (s : State) v : ({ s with out := v } : State).progs = s.progs := rfl
@[simp] theorem State.upd_out_routes (s : State) v : ({ s with out := v } : State).routes = s.routes := rfl
@[simp] theorem State.upd_out_routesAct (s : State) v : ({ s with out := v } : State).routesAct = s.routesAct := rfl
@[simp] theorem State.upd_out_shps (s : State) v : ({ s with out := v } : State).shps = s.shps := rfl
@[simp] theorem State.upd_out_arbs (s : State) v : ({ s with out := v } : State).arbs = s.arbs := rfl
@[simp] theorem State.upd_out_pkrs (s : State) v : ({ s with out := v } : State).pkrs = s.pkrs := rfl
@[simp] theorem State.upd_out_pair (s : State) v : ({ s with out := v } : State).pair = s.pair := rfl
@[simp] theorem State.upd_out_inp (s : State) v : ({ s with out := v } : State).inp = s.inp := rfl
@[simp] theorem State.upd_out_aud (s : State) v : ({ s with out := v } : State).aud = s.aud := rfl
@[simp] theorem State.upd_out_blt (s : State) v : ({ s with out := v } : State).blt = s.blt := rfl
@[simp] theorem State.upd_out_dmc (s : State) v : ({ s with out := v } : State).dmc = s.dmc := rfl
@[simp] theorem State.upd_out_tst (s : State) v : ({ s with out := v } : State).tst = s.tst := rfl
@[simp] theorem State.upd_out_lanes (s : State) v : ({ s with out := v } : State).lanes = s.lanes := rfl
@[simp] theorem State.upd_out_cvu (s : State) v : ({ s with out := v } : State).cvu = s.cvu := rfl
@[simp] theorem State.upd_out_pcr (s : State) v : ({ s with out := v } : State).pcr = s.pcr := rfl
@[simp] theorem State.upd_out_mgt (s : State) v : ({ s with out := v } : State).mgt = s.mgt := rfl
@[simp] theorem State.upd_fresh_pending (s : State) v : ({ s with fresh := v } : State).pending = s.pending := rfl
@[simp] theorem State.upd_fresh_out (s : State) v : ({ s with fresh := v } : State).out = s.out := rfl
@[simp] theorem State.upd_fresh_fresh (s : State) v : ({ s with fresh := v } : State).fresh = v := rfl
@[simp] theorem State.upd_fresh_regs (s : State) v : ({ s with fresh := v } : State).regs = s.regs := rfl
@[simp] theorem State.upd_fresh_hif (s : State) v : ({ s with fresh := v } : State).hif = s.hif := rfl
@[simp] theorem State.upd_fresh_evt (s : State) v : ({ s with fresh := v } : State).evt = s.evt := rfl
@[simp] theorem State.upd_fresh_time (s : State) v : ({ s with fresh := v } : State).time = s.time := rfl
@[simp] theorem State.upd_fresh_chans (s : State) v : ({ s with fresh := v } : State).chans = s.chans := rfl
@[simp] theorem State.upd_fresh_spd (s : State) v : ({ s with fresh := v } : State).spd = s.spd := rfl
@[simp] theorem State.upd_fresh_engs (s : State) v : ({ s with fresh := v } : State).engs = s.engs := rfl
@[simp] theorem State.upd_fresh_refs (s : State) v : ({ s with fresh := v } : State).refs = s.refs := rfl
@[simp] theorem State.upd_fresh_cmp (s : State) v : ({ s with fresh := v } : State).cmp = s.cmp := rfl
@[simp] theorem State.upd_fresh_cst (s : State) v : ({ s with fresh := v } : State).cst = s.cst := rfl
@[simp] theorem State.upd_fresh_mem (s : State) v : ({ s with fresh := v } : State).mem = s.mem := rfl
@[simp] theorem State.upd_fresh_stalled (s : State) v : ({ s with fresh := v } : State).stalled = s.stalled := rfl
@[simp] theorem State.upd_fresh_progs (s : State) v : ({ s with fresh := v } : State).progs = s.progs := rfl
@[simp] theorem State.upd_fresh_routes (s : State) v : ({ s with fresh := v } : State).routes = s.routes := rfl
@[simp] theorem State.upd_fresh_routesAct (s : State) v : ({ s with fresh := v } : State).routesAct = s.routesAct := rfl
@[simp] theorem State.upd_fresh_shps (s : State) v : ({ s with fresh := v } : State).shps = s.shps := rfl
@[simp] theorem State.upd_fresh_arbs (s : State) v : ({ s with fresh := v } : State).arbs = s.arbs := rfl
@[simp] theorem State.upd_fresh_pkrs (s : State) v : ({ s with fresh := v } : State).pkrs = s.pkrs := rfl
@[simp] theorem State.upd_fresh_pair (s : State) v : ({ s with fresh := v } : State).pair = s.pair := rfl
@[simp] theorem State.upd_fresh_inp (s : State) v : ({ s with fresh := v } : State).inp = s.inp := rfl
@[simp] theorem State.upd_fresh_aud (s : State) v : ({ s with fresh := v } : State).aud = s.aud := rfl
@[simp] theorem State.upd_fresh_blt (s : State) v : ({ s with fresh := v } : State).blt = s.blt := rfl
@[simp] theorem State.upd_fresh_dmc (s : State) v : ({ s with fresh := v } : State).dmc = s.dmc := rfl
@[simp] theorem State.upd_fresh_tst (s : State) v : ({ s with fresh := v } : State).tst = s.tst := rfl
@[simp] theorem State.upd_fresh_lanes (s : State) v : ({ s with fresh := v } : State).lanes = s.lanes := rfl
@[simp] theorem State.upd_fresh_cvu (s : State) v : ({ s with fresh := v } : State).cvu = s.cvu := rfl
@[simp] theorem State.upd_fresh_pcr (s : State) v : ({ s with fresh := v } : State).pcr = s.pcr := rfl
@[simp] theorem State.upd_fresh_mgt (s : State) v : ({ s with fresh := v } : State).mgt = s.mgt := rfl
@[simp] theorem State.upd_regs_pending (s : State) v : ({ s with regs := v } : State).pending = s.pending := rfl
@[simp] theorem State.upd_regs_out (s : State) v : ({ s with regs := v } : State).out = s.out := rfl
@[simp] theorem State.upd_regs_fresh (s : State) v : ({ s with regs := v } : State).fresh = s.fresh := rfl
@[simp] theorem State.upd_regs_regs (s : State) v : ({ s with regs := v } : State).regs = v := rfl
@[simp] theorem State.upd_regs_hif (s : State) v : ({ s with regs := v } : State).hif = s.hif := rfl
@[simp] theorem State.upd_regs_evt (s : State) v : ({ s with regs := v } : State).evt = s.evt := rfl
@[simp] theorem State.upd_regs_time (s : State) v : ({ s with regs := v } : State).time = s.time := rfl
@[simp] theorem State.upd_regs_chans (s : State) v : ({ s with regs := v } : State).chans = s.chans := rfl
@[simp] theorem State.upd_regs_spd (s : State) v : ({ s with regs := v } : State).spd = s.spd := rfl
@[simp] theorem State.upd_regs_engs (s : State) v : ({ s with regs := v } : State).engs = s.engs := rfl
@[simp] theorem State.upd_regs_refs (s : State) v : ({ s with regs := v } : State).refs = s.refs := rfl
@[simp] theorem State.upd_regs_cmp (s : State) v : ({ s with regs := v } : State).cmp = s.cmp := rfl
@[simp] theorem State.upd_regs_cst (s : State) v : ({ s with regs := v } : State).cst = s.cst := rfl
@[simp] theorem State.upd_regs_mem (s : State) v : ({ s with regs := v } : State).mem = s.mem := rfl
@[simp] theorem State.upd_regs_stalled (s : State) v : ({ s with regs := v } : State).stalled = s.stalled := rfl
@[simp] theorem State.upd_regs_progs (s : State) v : ({ s with regs := v } : State).progs = s.progs := rfl
@[simp] theorem State.upd_regs_routes (s : State) v : ({ s with regs := v } : State).routes = s.routes := rfl
@[simp] theorem State.upd_regs_routesAct (s : State) v : ({ s with regs := v } : State).routesAct = s.routesAct := rfl
@[simp] theorem State.upd_regs_shps (s : State) v : ({ s with regs := v } : State).shps = s.shps := rfl
@[simp] theorem State.upd_regs_arbs (s : State) v : ({ s with regs := v } : State).arbs = s.arbs := rfl
@[simp] theorem State.upd_regs_pkrs (s : State) v : ({ s with regs := v } : State).pkrs = s.pkrs := rfl
@[simp] theorem State.upd_regs_pair (s : State) v : ({ s with regs := v } : State).pair = s.pair := rfl
@[simp] theorem State.upd_regs_inp (s : State) v : ({ s with regs := v } : State).inp = s.inp := rfl
@[simp] theorem State.upd_regs_aud (s : State) v : ({ s with regs := v } : State).aud = s.aud := rfl
@[simp] theorem State.upd_regs_blt (s : State) v : ({ s with regs := v } : State).blt = s.blt := rfl
@[simp] theorem State.upd_regs_dmc (s : State) v : ({ s with regs := v } : State).dmc = s.dmc := rfl
@[simp] theorem State.upd_regs_tst (s : State) v : ({ s with regs := v } : State).tst = s.tst := rfl
@[simp] theorem State.upd_regs_lanes (s : State) v : ({ s with regs := v } : State).lanes = s.lanes := rfl
@[simp] theorem State.upd_regs_cvu (s : State) v : ({ s with regs := v } : State).cvu = s.cvu := rfl
@[simp] theorem State.upd_regs_pcr (s : State) v : ({ s with regs := v } : State).pcr = s.pcr := rfl
@[simp] theorem State.upd_regs_mgt (s : State) v : ({ s with regs := v } : State).mgt = s.mgt := rfl
@[simp] theorem State.upd_hif_pending (s : State) v : ({ s with hif := v } : State).pending = s.pending := rfl
@[simp] theorem State.upd_hif_out (s : State) v : ({ s with hif := v } : State).out = s.out := rfl
@[simp] theorem State.upd_hif_fresh (s : State) v : ({ s with hif := v } : State).fresh = s.fresh := rfl
@[simp] theorem State.upd_hif_regs (s : State) v : ({ s with hif := v } : State).regs = s.regs := rfl
@[simp] theorem State.upd_hif_hif (s : State) v : ({ s with hif := v } : State).hif = v := rfl
@[simp] theorem State.upd_hif_evt (s : State) v : ({ s with hif := v } : State).evt = s.evt := rfl
@[simp] theorem State.upd_hif_time (s : State) v : ({ s with hif := v } : State).time = s.time := rfl
@[simp] theorem State.upd_hif_chans (s : State) v : ({ s with hif := v } : State).chans = s.chans := rfl
@[simp] theorem State.upd_hif_spd (s : State) v : ({ s with hif := v } : State).spd = s.spd := rfl
@[simp] theorem State.upd_hif_engs (s : State) v : ({ s with hif := v } : State).engs = s.engs := rfl
@[simp] theorem State.upd_hif_refs (s : State) v : ({ s with hif := v } : State).refs = s.refs := rfl
@[simp] theorem State.upd_hif_cmp (s : State) v : ({ s with hif := v } : State).cmp = s.cmp := rfl
@[simp] theorem State.upd_hif_cst (s : State) v : ({ s with hif := v } : State).cst = s.cst := rfl
@[simp] theorem State.upd_hif_mem (s : State) v : ({ s with hif := v } : State).mem = s.mem := rfl
@[simp] theorem State.upd_hif_stalled (s : State) v : ({ s with hif := v } : State).stalled = s.stalled := rfl
@[simp] theorem State.upd_hif_progs (s : State) v : ({ s with hif := v } : State).progs = s.progs := rfl
@[simp] theorem State.upd_hif_routes (s : State) v : ({ s with hif := v } : State).routes = s.routes := rfl
@[simp] theorem State.upd_hif_routesAct (s : State) v : ({ s with hif := v } : State).routesAct = s.routesAct := rfl
@[simp] theorem State.upd_hif_shps (s : State) v : ({ s with hif := v } : State).shps = s.shps := rfl
@[simp] theorem State.upd_hif_arbs (s : State) v : ({ s with hif := v } : State).arbs = s.arbs := rfl
@[simp] theorem State.upd_hif_pkrs (s : State) v : ({ s with hif := v } : State).pkrs = s.pkrs := rfl
@[simp] theorem State.upd_hif_pair (s : State) v : ({ s with hif := v } : State).pair = s.pair := rfl
@[simp] theorem State.upd_hif_inp (s : State) v : ({ s with hif := v } : State).inp = s.inp := rfl
@[simp] theorem State.upd_hif_aud (s : State) v : ({ s with hif := v } : State).aud = s.aud := rfl
@[simp] theorem State.upd_hif_blt (s : State) v : ({ s with hif := v } : State).blt = s.blt := rfl
@[simp] theorem State.upd_hif_dmc (s : State) v : ({ s with hif := v } : State).dmc = s.dmc := rfl
@[simp] theorem State.upd_hif_tst (s : State) v : ({ s with hif := v } : State).tst = s.tst := rfl
@[simp] theorem State.upd_hif_lanes (s : State) v : ({ s with hif := v } : State).lanes = s.lanes := rfl
@[simp] theorem State.upd_hif_cvu (s : State) v : ({ s with hif := v } : State).cvu = s.cvu := rfl
@[simp] theorem State.upd_hif_pcr (s : State) v : ({ s with hif := v } : State).pcr = s.pcr := rfl
@[simp] theorem State.upd_hif_mgt (s : State) v : ({ s with hif := v } : State).mgt = s.mgt := rfl
@[simp] theorem State.upd_evt_pending (s : State) v : ({ s with evt := v } : State).pending = s.pending := rfl
@[simp] theorem State.upd_evt_out (s : State) v : ({ s with evt := v } : State).out = s.out := rfl
@[simp] theorem State.upd_evt_fresh (s : State) v : ({ s with evt := v } : State).fresh = s.fresh := rfl
@[simp] theorem State.upd_evt_regs (s : State) v : ({ s with evt := v } : State).regs = s.regs := rfl
@[simp] theorem State.upd_evt_hif (s : State) v : ({ s with evt := v } : State).hif = s.hif := rfl
@[simp] theorem State.upd_evt_evt (s : State) v : ({ s with evt := v } : State).evt = v := rfl
@[simp] theorem State.upd_evt_time (s : State) v : ({ s with evt := v } : State).time = s.time := rfl
@[simp] theorem State.upd_evt_chans (s : State) v : ({ s with evt := v } : State).chans = s.chans := rfl
@[simp] theorem State.upd_evt_spd (s : State) v : ({ s with evt := v } : State).spd = s.spd := rfl
@[simp] theorem State.upd_evt_engs (s : State) v : ({ s with evt := v } : State).engs = s.engs := rfl
@[simp] theorem State.upd_evt_refs (s : State) v : ({ s with evt := v } : State).refs = s.refs := rfl
@[simp] theorem State.upd_evt_cmp (s : State) v : ({ s with evt := v } : State).cmp = s.cmp := rfl
@[simp] theorem State.upd_evt_cst (s : State) v : ({ s with evt := v } : State).cst = s.cst := rfl
@[simp] theorem State.upd_evt_mem (s : State) v : ({ s with evt := v } : State).mem = s.mem := rfl
@[simp] theorem State.upd_evt_stalled (s : State) v : ({ s with evt := v } : State).stalled = s.stalled := rfl
@[simp] theorem State.upd_evt_progs (s : State) v : ({ s with evt := v } : State).progs = s.progs := rfl
@[simp] theorem State.upd_evt_routes (s : State) v : ({ s with evt := v } : State).routes = s.routes := rfl
@[simp] theorem State.upd_evt_routesAct (s : State) v : ({ s with evt := v } : State).routesAct = s.routesAct := rfl
@[simp] theorem State.upd_evt_shps (s : State) v : ({ s with evt := v } : State).shps = s.shps := rfl
@[simp] theorem State.upd_evt_arbs (s : State) v : ({ s with evt := v } : State).arbs = s.arbs := rfl
@[simp] theorem State.upd_evt_pkrs (s : State) v : ({ s with evt := v } : State).pkrs = s.pkrs := rfl
@[simp] theorem State.upd_evt_pair (s : State) v : ({ s with evt := v } : State).pair = s.pair := rfl
@[simp] theorem State.upd_evt_inp (s : State) v : ({ s with evt := v } : State).inp = s.inp := rfl
@[simp] theorem State.upd_evt_aud (s : State) v : ({ s with evt := v } : State).aud = s.aud := rfl
@[simp] theorem State.upd_evt_blt (s : State) v : ({ s with evt := v } : State).blt = s.blt := rfl
@[simp] theorem State.upd_evt_dmc (s : State) v : ({ s with evt := v } : State).dmc = s.dmc := rfl
@[simp] theorem State.upd_evt_tst (s : State) v : ({ s with evt := v } : State).tst = s.tst := rfl
@[simp] theorem State.upd_evt_lanes (s : State) v : ({ s with evt := v } : State).lanes = s.lanes := rfl
@[simp] theorem State.upd_evt_cvu (s : State) v : ({ s with evt := v } : State).cvu = s.cvu := rfl
@[simp] theorem State.upd_evt_pcr (s : State) v : ({ s with evt := v } : State).pcr = s.pcr := rfl
@[simp] theorem State.upd_evt_mgt (s : State) v : ({ s with evt := v } : State).mgt = s.mgt := rfl
@[simp] theorem State.upd_time_pending (s : State) v : ({ s with time := v } : State).pending = s.pending := rfl
@[simp] theorem State.upd_time_out (s : State) v : ({ s with time := v } : State).out = s.out := rfl
@[simp] theorem State.upd_time_fresh (s : State) v : ({ s with time := v } : State).fresh = s.fresh := rfl
@[simp] theorem State.upd_time_regs (s : State) v : ({ s with time := v } : State).regs = s.regs := rfl
@[simp] theorem State.upd_time_hif (s : State) v : ({ s with time := v } : State).hif = s.hif := rfl
@[simp] theorem State.upd_time_evt (s : State) v : ({ s with time := v } : State).evt = s.evt := rfl
@[simp] theorem State.upd_time_time (s : State) v : ({ s with time := v } : State).time = v := rfl
@[simp] theorem State.upd_time_chans (s : State) v : ({ s with time := v } : State).chans = s.chans := rfl
@[simp] theorem State.upd_time_spd (s : State) v : ({ s with time := v } : State).spd = s.spd := rfl
@[simp] theorem State.upd_time_engs (s : State) v : ({ s with time := v } : State).engs = s.engs := rfl
@[simp] theorem State.upd_time_refs (s : State) v : ({ s with time := v } : State).refs = s.refs := rfl
@[simp] theorem State.upd_time_cmp (s : State) v : ({ s with time := v } : State).cmp = s.cmp := rfl
@[simp] theorem State.upd_time_cst (s : State) v : ({ s with time := v } : State).cst = s.cst := rfl
@[simp] theorem State.upd_time_mem (s : State) v : ({ s with time := v } : State).mem = s.mem := rfl
@[simp] theorem State.upd_time_stalled (s : State) v : ({ s with time := v } : State).stalled = s.stalled := rfl
@[simp] theorem State.upd_time_progs (s : State) v : ({ s with time := v } : State).progs = s.progs := rfl
@[simp] theorem State.upd_time_routes (s : State) v : ({ s with time := v } : State).routes = s.routes := rfl
@[simp] theorem State.upd_time_routesAct (s : State) v : ({ s with time := v } : State).routesAct = s.routesAct := rfl
@[simp] theorem State.upd_time_shps (s : State) v : ({ s with time := v } : State).shps = s.shps := rfl
@[simp] theorem State.upd_time_arbs (s : State) v : ({ s with time := v } : State).arbs = s.arbs := rfl
@[simp] theorem State.upd_time_pkrs (s : State) v : ({ s with time := v } : State).pkrs = s.pkrs := rfl
@[simp] theorem State.upd_time_pair (s : State) v : ({ s with time := v } : State).pair = s.pair := rfl
@[simp] theorem State.upd_time_inp (s : State) v : ({ s with time := v } : State).inp = s.inp := rfl
@[simp] theorem State.upd_time_aud (s : State) v : ({ s with time := v } : State).aud = s.aud := rfl
@[simp] theorem State.upd_time_blt (s : State) v : ({ s with time := v } : State).blt = s.blt := rfl
@[simp] theorem State.upd_time_dmc (s : State) v : ({ s with time := v } : State).dmc = s.dmc := rfl
@[simp] theorem State.upd_time_tst (s : State) v : ({ s with time := v } : State).tst = s.tst := rfl
@[simp] theorem State.upd_time_lanes (s : State) v : ({ s with time := v } : State).lanes = s.lanes := rfl
@[simp] theorem State.upd_time_cvu (s : State) v : ({ s with time := v } : State).cvu = s.cvu := rfl
@[simp] theorem State.upd_time_pcr (s : State) v : ({ s with time := v } : State).pcr = s.pcr := rfl
@[simp] theorem State.upd_time_mgt (s : State) v : ({ s with time := v } : State).mgt = s.mgt := rfl
@[simp] theorem State.upd_chans_pending (s : State) v : ({ s with chans := v } : State).pending = s.pending := rfl
@[simp] theorem State.upd_chans_out (s : State) v : ({ s with chans := v } : State).out = s.out := rfl
@[simp] theorem State.upd_chans_fresh (s : State) v : ({ s with chans := v } : State).fresh = s.fresh := rfl
@[simp] theorem State.upd_chans_regs (s : State) v : ({ s with chans := v } : State).regs = s.regs := rfl
@[simp] theorem State.upd_chans_hif (s : State) v : ({ s with chans := v } : State).hif = s.hif := rfl
@[simp] theorem State.upd_chans_evt (s : State) v : ({ s with chans := v } : State).evt = s.evt := rfl
@[simp] theorem State.upd_chans_time (s : State) v : ({ s with chans := v } : State).time = s.time := rfl
@[simp] theorem State.upd_chans_chans (s : State) v : ({ s with chans := v } : State).chans = v := rfl
@[simp] theorem State.upd_chans_spd (s : State) v : ({ s with chans := v } : State).spd = s.spd := rfl
@[simp] theorem State.upd_chans_engs (s : State) v : ({ s with chans := v } : State).engs = s.engs := rfl
@[simp] theorem State.upd_chans_refs (s : State) v : ({ s with chans := v } : State).refs = s.refs := rfl
@[simp] theorem State.upd_chans_cmp (s : State) v : ({ s with chans := v } : State).cmp = s.cmp := rfl
@[simp] theorem State.upd_chans_cst (s : State) v : ({ s with chans := v } : State).cst = s.cst := rfl
@[simp] theorem State.upd_chans_mem (s : State) v : ({ s with chans := v } : State).mem = s.mem := rfl
@[simp] theorem State.upd_chans_stalled (s : State) v : ({ s with chans := v } : State).stalled = s.stalled := rfl
@[simp] theorem State.upd_chans_progs (s : State) v : ({ s with chans := v } : State).progs = s.progs := rfl
@[simp] theorem State.upd_chans_routes (s : State) v : ({ s with chans := v } : State).routes = s.routes := rfl
@[simp] theorem State.upd_chans_routesAct (s : State) v : ({ s with chans := v } : State).routesAct = s.routesAct := rfl
@[simp] theorem State.upd_chans_shps (s : State) v : ({ s with chans := v } : State).shps = s.shps := rfl
@[simp] theorem State.upd_chans_arbs (s : State) v : ({ s with chans := v } : State).arbs = s.arbs := rfl
@[simp] theorem State.upd_chans_pkrs (s : State) v : ({ s with chans := v } : State).pkrs = s.pkrs := rfl
@[simp] theorem State.upd_chans_pair (s : State) v : ({ s with chans := v } : State).pair = s.pair := rfl
@[simp] theorem State.upd_chans_inp (s : State) v : ({ s with chans := v } : State).inp = s.inp := rfl
@[simp] theorem State.upd_chans_aud (s : State) v : ({ s with chans := v } : State).aud = s.aud := rfl
@[simp] theorem State.upd_chans_blt (s : State) v : ({ s with chans := v } : State).blt = s.blt := rfl
@[simp] theorem State.upd_chans_dmc (s : State) v : ({ s with chans := v } : State).dmc = s.dmc := rfl
@[simp] theorem State.upd_chans_tst (s : State) v : ({ s with chans := v } : State).tst = s.tst := rfl
@[simp] theorem State.upd_chans_lanes (s : State) v : ({ s with chans := v } : State).lanes = s.lanes := rfl
@[simp] theorem State.upd_chans_cvu (s : State) v : ({ s with chans := v } : State).cvu = s.cvu := rfl
@[simp] theorem State.upd_chans_pcr (s : State) v : ({ s with chans := v } : State).pcr = s.pcr := rfl
@[simp] theorem State.upd_chans_mgt (s : State) v : ({ s with chans := v } : State).mgt = s.mgt := rfl
@[simp] theorem State.upd_spd_pending (s : State) v : ({ s with spd := v } : State).pending = s.pending := rfl
@[simp] theorem State.upd_spd_out (s : State) v : ({ s with spd := v } : State).out = s.out := rfl
@[simp] theorem State.upd_spd_fresh (s : State) v : ({ s with spd := v } : State).fresh = s.fresh := rfl
@[simp] theorem State.upd_spd_regs (s : State) v : ({ s with spd := v } : State).regs = s.regs := rfl
@[simp] theorem State.upd_spd_hif (s : State) v : ({ s with spd := v } : State).hif = s.hif := rfl
@[simp] theorem State.upd_spd_evt (s : State) v : ({ s with spd := v } : State).evt = s.evt := rfl
@[simp] theorem State.upd_spd_time (s : State) v : ({ s with spd := v } : State).time = s.time := rfl
@[simp] theorem State.upd_spd_chans (s : State) v : ({ s with spd := v } : State).chans = s.chans := rfl
@[simp] theorem State.upd_spd_spd (s : State) v : ({ s with spd := v } : State).spd = v := rfl
@[simp] theorem State.upd_spd_engs (s : State) v : ({ s with spd := v } : State).engs = s.engs := rfl
@[simp] theorem State.upd_spd_refs (s : State) v : ({ s with spd := v } : State).refs = s.refs := rfl
@[simp] theorem State.upd_spd_cmp (s : State) v : ({ s with spd := v } : State).cmp = s.cmp := rfl
@[simp] theorem State.upd_spd_cst (s : State) v : ({ s with spd := v } : State).cst = s.cst := rfl
@[simp] theorem State.upd_spd_mem (s : State) v : ({ s with spd := v } : State).mem = s.mem := rfl
@[simp] theorem State.upd_spd_stalled (s : State) v : ({ s with spd := v } : State).stalled = s.stalled := rfl
@[simp] theorem State.upd_spd_progs (s : State) v : ({ s with spd := v } : State).progs = s.progs := rfl
@[simp] theorem State.upd_spd_routes (s : State) v : ({ s with spd := v } : State).routes = s.routes := rfl
@[simp] theorem State.upd_spd_routesAct (s : State) v : ({ s with spd := v } : State).routesAct = s.routesAct := rfl
@[simp] theorem State.upd_spd_shps (s : State) v : ({ s with spd := v } : State).shps = s.shps := rfl
@[simp] theorem State.upd_spd_arbs (s : State) v : ({ s with spd := v } : State).arbs = s.arbs := rfl
@[simp] theorem State.upd_spd_pkrs (s : State) v : ({ s with spd := v } : State).pkrs = s.pkrs := rfl
@[simp] theorem State.upd_spd_pair (s : State) v : ({ s with spd := v } : State).pair = s.pair := rfl
@[simp] theorem State.upd_spd_inp (s : State) v : ({ s with spd := v } : State).inp = s.inp := rfl
@[simp] theorem State.upd_spd_aud (s : State) v : ({ s with spd := v } : State).aud = s.aud := rfl
@[simp] theorem State.upd_spd_blt (s : State) v : ({ s with spd := v } : State).blt = s.blt := rfl
@[simp] theorem State.upd_spd_dmc (s : State) v : ({ s with spd := v } : State).dmc = s.dmc := rfl
@[simp] theorem State.upd_spd_tst (s : State) v : ({ s with spd := v } : State).tst = s.tst := rfl
@[simp] theorem State.upd_spd_lanes (s : State) v : ({ s with spd := v } : State).lanes = s.lanes := rfl
@[simp] theorem State.upd_spd_cvu (s : State) v : ({ s with spd := v } : State).cvu = s.cvu := rfl
@[simp] theorem State.upd_spd_pcr (s : State) v : ({ s with spd := v } : State).pcr = s.pcr := rfl
@[simp] theorem State.upd_spd_mgt (s : State) v : ({ s with spd := v } : State).mgt = s.mgt := rfl
@[simp] theorem State.upd_engs_pending (s : State) v : ({ s with engs := v } : State).pending = s.pending := rfl
@[simp] theorem State.upd_engs_out (s : State) v : ({ s with engs := v } : State).out = s.out := rfl
@[simp] theorem State.upd_engs_fresh (s : State) v : ({ s with engs := v } : State).fresh = s.fresh := rfl
@[simp] theorem State.upd_engs_regs (s : State) v : ({ s with engs := v } : State).regs = s.regs := rfl
@[simp] theorem State.upd_engs_hif (s : State) v : ({ s with engs := v } : State).hif = s.hif := rfl
@[simp] theorem State.upd_engs_evt (s : State) v : ({ s with engs := v } : State).evt = s.evt := rfl
@[simp] theorem State.upd_engs_time (s : State) v : ({ s with engs := v } : State).time = s.time := rfl
@[simp] theorem State.upd_engs_chans (s : State) v : ({ s with engs := v } : State).chans = s.chans := rfl
@[simp] theorem State.upd_engs_spd (s : State) v : ({ s with engs := v } : State).spd = s.spd := rfl
@[simp] theorem State.upd_engs_engs (s : State) v : ({ s with engs := v } : State).engs = v := rfl
@[simp] theorem State.upd_engs_refs (s : State) v : ({ s with engs := v } : State).refs = s.refs := rfl
@[simp] theorem State.upd_engs_cmp (s : State) v : ({ s with engs := v } : State).cmp = s.cmp := rfl
@[simp] theorem State.upd_engs_cst (s : State) v : ({ s with engs := v } : State).cst = s.cst := rfl
@[simp] theorem State.upd_engs_mem (s : State) v : ({ s with engs := v } : State).mem = s.mem := rfl
@[simp] theorem State.upd_engs_stalled (s : State) v : ({ s with engs := v } : State).stalled = s.stalled := rfl
@[simp] theorem State.upd_engs_progs (s : State) v : ({ s with engs := v } : State).progs = s.progs := rfl
@[simp] theorem State.upd_engs_routes (s : State) v : ({ s with engs := v } : State).routes = s.routes := rfl
@[simp] theorem State.upd_engs_routesAct (s : State) v : ({ s with engs := v } : State).routesAct = s.routesAct := rfl
@[simp] theorem State.upd_engs_shps (s : State) v : ({ s with engs := v } : State).shps = s.shps := rfl
@[simp] theorem State.upd_engs_arbs (s : State) v : ({ s with engs := v } : State).arbs = s.arbs := rfl
@[simp] theorem State.upd_engs_pkrs (s : State) v : ({ s with engs := v } : State).pkrs = s.pkrs := rfl
@[simp] theorem State.upd_engs_pair (s : State) v : ({ s with engs := v } : State).pair = s.pair := rfl
@[simp] theorem State.upd_engs_inp (s : State) v : ({ s with engs := v } : State).inp = s.inp := rfl
@[simp] theorem State.upd_engs_aud (s : State) v : ({ s with engs := v } : State).aud = s.aud := rfl
@[simp] theorem State.upd_engs_blt (s : State) v : ({ s with engs := v } : State).blt = s.blt := rfl
@[simp] theorem State.upd_engs_dmc (s : State) v : ({ s with engs := v } : State).dmc = s.dmc := rfl
@[simp] theorem State.upd_engs_tst (s : State) v : ({ s with engs := v } : State).tst = s.tst := rfl
@[simp] theorem State.upd_engs_lanes (s : State) v : ({ s with engs := v } : State).lanes = s.lanes := rfl
@[simp] theorem State.upd_engs_cvu (s : State) v : ({ s with engs := v } : State).cvu = s.cvu := rfl
@[simp] theorem State.upd_engs_pcr (s : State) v : ({ s with engs := v } : State).pcr = s.pcr := rfl
@[simp] theorem State.upd_engs_mgt (s : State) v : ({ s with engs := v } : State).mgt = s.mgt := rfl
@[simp] theorem State.upd_refs_pending (s : State) v : ({ s with refs := v } : State).pending = s.pending := rfl
@[simp] theorem State.upd_refs_out (s : State) v : ({ s with refs := v } : State).out = s.out := rfl
@[simp] theorem State.upd_refs_fresh (s : State) v : ({ s with refs := v } : State).fresh = s.fresh := rfl
@[simp] theorem State.upd_refs_regs (s : State) v : ({ s with refs := v } : State).regs = s.regs := rfl
@[simp] theorem State.upd_refs_hif (s : State) v : ({ s with refs := v } : State).hif = s.hif := rfl
@[simp] theorem State.upd_refs_evt (s : State) v : ({ s with refs := v } : State).evt = s.evt := rfl
@[simp] theorem State.upd_refs_time (s : State) v : ({ s with refs := v } : State).time = s.time := rfl
@[simp] theorem State.upd_refs_chans (s : State) v : ({ s with refs := v } : State).chans = s.chans := rfl
@[simp] theorem State.upd_refs_spd (s : State) v : ({ s with refs := v } : State).spd = s.spd := rfl
@[simp] theorem State.upd_refs_engs (s : State) v : ({ s with refs := v } : State).engs = s.engs := rfl
@[simp] theorem State.upd_refs_refs (s : State) v : ({ s with refs := v } : State).refs = v := rfl
@[simp] theorem State.upd_refs_cmp (s : State) v : ({ s with refs := v } : State).cmp = s.cmp := rfl
@[simp] theorem State.upd_refs_cst (s : State) v : ({ s with refs := v } : State).cst = s.cst := rfl
@[simp] theorem State.upd_refs_mem (s : State) v : ({ s with refs := v } : State).mem = s.mem := rfl
@[simp] theorem State.upd_refs_stalled (s : State) v : ({ s with refs := v } : State).stalled = s.stalled := rfl
@[simp] theorem State.upd_refs_progs (s : State) v : ({ s with refs := v } : State).progs = s.progs := rfl
@[simp] theorem State.upd_refs_routes (s : State) v : ({ s with refs := v } : State).routes = s.routes := rfl
@[simp] theorem State.upd_refs_routesAct (s : State) v : ({ s with refs := v } : State).routesAct = s.routesAct := rfl
@[simp] theorem State.upd_refs_shps (s : State) v : ({ s with refs := v } : State).shps = s.shps := rfl
@[simp] theorem State.upd_refs_arbs (s : State) v : ({ s with refs := v } : State).arbs = s.arbs := rfl
@[simp] theorem State.upd_refs_pkrs (s : State) v : ({ s with refs := v } : State).pkrs = s.pkrs := rfl
@[simp] theorem State.upd_refs_pair (s : State) v : ({ s with refs := v } : State).pair = s.pair := rfl
@[simp] theorem State.upd_refs_inp (s : State) v : ({ s with refs := v } : State).inp = s.inp := rfl
@[simp] theorem State.upd_refs_aud (s : State) v : ({ s with refs := v } : State).aud = s.aud := rfl
@[simp] theorem State.upd_refs_blt (s : State) v : ({ s with refs := v } : State).blt = s.blt := rfl
@[simp] theorem State.upd_refs_dmc (s : State) v : ({ s with refs := v } : State).dmc = s.dmc := rfl
@[simp] theorem State.upd_refs_tst (s : State) v : ({ s with refs := v } : State).tst = s.tst := rfl
@[simp] theorem State.upd_refs_lanes (s : State) v : ({ s with refs := v } : State).lanes = s.lanes := rfl
@[simp] theorem State.upd_refs_cvu (s : State) v : ({ s with refs := v } : State).cvu = s.cvu := rfl
@[simp] theorem State.upd_refs_pcr (s : State) v : ({ s with refs := v } : State).pcr = s.pcr := rfl
@[simp] theorem State.upd_refs_mgt (s : State) v : ({ s with refs := v } : State).mgt = s.mgt := rfl
@[simp] theorem State.upd_cmp_pending (s : State) v : ({ s with cmp := v } : State).pending = s.pending := rfl
@[simp] theorem State.upd_cmp_out (s : State) v : ({ s with cmp := v } : State).out = s.out := rfl
@[simp] theorem State.upd_cmp_fresh (s : State) v : ({ s with cmp := v } : State).fresh = s.fresh := rfl
@[simp] theorem State.upd_cmp_regs (s : State) v : ({ s with cmp := v } : State).regs = s.regs := rfl
@[simp] theorem State.upd_cmp_hif (s : State) v : ({ s with cmp := v } : State).hif = s.hif := rfl
@[simp] theorem State.upd_cmp_evt (s : State) v : ({ s with cmp := v } : State).evt = s.evt := rfl
@[simp] theorem State.upd_cmp_time (s : State) v : ({ s with cmp := v } : State).time = s.time := rfl
@[simp] theorem State.upd_cmp_chans (s : State) v : ({ s with cmp := v } : State).chans = s.chans := rfl
@[simp] theorem State.upd_cmp_spd (s : State) v : ({ s with cmp := v } : State).spd = s.spd := rfl
@[simp] theorem State.upd_cmp_engs (s : State) v : ({ s with cmp := v } : State).engs = s.engs := rfl
@[simp] theorem State.upd_cmp_refs (s : State) v : ({ s with cmp := v } : State).refs = s.refs := rfl
@[simp] theorem State.upd_cmp_cmp (s : State) v : ({ s with cmp := v } : State).cmp = v := rfl
@[simp] theorem State.upd_cmp_cst (s : State) v : ({ s with cmp := v } : State).cst = s.cst := rfl
@[simp] theorem State.upd_cmp_mem (s : State) v : ({ s with cmp := v } : State).mem = s.mem := rfl
@[simp] theorem State.upd_cmp_stalled (s : State) v : ({ s with cmp := v } : State).stalled = s.stalled := rfl
@[simp] theorem State.upd_cmp_progs (s : State) v : ({ s with cmp := v } : State).progs = s.progs := rfl
@[simp] theorem State.upd_cmp_routes (s : State) v : ({ s with cmp := v } : State).routes = s.routes := rfl
@[simp] theorem State.upd_cmp_routesAct (s : State) v : ({ s with cmp := v } : State).routesAct = s.routesAct := rfl
@[simp] theorem State.upd_cmp_shps (s : State) v : ({ s with cmp := v } : State).shps = s.shps := rfl
@[simp] theorem State.upd_cmp_arbs (s : State) v : ({ s with cmp := v } : State).arbs = s.arbs := rfl
@[simp] theorem State.upd_cmp_pkrs (s : State) v : ({ s with cmp := v } : State).pkrs = s.pkrs := rfl
@[simp] theorem State.upd_cmp_pair (s : State) v : ({ s with cmp := v } : State).pair = s.pair := rfl
@[simp] theorem State.upd_cmp_inp (s : State) v : ({ s with cmp := v } : State).inp = s.inp := rfl
@[simp] theorem State.upd_cmp_aud (s : State) v : ({ s with cmp := v } : State).aud = s.aud := rfl
@[simp] theorem State.upd_cmp_blt (s : State) v : ({ s with cmp := v } : State).blt = s.blt := rfl
@[simp] theorem State.upd_cmp_dmc (s : State) v : ({ s with cmp := v } : State).dmc = s.dmc := rfl
@[simp] theorem State.upd_cmp_tst (s : State) v : ({ s with cmp := v } : State).tst = s.tst := rfl
@[simp] theorem State.upd_cmp_lanes (s : State) v : ({ s with cmp := v } : State).lanes = s.lanes := rfl
@[simp] theorem State.upd_cmp_cvu (s : State) v : ({ s with cmp := v } : State).cvu = s.cvu := rfl
@[simp] theorem State.upd_cmp_pcr (s : State) v : ({ s with cmp := v } : State).pcr = s.pcr := rfl
@[simp] theorem State.upd_cmp_mgt (s : State) v : ({ s with cmp := v } : State).mgt = s.mgt := rfl
@[simp] theorem State.upd_cst_pending (s : State) v : ({ s with cst := v } : State).pending = s.pending := rfl
@[simp] theorem State.upd_cst_out (s : State) v : ({ s with cst := v } : State).out = s.out := rfl
@[simp] theorem State.upd_cst_fresh (s : State) v : ({ s with cst := v } : State).fresh = s.fresh := rfl
@[simp] theorem State.upd_cst_regs (s : State) v : ({ s with cst := v } : State).regs = s.regs := rfl
@[simp] theorem State.upd_cst_hif (s : State) v : ({ s with cst := v } : State).hif = s.hif := rfl
@[simp] theorem State.upd_cst_evt (s : State) v : ({ s with cst := v } : State).evt = s.evt := rfl
@[simp] theorem State.upd_cst_time (s : State) v : ({ s with cst := v } : State).time = s.time := rfl
@[simp] theorem State.upd_cst_chans (s : State) v : ({ s with cst := v } : State).chans = s.chans := rfl
@[simp] theorem State.upd_cst_spd (s : State) v : ({ s with cst := v } : State).spd = s.spd := rfl
@[simp] theorem State.upd_cst_engs (s : State) v : ({ s with cst := v } : State).engs = s.engs := rfl
@[simp] theorem State.upd_cst_refs (s : State) v : ({ s with cst := v } : State).refs = s.refs := rfl
@[simp] theorem State.upd_cst_cmp (s : State) v : ({ s with cst := v } : State).cmp = s.cmp := rfl
@[simp] theorem State.upd_cst_cst (s : State) v : ({ s with cst := v } : State).cst = v := rfl
@[simp] theorem State.upd_cst_mem (s : State) v : ({ s with cst := v } : State).mem = s.mem := rfl
@[simp] theorem State.upd_cst_stalled (s : State) v : ({ s with cst := v } : State).stalled = s.stalled := rfl
@[simp] theorem State.upd_cst_progs (s : State) v : ({ s with cst := v } : State).progs = s.progs := rfl
@[simp] theorem State.upd_cst_routes (s : State) v : ({ s with cst := v } : State).routes = s.routes := rfl
@[simp] theorem State.upd_cst_routesAct (s : State) v : ({ s with cst := v } : State).routesAct = s.routesAct := rfl
@[simp] theorem State.upd_cst_shps (s : State) v : ({ s with cst := v } : State).shps = s.shps := rfl
@[simp] theorem State.upd_cst_arbs (s : State) v : ({ s with cst := v } : State).arbs = s.arbs := rfl
@[simp] theorem State.upd_cst_pkrs (s : State) v : ({ s with cst := v } : State).pkrs = s.pkrs := rfl
@[simp] theorem State.upd_cst_pair (s : State) v : ({ s with cst := v } : State).pair = s.pair := rfl
@[simp] theorem State.upd_cst_inp (s : State) v : ({ s with cst := v } : State).inp = s.inp := rfl
@[simp] theorem State.upd_cst_aud (s : State) v : ({ s with cst := v } : State).aud = s.aud := rfl
@[simp] theorem State.upd_cst_blt (s : State) v : ({ s with cst := v } : State).blt = s.blt := rfl
@[simp] theorem State.upd_cst_dmc (s : State) v : ({ s with cst := v } : State).dmc = s.dmc := rfl
@[simp] theorem State.upd_cst_tst (s : State) v : ({ s with cst := v } : State).tst = s.tst := rfl
@[simp] theorem State.upd_cst_lanes (s : State) v : ({ s with cst := v } : State).lanes = s.lanes := rfl
@[simp] theorem State.upd_cst_cvu (s : State) v : ({ s with cst := v } : State).cvu = s.cvu := rfl
@[simp] theorem State.upd_cst_pcr (s : State) v : ({ s with cst := v } : State).pcr = s.pcr := rfl
@[simp] theorem State.upd_cst_mgt (s : State) v : ({ s with cst := v } : State).mgt = s.mgt := rfl
@[simp] theorem State.upd_mem_pending (s : State) v : ({ s with mem := v } : State).pending = s.pending := rfl
@[simp] theorem State.upd_mem_out (s : State) v : ({ s with mem := v } : State).out = s.out := rfl
@[simp] theorem State.upd_mem_fresh (s : State) v : ({ s with mem := v } : State).fresh = s.fresh := rfl
@[simp] theorem State.upd_mem_regs (s : State) v : ({ s with mem := v } : State).regs = s.regs := rfl
@[simp] theorem State.upd_mem_hif (s : State) v : ({ s with mem := v } : State).hif = s.hif := rfl
@[simp] theorem State.upd_mem_evt (s : State) v : ({ s with mem := v } : State).evt = s.evt := rfl
@[simp] theorem State.upd_mem_time (s : State) v : ({ s with mem := v } : State).time = s.time := rfl
@[simp] theorem State.upd_mem_chans (s : State) v : ({ s with mem := v } : State).chans = s.chans := rfl
@[simp] theorem State.upd_mem_spd (s : State) v : ({ s with mem := v } : State).spd = s.spd := rfl
@[simp] theorem State.upd_mem_engs (s : State) v : ({ s with mem := v } : State).engs = s.engs := rfl
@[simp] theorem State.upd_mem_refs (s : State) v : ({ s with mem := v } : State).refs = s.refs := rfl
@[simp] theorem State.upd_mem_cmp (s : State) v : ({ s with mem := v } : State).cmp = s.cmp := rfl
@[simp] theorem State.upd_mem_cst (s : State) v : ({ s with mem := v } : State).cst = s.cst := rfl
@[simp] theorem State.upd_mem_mem (s : State) v : ({ s with mem := v } : State).mem = v := rfl
@[simp] theorem State.upd_mem_stalled (s : State) v : ({ s with mem := v } : State).stalled = s.stalled := rfl
@[simp] theorem State.upd_mem_progs (s : State) v : ({ s with mem := v } : State).progs = s.progs := rfl
@[simp] theorem State.upd_mem_routes (s : State) v : ({ s with mem := v } : State).routes = s.routes := rfl
@[simp] theorem State.upd_mem_routesAct (s : State) v : ({ s with mem := v } : State).routesAct = s.routesAct := rfl
@[simp] theorem State.upd_mem_shps (s : State) v : ({ s with mem := v } : State).shps = s.shps := rfl
@[simp] theorem State.upd_mem_arbs (s : State) v : ({ s with mem := v } : State).arbs = s.arbs := rfl
@[simp] theorem State.upd_mem_pkrs (s : State) v : ({ s with mem := v } : State).pkrs = s.pkrs := rfl
@[simp] theorem State.upd_mem_pair (s : State) v : ({ s with mem := v } : State).pair = s.pair := rfl
@[simp] theorem State.upd_mem_inp (s : State) v : ({ s with mem := v } : State).inp = s.inp := rfl
@[simp] theorem State.upd_mem_aud (s : State) v : ({ s with mem := v } : State).aud = s.aud := rfl
@[simp] theorem State.upd_mem_blt (s : State) v : ({ s with mem := v } : State).blt = s.blt := rfl
@[simp] theorem State.upd_mem_dmc (s : State) v : ({ s with mem := v } : State).dmc = s.dmc := rfl
@[simp] theorem State.upd_mem_tst (s : State) v : ({ s with mem := v } : State).tst = s.tst := rfl
@[simp] theorem State.upd_mem_lanes (s : State) v : ({ s with mem := v } : State).lanes = s.lanes := rfl
@[simp] theorem State.upd_mem_cvu (s : State) v : ({ s with mem := v } : State).cvu = s.cvu := rfl
@[simp] theorem State.upd_mem_pcr (s : State) v : ({ s with mem := v } : State).pcr = s.pcr := rfl
@[simp] theorem State.upd_mem_mgt (s : State) v : ({ s with mem := v } : State).mgt = s.mgt := rfl
@[simp] theorem State.upd_stalled_pending (s : State) v : ({ s with stalled := v } : State).pending = s.pending := rfl
@[simp] theorem State.upd_stalled_out (s : State) v : ({ s with stalled := v } : State).out = s.out := rfl
@[simp] theorem State.upd_stalled_fresh (s : State) v : ({ s with stalled := v } : State).fresh = s.fresh := rfl
@[simp] theorem State.upd_stalled_regs (s : State) v : ({ s with stalled := v } : State).regs = s.regs := rfl
@[simp] theorem State.upd_stalled_hif (s : State) v : ({ s with stalled := v } : State).hif = s.hif := rfl
@[simp] theorem State.upd_stalled_evt (s : State) v : ({ s with stalled := v } : State).evt = s.evt := rfl
@[simp] theorem State.upd_stalled_time (s : State) v : ({ s with stalled := v } : State).time = s.time := rfl
@[simp] theorem State.upd_stalled_chans (s : State) v : ({ s with stalled := v } : State).chans = s.chans := rfl
@[simp] theorem State.upd_stalled_spd (s : State) v : ({ s with stalled := v } : State).spd = s.spd := rfl
@[simp] theorem State.upd_stalled_engs (s : State) v : ({ s with stalled := v } : State).engs = s.engs := rfl
@[simp] theorem State.upd_stalled_refs (s : State) v : ({ s with stalled := v } : State).refs = s.refs := rfl
@[simp] theorem State.upd_stalled_cmp (s : State) v : ({ s with stalled := v } : State).cmp = s.cmp := rfl
@[simp] theorem State.upd_stalled_cst (s : State) v : ({ s with stalled := v } : State).cst = s.cst := rfl
@[simp] theorem State.upd_stalled_mem (s : State) v : ({ s with stalled := v } : State).mem = s.mem := rfl
@[simp] theorem State.upd_stalled_stalled (s : State) v : ({ s with stalled := v } : State).stalled = v := rfl
@[simp] theorem State.upd_stalled_progs (s : State) v : ({ s with stalled := v } : State).progs = s.progs := rfl
@[simp] theorem State.upd_stalled_routes (s : State) v : ({ s with stalled := v } : State).routes = s.routes := rfl
@[simp] theorem State.upd_stalled_routesAct (s : State) v : ({ s with stalled := v } : State).routesAct = s.routesAct := rfl
@[simp] theorem State.upd_stalled_shps (s : State) v : ({ s with stalled := v } : State).shps = s.shps := rfl
@[simp] theorem State.upd_stalled_arbs (s : State) v : ({ s with stalled := v } : State).arbs = s.arbs := rfl
@[simp] theorem State.upd_stalled_pkrs (s : State) v : ({ s with stalled := v } : State).pkrs = s.pkrs := rfl
@[simp] theorem State.upd_stalled_pair (s : State) v : ({ s with stalled := v } : State).pair = s.pair := rfl
@[simp] theorem State.upd_stalled_inp (s : State) v : ({ s with stalled := v } : State).inp = s.inp := rfl
@[simp] theorem State.upd_stalled_aud (s : State) v : ({ s with stalled := v } : State).aud = s.aud := rfl
@[simp] theorem State.upd_stalled_blt (s : State) v : ({ s with stalled := v } : State).blt = s.blt := rfl
@[simp] theorem State.upd_stalled_dmc (s : State) v : ({ s with stalled := v } : State).dmc = s.dmc := rfl
@[simp] theorem State.upd_stalled_tst (s : State) v : ({ s with stalled := v } : State).tst = s.tst := rfl
@[simp] theorem State.upd_stalled_lanes (s : State) v : ({ s with stalled := v } : State).lanes = s.lanes := rfl
@[simp] theorem State.upd_stalled_cvu (s : State) v : ({ s with stalled := v } : State).cvu = s.cvu := rfl
@[simp] theorem State.upd_stalled_pcr (s : State) v : ({ s with stalled := v } : State).pcr = s.pcr := rfl
@[simp] theorem State.upd_stalled_mgt (s : State) v : ({ s with stalled := v } : State).mgt = s.mgt := rfl
@[simp] theorem State.upd_progs_pending (s : State) v : ({ s with progs := v } : State).pending = s.pending := rfl
@[simp] theorem State.upd_progs_out (s : State) v : ({ s with progs := v } : State).out = s.out := rfl
@[simp] theorem State.upd_progs_fresh (s : State) v : ({ s with progs := v } : State).fresh = s.fresh := rfl
@[simp] theorem State.upd_progs_regs (s : State) v : ({ s with progs := v } : State).regs = s.regs := rfl
@[simp] theorem State.upd_progs_hif (s : State) v : ({ s with progs := v } : State).hif = s.hif := rfl
@[simp] theorem State.upd_progs_evt (s : State) v : ({ s with progs := v } : State).evt = s.evt := rfl
@[simp] theorem State.upd_progs_time (s : State) v : ({ s with progs := v } : State).time = s.time := rfl
@[simp] theorem State.upd_progs_chans (s : State) v : ({ s with progs := v } : State).chans = s.chans := rfl
@[simp] theorem State.upd_progs_spd (s : State) v : ({ s with progs := v } : State).spd = s.spd := rfl
@[simp] theorem State.upd_progs_engs (s : State) v : ({ s with progs := v } : State).engs = s.engs := rfl
@[simp] theorem State.upd_progs_refs (s : State) v : ({ s with progs := v } : State).refs = s.refs := rfl
@[simp] theorem State.upd_progs_cmp (s : State) v : ({ s with progs := v } : State).cmp = s.cmp := rfl
@[simp] theorem State.upd_progs_cst (s : State) v : ({ s with progs := v } : State).cst = s.cst := rfl
@[simp] theorem State.upd_progs_mem (s : State) v : ({ s with progs := v } : State).mem = s.mem := rfl
@[simp] theorem State.upd_progs_stalled (s : State) v : ({ s with progs := v } : State).stalled = s.stalled := rfl
@[simp] theorem State.upd_progs_progs (s : State) v : ({ s with progs := v } : State).progs = v := rfl
@[simp] theorem State.upd_progs_routes (s : State) v : ({ s with progs := v } : State).routes = s.routes := rfl
@[simp] theorem State.upd_progs_routesAct (s : State) v : ({ s with progs := v } : State).routesAct = s.routesAct := rfl
@[simp] theorem State.upd_progs_shps (s : State) v : ({ s with progs := v } : State).shps = s.shps := rfl
@[simp] theorem State.upd_progs_arbs (s : State) v : ({ s with progs := v } : State).arbs = s.arbs := rfl
@[simp] theorem State.upd_progs_pkrs (s : State) v : ({ s with progs := v } : State).pkrs = s.pkrs := rfl
@[simp] theorem State.upd_progs_pair (s : State) v : ({ s with progs := v } : State).pair = s.pair := rfl
@[simp] theorem State.upd_progs_inp (s : State) v : ({ s with progs := v } : State).inp = s.inp := rfl
@[simp] theorem State.upd_progs_aud (s : State) v : ({ s with progs := v } : State).aud = s.aud := rfl
@[simp] theorem State.upd_progs_blt (s : State) v : ({ s with progs := v } : State).blt = s.blt := rfl
@[simp] theorem State.upd_progs_dmc (s : State) v : ({ s with progs := v } : State).dmc = s.dmc := rfl
@[simp] theorem State.upd_progs_tst (s : State) v : ({ s with progs := v } : State).tst = s.tst := rfl
@[simp] theorem State.upd_progs_lanes (s : State) v : ({ s with progs := v } : State).lanes = s.lanes := rfl
@[simp] theorem State.upd_progs_cvu (s : State) v : ({ s with progs := v } : State).cvu = s.cvu := rfl
@[simp] theorem State.upd_progs_pcr (s : State) v : ({ s with progs := v } : State).pcr = s.pcr := rfl
@[simp] theorem State.upd_progs_mgt (s : State) v : ({ s with progs := v } : State).mgt = s.mgt := rfl
@[simp] theorem State.upd_routes_pending (s : State) v : ({ s with routes := v } : State).pending = s.pending := rfl
@[simp] theorem State.upd_routes_out (s : State) v : ({ s with routes := v } : State).out = s.out := rfl
@[simp] theorem State.upd_routes_fresh (s : State) v : ({ s with routes := v } : State).fresh = s.fresh := rfl
@[simp] theorem State.upd_routes_regs (s : State) v : ({ s with routes := v } : State).regs = s.regs := rfl
@[simp] theorem State.upd_routes_hif (s : State) v : ({ s with routes := v } : State).hif = s.hif := rfl
@[simp] theorem State.upd_routes_evt (s : State) v : ({ s with routes := v } : State).evt = s.evt := rfl
@[simp] theorem State.upd_routes_time (s : State) v : ({ s with routes := v } : State).time = s.time := rfl
@[simp] theorem State.upd_routes_chans (s : State) v : ({ s with routes := v } : State).chans = s.chans := rfl
@[simp] theorem State.upd_routes_spd (s : State) v : ({ s with routes := v } : State).spd = s.spd := rfl
@[simp] theorem State.upd_routes_engs (s : State) v : ({ s with routes := v } : State).engs = s.engs := rfl
@[simp] theorem State.upd_routes_refs (s : State) v : ({ s with routes := v } : State).refs = s.refs := rfl
@[simp] theorem State.upd_routes_cmp (s : State) v : ({ s with routes := v } : State).cmp = s.cmp := rfl
@[simp] theorem State.upd_routes_cst (s : State) v : ({ s with routes := v } : State).cst = s.cst := rfl
@[simp] theorem State.upd_routes_mem (s : State) v : ({ s with routes := v } : State).mem = s.mem := rfl
@[simp] theorem State.upd_routes_stalled (s : State) v : ({ s with routes := v } : State).stalled = s.stalled := rfl
@[simp] theorem State.upd_routes_progs (s : State) v : ({ s with routes := v } : State).progs = s.progs := rfl
@[simp] theorem State.upd_routes_routes (s : State) v : ({ s with routes := v } : State).routes = v := rfl
@[simp] theorem State.upd_routes_routesAct (s : State) v : ({ s with routes := v } : State).routesAct = s.routesAct := rfl
@[simp] theorem State.upd_routes_shps (s : State) v : ({ s with routes := v } : State).shps = s.shps := rfl
@[simp] theorem State.upd_routes_arbs (s : State) v : ({ s with routes := v } : State).arbs = s.arbs := rfl
@[simp] theorem State.upd_routes_pkrs (s : State) v : ({ s with routes := v } : State).pkrs = s.pkrs := rfl
@[simp] theorem State.upd_routes_pair (s : State) v : ({ s with routes := v } : State).pair = s.pair := rfl
@[simp] theorem State.upd_routes_inp (s : State) v : ({ s with routes := v } : State).inp = s.inp := rfl
@[simp] theorem State.upd_routes_aud (s : State) v : ({ s with routes := v } : State).aud = s.aud := rfl
@[simp] theorem State.upd_routes_blt (s : State) v : ({ s with routes := v } : State).blt = s.blt := rfl
@[simp] theorem State.upd_routes_dmc (s : State) v : ({ s with routes := v } : State).dmc = s.dmc := rfl
@[simp] theorem State.upd_routes_tst (s : State) v : ({ s with routes := v } : State).tst = s.tst := rfl
@[simp] theorem State.upd_routes_lanes (s : State) v : ({ s with routes := v } : State).lanes = s.lanes := rfl
@[simp] theorem State.upd_routes_cvu (s : State) v : ({ s with routes := v } : State).cvu = s.cvu := rfl
@[simp] theorem State.upd_routes_pcr (s : State) v : ({ s with routes := v } : State).pcr = s.pcr := rfl
@[simp] theorem State.upd_routes_mgt (s : State) v : ({ s with routes := v } : State).mgt = s.mgt := rfl
@[simp] theorem State.upd_routesAct_pending (s : State) v : ({ s with routesAct := v } : State).pending = s.pending := rfl
@[simp] theorem State.upd_routesAct_out (s : State) v : ({ s with routesAct := v } : State).out = s.out := rfl
@[simp] theorem State.upd_routesAct_fresh (s : State) v : ({ s with routesAct := v } : State).fresh = s.fresh := rfl
@[simp] theorem State.upd_routesAct_regs (s : State) v : ({ s with routesAct := v } : State).regs = s.regs := rfl
@[simp] theorem State.upd_routesAct_hif (s : State) v : ({ s with routesAct := v } : State).hif = s.hif := rfl
@[simp] theorem State.upd_routesAct_evt (s : State) v : ({ s with routesAct := v } : State).evt = s.evt := rfl
@[simp] theorem State.upd_routesAct_time (s : State) v : ({ s with routesAct := v } : State).time = s.time := rfl
@[simp] theorem State.upd_routesAct_chans (s : State) v : ({ s with routesAct := v } : State).chans = s.chans := rfl
@[simp] theorem State.upd_routesAct_spd (s : State) v : ({ s with routesAct := v } : State).spd = s.spd := rfl
@[simp] theorem State.upd_routesAct_engs (s : State) v : ({ s with routesAct := v } : State).engs = s.engs := rfl
@[simp] theorem State.upd_routesAct_refs (s : State) v : ({ s with routesAct := v } : State).refs = s.refs := rfl
@[simp] theorem State.upd_routesAct_cmp (s : State) v : ({ s with routesAct := v } : State).cmp = s.cmp := rfl
@[simp] theorem State.upd_routesAct_cst (s : State) v : ({ s with routesAct := v } : State).cst = s.cst := rfl
@[simp] theorem State.upd_routesAct_mem (s : State) v : ({ s with routesAct := v } : State).mem = s.mem := rfl
@[simp] theorem State.upd_routesAct_stalled (s : State) v : ({ s with routesAct := v } : State).stalled = s.stalled := rfl
@[simp] theorem State.upd_routesAct_progs (s : State) v : ({ s with routesAct := v } : State).progs = s.progs := rfl
@[simp] theorem State.upd_routesAct_routes (s : State) v : ({ s with routesAct := v } : State).routes = s.routes := rfl
@[simp] theorem State.upd_routesAct_routesAct (s : State) v : ({ s with routesAct := v } : State).routesAct = v := rfl
@[simp] theorem State.upd_routesAct_shps (s : State) v : ({ s with routesAct := v } : State).shps = s.shps := rfl
@[simp] theorem State.upd_routesAct_arbs (s : State) v : ({ s with routesAct := v } : State).arbs = s.arbs := rfl
@[simp] theorem State.upd_routesAct_pkrs (s : State) v : ({ s with routesAct := v } : State).pkrs = s.pkrs := rfl
@[simp] theorem State.upd_routesAct_pair (s : State) v : ({ s with routesAct := v } : State).pair = s.pair := rfl
@[simp] theorem State.upd_routesAct_inp (s : State) v : ({ s with routesAct := v } : State).inp = s.inp := rfl
@[simp] theorem State.upd_routesAct_aud (s : State) v : ({ s with routesAct := v } : State).aud = s.aud := rfl
@[simp] theorem State.upd_routesAct_blt (s : State) v : ({ s with routesAct := v } : State).blt = s.blt := rfl
@[simp] theorem State.upd_routesAct_dmc (s : State) v : ({ s with routesAct := v } : State).dmc = s.dmc := rfl
@[simp] theorem State.upd_routesAct_tst (s : State) v : ({ s with routesAct := v } : State).tst = s.tst := rfl
@[simp] theorem State.upd_routesAct_lanes (s : State) v : ({ s with routesAct := v } : State).lanes = s.lanes := rfl
@[simp] theorem State.upd_routesAct_cvu (s : State) v : ({ s with routesAct := v } : State).cvu = s.cvu := rfl
@[simp] theorem State.upd_routesAct_pcr (s : State) v : ({ s with routesAct := v } : State).pcr = s.pcr := rfl
@[simp] theorem State.upd_routesAct_mgt (s : State) v : ({ s with routesAct := v } : State).mgt = s.mgt := rfl
@[simp] theorem State.upd_shps_pending (s : State) v : ({ s with shps := v } : State).pending = s.pending := rfl
@[simp] theorem State.upd_shps_out (s : State) v : ({ s with shps := v } : State).out = s.out := rfl
@[simp] theorem State.upd_shps_fresh (s : State) v : ({ s with shps := v } : State).fresh = s.fresh := rfl
@[simp] theorem State.upd_shps_regs (s : State) v : ({ s with shps := v } : State).regs = s.regs := rfl
@[simp] theorem State.upd_shps_hif (s : State) v : ({ s with shps := v } : State).hif = s.hif := rfl
@[simp] theorem State.upd_shps_evt (s : State) v : ({ s with shps := v } : State).evt = s.evt := rfl
@[simp] theorem State.upd_shps_time (s : State) v : ({ s with shps := v } : State).time = s.time := rfl
@[simp] theorem State.upd_shps_chans (s : State) v : ({ s with shps := v } : State).chans = s.chans := rfl
@[simp] theorem State.upd_shps_spd (s : State) v : ({ s with shps := v } : State).spd = s.spd := rfl
@[simp] theorem State.upd_shps_engs (s : State) v : ({ s with shps := v } : State).engs = s.engs := rfl
@[simp] theorem State.upd_shps_refs (s : State) v : ({ s with shps := v } : State).refs = s.refs := rfl
@[simp] theorem State.upd_shps_cmp (s : State) v : ({ s with shps := v } : State).cmp = s.cmp := rfl
@[simp] theorem State.upd_shps_cst (s : State) v : ({ s with shps := v } : State).cst = s.cst := rfl
@[simp] theorem State.upd_shps_mem (s : State) v : ({ s with shps := v } : State).mem = s.mem := rfl
@[simp] theorem State.upd_shps_stalled (s : State) v : ({ s with shps := v } : State).stalled = s.stalled := rfl
@[simp] theorem State.upd_shps_progs (s : State) v : ({ s with shps := v } : State).progs = s.progs := rfl
@[simp] theorem State.upd_shps_routes (s : State) v : ({ s with shps := v } : State).routes = s.routes := rfl
@[simp] theorem State.upd_shps_routesAct (s : State) v : ({ s with shps := v } : State).routesAct = s.routesAct := rfl
@[simp] theorem State.upd_shps_shps (s : State) v : ({ s with shps := v } : State).shps = v := rfl
@[simp] theorem State.upd_shps_arbs (s : State) v : ({ s with shps := v } : State).arbs = s.arbs := rfl
@[simp] theorem State.upd_shps_pkrs (s : State) v : ({ s with shps := v } : State).pkrs = s.pkrs := rfl
@[simp] theorem State.upd_shps_pair (s : State) v : ({ s with shps := v } : State).pair = s.pair := rfl
@[simp] theorem State.upd_shps_inp (s : State) v : ({ s with shps := v } : State).inp = s.inp := rfl
@[simp] theorem State.upd_shps_aud (s : State) v : ({ s with shps := v } : State).aud = s.aud := rfl
@[simp] theorem State.upd_shps_blt (s : State) v : ({ s with shps := v } : State).blt = s.blt := rfl
@[simp] theorem State.upd_shps_dmc (s : State) v : ({ s with shps := v } : State).dmc = s.dmc := rfl
@[simp] theorem State.upd_shps_tst (s : State) v : ({ s with shps := v } : State).tst = s.tst := rfl
@[simp] theorem State.upd_shps_lanes (s : State) v : ({ s with shps := v } : State).lanes = s.lanes := rfl
@[simp] theorem State.upd_shps_cvu (s : State) v : ({ s with shps := v } : State).cvu = s.cvu := rfl
@[simp] theorem State.upd_shps_pcr (s : State) v : ({ s with shps := v } : State).pcr = s.pcr := rfl
@[simp] theorem State.upd_shps_mgt (s : State) v : ({ s with shps := v } : State).mgt = s.mgt := rfl
@[simp] theorem State.upd_arbs_pending (s : State) v : ({ s with arbs := v } : State).pending = s.pending := rfl
@[simp] theorem State.upd_arbs_out (s : State) v : ({ s with arbs := v } : State).out = s.out := rfl
@[simp] theorem State.upd_arbs_fresh (s : State) v : ({ s with arbs := v } : State).fresh = s.fresh := rfl
@[simp] theorem State.upd_arbs_regs (s : State) v : ({ s with arbs := v } : State).regs = s.regs := rfl
@[simp] theorem State.upd_arbs_hif (s : State) v : ({ s with arbs := v } : State).hif = s.hif := rfl
@[simp] theorem State.upd_arbs_evt (s : State) v : ({ s with arbs := v } : State).evt = s.evt := rfl
@[simp] theorem State.upd_arbs_time (s : State) v : ({ s with arbs := v } : State).time = s.time := rfl
@[simp] theorem State.upd_arbs_chans (s : State) v : ({ s with arbs := v } : State).chans = s.chans := rfl
@[simp] theorem State.upd_arbs_spd (s : State) v : ({ s with arbs := v } : State).spd = s.spd := rfl
@[simp] theorem State.upd_arbs_engs (s : State) v : ({ s with arbs := v } : State).engs = s.engs := rfl
@[simp] theorem State.upd_arbs_refs (s : State) v : ({ s with arbs := v } : State).refs = s.refs := rfl
@[simp] theorem State.upd_arbs_cmp (s : State) v : ({ s with arbs := v } : State).cmp = s.cmp := rfl
@[simp] theorem State.upd_arbs_cst (s : State) v : ({ s with arbs := v } : State).cst = s.cst := rfl
@[simp] theorem State.upd_arbs_mem (s : State) v : ({ s with arbs := v } : State).mem = s.mem := rfl
@[simp] theorem State.upd_arbs_stalled (s : State) v : ({ s with arbs := v } : State).stalled = s.stalled := rfl
@[simp] theorem State.upd_arbs_progs (s : State) v : ({ s with arbs := v } : State).progs = s.progs := rfl
@[simp] theorem State.upd_arbs_routes (s : State) v : ({ s with arbs := v } : State).routes = s.routes := rfl
@[simp] theorem State.upd_arbs_routesAct (s : State) v : ({ s with arbs := v } : State).routesAct = s.routesAct := rfl
@[simp] theorem State.upd_arbs_shps (s : State) v : ({ s with arbs := v } : State).shps = s.shps := rfl
@[simp] theorem State.upd_arbs_arbs (s : State) v : ({ s with arbs := v } : State).arbs = v := rfl
@[simp] theorem State.upd_arbs_pkrs (s : State) v : ({ s with arbs := v } : State).pkrs = s.pkrs := rfl
@[simp] theorem State.upd_arbs_pair (s : State) v : ({ s with arbs := v } : State).pair = s.pair := rfl
@[simp] theorem State.upd_arbs_inp (s : State) v : ({ s with arbs := v } : State).inp = s.inp := rfl
@[simp] theorem State.upd_arbs_aud (s : State) v : ({ s with arbs := v } : State).aud = s.aud := rfl
@[simp] theorem State.upd_arbs_blt (s : State) v : ({ s with arbs := v } : State).blt = s.blt := rfl
@[simp] theorem State.upd_arbs_dmc (s : State) v : ({ s with arbs := v } : State).dmc = s.dmc := rfl
@[simp] theorem State.upd_arbs_tst (s : State) v : ({ s with arbs := v } : State).tst = s.tst := rfl
@[simp] theorem State.upd_arbs_lanes (s : State) v : ({ s with arbs := v } : State).lanes = s.lanes := rfl
@[simp] theorem State.upd_arbs_cvu (s : State) v : ({ s with arbs := v } : State).cvu = s.cvu := rfl
@[simp] theorem State.upd_arbs_pcr (s : State) v : ({ s with arbs := v } : State).pcr = s.pcr := rfl
@[simp] theorem State.upd_arbs_mgt (s : State) v : ({ s with arbs := v } : State).mgt = s.mgt := rfl
@[simp] theorem State.upd_pkrs_pending (s : State) v : ({ s with pkrs := v } : State).pending = s.pending := rfl
@[simp] theorem State.upd_pkrs_out (s : State) v : ({ s with pkrs := v } : State).out = s.out := rfl
@[simp] theorem State.upd_pkrs_fresh (s : State) v : ({ s with pkrs := v } : State).fresh = s.fresh := rfl
@[simp] theorem State.upd_pkrs_regs (s : State) v : ({ s with pkrs := v } : State).regs = s.regs := rfl
@[simp] theorem State.upd_pkrs_hif (s : State) v : ({ s with pkrs := v } : State).hif = s.hif := rfl
@[simp] theorem State.upd_pkrs_evt (s : State) v : ({ s with pkrs := v } : State).evt = s.evt := rfl
@[simp] theorem State.upd_pkrs_time (s : State) v : ({ s with pkrs := v } : State).time = s.time := rfl
@[simp] theorem State.upd_pkrs_chans (s : State) v : ({ s with pkrs := v } : State).chans = s.chans := rfl
@[simp] theorem State.upd_pkrs_spd (s : State) v : ({ s with pkrs := v } : State).spd = s.spd := rfl
@[simp] theorem State.upd_pkrs_engs (s : State) v : ({ s with pkrs := v } : State).engs = s.engs := rfl
@[simp] theorem State.upd_pkrs_refs (s : State) v : ({ s with pkrs := v } : State).refs = s.refs := rfl
@[simp] theorem State.upd_pkrs_cmp (s : State) v : ({ s with pkrs := v } : State).cmp = s.cmp := rfl
@[simp] theorem State.upd_pkrs_cst (s : State) v : ({ s with pkrs := v } : State).cst = s.cst := rfl
@[simp] theorem State.upd_pkrs_mem (s : State) v : ({ s with pkrs := v } : State).mem = s.mem := rfl
@[simp] theorem State.upd_pkrs_stalled (s : State) v : ({ s with pkrs := v } : State).stalled = s.stalled := rfl
@[simp] theorem State.upd_pkrs_progs (s : State) v : ({ s with pkrs := v } : State).progs = s.progs := rfl
@[simp] theorem State.upd_pkrs_routes (s : State) v : ({ s with pkrs := v } : State).routes = s.routes := rfl
@[simp] theorem State.upd_pkrs_routesAct (s : State) v : ({ s with pkrs := v } : State).routesAct = s.routesAct := rfl
@[simp] theorem State.upd_pkrs_shps (s : State) v : ({ s with pkrs := v } : State).shps = s.shps := rfl
@[simp] theorem State.upd_pkrs_arbs (s : State) v : ({ s with pkrs := v } : State).arbs = s.arbs := rfl
@[simp] theorem State.upd_pkrs_pkrs (s : State) v : ({ s with pkrs := v } : State).pkrs = v := rfl
@[simp] theorem State.upd_pkrs_pair (s : State) v : ({ s with pkrs := v } : State).pair = s.pair := rfl
@[simp] theorem State.upd_pkrs_inp (s : State) v : ({ s with pkrs := v } : State).inp = s.inp := rfl
@[simp] theorem State.upd_pkrs_aud (s : State) v : ({ s with pkrs := v } : State).aud = s.aud := rfl
@[simp] theorem State.upd_pkrs_blt (s : State) v : ({ s with pkrs := v } : State).blt = s.blt := rfl
@[simp] theorem State.upd_pkrs_dmc (s : State) v : ({ s with pkrs := v } : State).dmc = s.dmc := rfl
@[simp] theorem State.upd_pkrs_tst (s : State) v : ({ s with pkrs := v } : State).tst = s.tst := rfl
@[simp] theorem State.upd_pkrs_lanes (s : State) v : ({ s with pkrs := v } : State).lanes = s.lanes := rfl
@[simp] theorem State.upd_pkrs_cvu (s : State) v : ({ s with pkrs := v } : State).cvu = s.cvu := rfl
@[simp] theorem State.upd_pkrs_pcr (s : State) v : ({ s with pkrs := v } : State).pcr = s.pcr := rfl
@[simp] theorem State.upd_pkrs_mgt (s : State) v : ({ s with pkrs := v } : State).mgt = s.mgt := rfl
@[simp] theorem State.upd_pair_pending (s : State) v : ({ s with pair := v } : State).pending = s.pending := rfl
@[simp] theorem State.upd_pair_out (s : State) v : ({ s with pair := v } : State).out = s.out := rfl
@[simp] theorem State.upd_pair_fresh (s : State) v : ({ s with pair := v } : State).fresh = s.fresh := rfl
@[simp] theorem State.upd_pair_regs (s : State) v : ({ s with pair := v } : State).regs = s.regs := rfl
@[simp] theorem State.upd_pair_hif (s : State) v : ({ s with pair := v } : State).hif = s.hif := rfl
@[simp] theorem State.upd_pair_evt (s : State) v : ({ s with pair := v } : State).evt = s.evt := rfl
@[simp] theorem State.upd_pair_time (s : State) v : ({ s with pair := v } : State).time = s.time := rfl
@[simp] theorem State.upd_pair_chans (s : State) v : ({ s with pair := v } : State).chans = s.chans := rfl
@[simp] theorem State.upd_pair_spd (s : State) v : ({ s with pair := v } : State).spd = s.spd := rfl
@[simp] theorem State.upd_pair_engs (s : State) v : ({ s with pair := v } : State).engs = s.engs := rfl
@[simp] theorem State.upd_pair_refs (s : State) v : ({ s with pair := v } : State).refs = s.refs := rfl
@[simp] theorem State.upd_pair_cmp (s : State) v : ({ s with pair := v } : State).cmp = s.cmp := rfl
@[simp] theorem State.upd_pair_cst (s : State) v : ({ s with pair := v } : State).cst = s.cst := rfl
@[simp] theorem State.upd_pair_mem (s : State) v : ({ s with pair := v } : State).mem = s.mem := rfl
@[simp] theorem State.upd_pair_stalled (s : State) v : ({ s with pair := v } : State).stalled = s.stalled := rfl
@[simp] theorem State.upd_pair_progs (s : State) v : ({ s with pair := v } : State).progs = s.progs := rfl
@[simp] theorem State.upd_pair_routes (s : State) v : ({ s with pair := v } : State).routes = s.routes := rfl
@[simp] theorem State.upd_pair_routesAct (s : State) v : ({ s with pair := v } : State).routesAct = s.routesAct := rfl
@[simp] theorem State.upd_pair_shps (s : State) v : ({ s with pair := v } : State).shps = s.shps := rfl
@[simp] theorem State.upd_pair_arbs (s : State) v : ({ s with pair := v } : State).arbs = s.arbs := rfl
@[simp] theorem State.upd_pair_pkrs (s : State) v : ({ s with pair := v } : State).pkrs = s.pkrs := rfl
@[simp] theorem State.upd_pair_pair (s : State) v : ({ s with pair := v } : State).pair = v := rfl
@[simp] theorem State.upd_pair_inp (s : State) v : ({ s with pair := v } : State).inp = s.inp := rfl
@[simp] theorem State.upd_pair_aud (s : State) v : ({ s with pair := v } : State).aud = s.aud := rfl
@[simp] theorem State.upd_pair_blt (s : State) v : ({ s with pair := v } : State).blt = s.blt := rfl
@[simp] theorem State.upd_pair_dmc (s : State) v : ({ s with pair := v } : State).dmc = s.dmc := rfl
@[simp] theorem State.upd_pair_tst (s : State) v : ({ s with pair := v } : State).tst = s.tst := rfl
@[simp] theorem State.upd_pair_lanes (s : State) v : ({ s with pair := v } : State).lanes = s.lanes := rfl
@[simp] theorem State.upd_pair_cvu (s : State) v : ({ s with pair := v } : State).cvu = s.cvu := rfl
@[simp] theorem State.upd_pair_pcr (s : State) v : ({ s with pair := v } : State).pcr = s.pcr := rfl
@[simp] theorem State.upd_pair_mgt (s : State) v : ({ s with pair := v } : State).mgt = s.mgt := rfl
@[simp] theorem State.upd_inp_pending (s : State) v : ({ s with inp := v } : State).pending = s.pending := rfl
@[simp] theorem State.upd_inp_out (s : State) v : ({ s with inp := v } : State).out = s.out := rfl
@[simp] theorem State.upd_inp_fresh (s : State) v : ({ s with inp := v } : State).fresh = s.fresh := rfl
@[simp] theorem State.upd_inp_regs (s : State) v : ({ s with inp := v } : State).regs = s.regs := rfl
@[simp] theorem State.upd_inp_hif (s : State) v : ({ s with inp := v } : State).hif = s.hif := rfl
@[simp] theorem State.upd_inp_evt (s : State) v : ({ s with inp := v } : State).evt = s.evt := rfl
@[simp] theorem State.upd_inp_time (s : State) v : ({ s with inp := v } : State).time = s.time := rfl
@[simp] theorem State.upd_inp_chans (s : State) v : ({ s with inp := v } : State).chans = s.chans := rfl
@[simp] theorem State.upd_inp_spd (s : State) v : ({ s with inp := v } : State).spd = s.spd := rfl
@[simp] theorem State.upd_inp_engs (s : State) v : ({ s with inp := v } : State).engs = s.engs := rfl
@[simp] theorem State.upd_inp_refs (s : State) v : ({ s with inp := v } : State).refs = s.refs := rfl
@[simp] theorem State.upd_inp_cmp (s : State) v : ({ s with inp := v } : State).cmp = s.cmp := rfl
@[simp] theorem State.upd_inp_cst (s : State) v : ({ s with inp := v } : State).cst = s.cst := rfl
@[simp] theorem State.upd_inp_mem (s : State) v : ({ s with inp := v } : State).mem = s.mem := rfl
@[simp] theorem State.upd_inp_stalled (s : State) v : ({ s with inp := v } : State).stalled = s.stalled := rfl
@[simp] theorem State.upd_inp_progs (s : State) v : ({ s with inp := v } : State).progs = s.progs := rfl
@[simp] theorem State.upd_inp_routes (s : State) v : ({ s with inp := v } : State).routes = s.routes := rfl
@[simp] theorem State.upd_inp_routesAct (s : State) v : ({ s with inp := v } : State).routesAct = s.routesAct := rfl
@[simp] theorem State.upd_inp_shps (s : State) v : ({ s with inp := v } : State).shps = s.shps := rfl
@[simp] theorem State.upd_inp_arbs (s : State) v : ({ s with inp := v } : State).arbs = s.arbs := rfl
@[simp] theorem State.upd_inp_pkrs (s : State) v : ({ s with inp := v } : State).pkrs = s.pkrs := rfl
@[simp] theorem State.upd_inp_pair (s : State) v : ({ s with inp := v } : State).pair = s.pair := rfl
@[simp] theorem State.upd_inp_inp (s : State) v : ({ s with inp := v } : State).inp = v := rfl
@[simp] theorem State.upd_inp_aud (s : State) v : ({ s with inp := v } : State).aud = s.aud := rfl
@[simp] theorem State.upd_inp_blt (s : State) v : ({ s with inp := v } : State).blt = s.blt := rfl
@[simp] theorem State.upd_inp_dmc (s : State) v : ({ s with inp := v } : State).dmc = s.dmc := rfl
@[simp] theorem State.upd_inp_tst (s : State) v : ({ s with inp := v } : State).tst = s.tst := rfl
@[simp] theorem State.upd_inp_lanes (s : State) v : ({ s with inp := v } : State).lanes = s.lanes := rfl
@[simp] theorem State.upd_inp_cvu (s : State) v : ({ s with inp := v } : State).cvu = s.cvu := rfl
@[simp] theorem State.upd_inp_pcr (s : State) v : ({ s with inp := v } : State).pcr = s.pcr := rfl
@[simp] theorem State.upd_inp_mgt (s : State) v : ({ s with inp := v } : State).mgt = s.mgt := rfl
@[simp] theorem State.upd_aud_pending (s : State) v : ({ s with aud := v } : State).pending = s.pending := rfl
@[simp] theorem State.upd_aud_out (s : State) v : ({ s with aud := v } : State).out = s.out := rfl
@[simp] theorem State.upd_aud_fresh (s : State) v : ({ s with aud := v } : State).fresh = s.fresh := rfl
@[simp] theorem State.upd_aud_regs (s : State) v : ({ s with aud := v } : State).regs = s.regs := rfl
@[simp] theorem State.upd_aud_hif (s : State) v : ({ s with aud := v } : State).hif = s.hif := rfl
@[simp] theorem State.upd_aud_evt (s : State) v : ({ s with aud := v } : State).evt = s.evt := rfl
@[simp] theorem State.upd_aud_time (s : State) v : ({ s with aud := v } : State).time = s.time := rfl
@[simp] theorem State.upd_aud_chans (s : State) v : ({ s with aud := v } : State).chans = s.chans := rfl
@[simp] theorem State.upd_aud_spd (s : State) v : ({ s with aud := v } : State).spd = s.spd := rfl
@[simp] theorem State.upd_aud_engs (s : State) v : ({ s with aud := v } : State).engs = s.engs := rfl
@[simp] theorem State.upd_aud_refs (s : State) v : ({ s with aud := v } : State).refs = s.refs := rfl
@[simp] theorem State.upd_aud_cmp (s : State) v : ({ s with aud := v } : State).cmp = s.cmp := rfl
@[simp] theorem State.upd_aud_cst (s : State) v : ({ s with aud := v } : State).cst = s.cst := rfl
@[simp] theorem State.upd_aud_mem (s : State) v : ({ s with aud := v } : State).mem = s.mem := rfl
@[simp] theorem State.upd_aud_stalled (s : State) v : ({ s with aud := v } : State).stalled = s.stalled := rfl
@[simp] theorem State.upd_aud_progs (s : State) v : ({ s with aud := v } : State).progs = s.progs := rfl
@[simp] theorem State.upd_aud_routes (s : State) v : ({ s with aud := v } : State).routes = s.routes := rfl
@[simp] theorem State.upd_aud_routesAct (s : State) v : ({ s with aud := v } : State).routesAct = s.routesAct := rfl
@[simp] theorem State.upd_aud_shps (s : State) v : ({ s with aud := v } : State).shps = s.shps := rfl
@[simp] theorem State.upd_aud_arbs (s : State) v : ({ s with aud := v } : State).arbs = s.arbs := rfl
@[simp] theorem State.upd_aud_pkrs (s : State) v : ({ s with aud := v } : State).pkrs = s.pkrs := rfl
@[simp] theorem State.upd_aud_pair (s : State) v : ({ s with aud := v } : State).pair = s.pair := rfl
@[simp] theorem State.upd_aud_inp (s : State) v : ({ s with aud := v } : State).inp = s.inp := rfl
@[simp] theorem State.upd_aud_aud (s : State) v : ({ s with aud := v } : State).aud = v := rfl
@[simp] theorem State.upd_aud_blt (s : State) v : ({ s with aud := v } : State).blt = s.blt := rfl
@[simp] theorem State.upd_aud_dmc (s : State) v : ({ s with aud := v } : State).dmc = s.dmc := rfl
@[simp] theorem State.upd_aud_tst (s : State) v : ({ s with aud := v } : State).tst = s.tst := rfl
@[simp] theorem State.upd_aud_lanes (s : State) v : ({ s with aud := v } : State).lanes = s.lanes := rfl
@[simp] theorem State.upd_aud_cvu (s : State) v : ({ s with aud := v } : State).cvu = s.cvu := rfl
@[simp] theorem State.upd_aud_pcr (s : State) v : ({ s with aud := v } : State).pcr = s.pcr := rfl
@[simp] theorem State.upd_aud_mgt (s : State) v : ({ s with aud := v } : State).mgt = s.mgt := rfl
@[simp] theorem State.upd_blt_pending (s : State) v : ({ s with blt := v } : State).pending = s.pending := rfl
@[simp] theorem State.upd_blt_out (s : State) v : ({ s with blt := v } : State).out = s.out := rfl
@[simp] theorem State.upd_blt_fresh (s : State) v : ({ s with blt := v } : State).fresh = s.fresh := rfl
@[simp] theorem State.upd_blt_regs (s : State) v : ({ s with blt := v } : State).regs = s.regs := rfl
@[simp] theorem State.upd_blt_hif (s : State) v : ({ s with blt := v } : State).hif = s.hif := rfl
@[simp] theorem State.upd_blt_evt (s : State) v : ({ s with blt := v } : State).evt = s.evt := rfl
@[simp] theorem State.upd_blt_time (s : State) v : ({ s with blt := v } : State).time = s.time := rfl
@[simp] theorem State.upd_blt_chans (s : State) v : ({ s with blt := v } : State).chans = s.chans := rfl
@[simp] theorem State.upd_blt_spd (s : State) v : ({ s with blt := v } : State).spd = s.spd := rfl
@[simp] theorem State.upd_blt_engs (s : State) v : ({ s with blt := v } : State).engs = s.engs := rfl
@[simp] theorem State.upd_blt_refs (s : State) v : ({ s with blt := v } : State).refs = s.refs := rfl
@[simp] theorem State.upd_blt_cmp (s : State) v : ({ s with blt := v } : State).cmp = s.cmp := rfl
@[simp] theorem State.upd_blt_cst (s : State) v : ({ s with blt := v } : State).cst = s.cst := rfl
@[simp] theorem State.upd_blt_mem (s : State) v : ({ s with blt := v } : State).mem = s.mem := rfl
@[simp] theorem State.upd_blt_stalled (s : State) v : ({ s with blt := v } : State).stalled = s.stalled := rfl
@[simp] theorem State.upd_blt_progs (s : State) v : ({ s with blt := v } : State).progs = s.progs := rfl
@[simp] theorem State.upd_blt_routes (s : State) v : ({ s with blt := v } : State).routes = s.routes := rfl
@[simp] theorem State.upd_blt_routesAct (s : State) v : ({ s with blt := v } : State).routesAct = s.routesAct := rfl
@[simp] theorem State.upd_blt_shps (s : State) v : ({ s with blt := v } : State).shps = s.shps := rfl
@[simp] theorem State.upd_blt_arbs (s : State) v : ({ s with blt := v } : State).arbs = s.arbs := rfl
@[simp] theorem State.upd_blt_pkrs (s : State) v : ({ s with blt := v } : State).pkrs = s.pkrs := rfl
@[simp] theorem State.upd_blt_pair (s : State) v : ({ s with blt := v } : State).pair = s.pair := rfl
@[simp] theorem State.upd_blt_inp (s : State) v : ({ s with blt := v } : State).inp = s.inp := rfl
@[simp] theorem State.upd_blt_aud (s : State) v : ({ s with blt := v } : State).aud = s.aud := rfl
@[simp] theorem State.upd_blt_blt (s : State) v : ({ s with blt := v } : State).blt = v := rfl
@[simp] theorem State.upd_blt_dmc (s : State) v : ({ s with blt := v } : State).dmc = s.dmc := rfl
@[simp] theorem State.upd_blt_tst (s : State) v : ({ s with blt := v } : State).tst = s.tst := rfl
@[simp] theorem State.upd_blt_lanes (s : State) v : ({ s with blt := v } : State).lanes = s.lanes := rfl
@[simp] theorem State.upd_blt_cvu (s : State) v : ({ s with blt := v } : State).cvu = s.cvu := rfl
@[simp] theorem State.upd_blt_pcr (s : State) v : ({ s with blt := v } : State).pcr = s.pcr := rfl
@[simp] theorem State.upd_blt_mgt (s : State) v : ({ s with blt := v } : State).mgt = s.mgt := rfl
@[simp] theorem State.upd_dmc_pending (s : State) v : ({ s with dmc := v } : State).pending = s.pending := rfl
@[simp] theorem State.upd_dmc_out (s : State) v : ({ s with dmc := v } : State).out = s.out := rfl
@[simp] theorem State.upd_dmc_fresh (s : State) v : ({ s with dmc := v } : State).fresh = s.fresh := rfl
@[simp] theorem State.upd_dmc_regs (s : State) v : ({ s with dmc := v } : State).regs = s.regs := rfl
@[simp] theorem State.upd_dmc_hif (s : State) v : ({ s with dmc := v } : State).hif = s.hif := rfl
@[simp] theorem State.upd_dmc_evt (s : State) v : ({ s with dmc := v } : State).evt = s.evt := rfl
@[simp] theorem State.upd_dmc_time (s : State) v : ({ s with dmc := v } : State).time = s.time := rfl
@[simp] theorem State.upd_dmc_chans (s : State) v : ({ s with dmc := v } : State).chans = s.chans := rfl
@[simp] theorem State.upd_dmc_spd (s : State) v : ({ s with dmc := v } : State).spd = s.spd := rfl
@[simp] theorem State.upd_dmc_engs (s : State) v : ({ s with dmc := v } : State).engs = s.engs := rfl
@[simp] theorem State.upd_dmc_refs (s : State) v : ({ s with dmc := v } : State).refs = s.refs := rfl
@[simp] theorem State.upd_dmc_cmp (s : State) v : ({ s with dmc := v } : State).cmp = s.cmp := rfl
@[simp] theorem State.upd_dmc_cst (s : State) v : ({ s with dmc := v } : State).cst = s.cst := rfl
@[simp] theorem State.upd_dmc_mem (s : State) v : ({ s with dmc := v } : State).mem = s.mem := rfl
@[simp] theorem State.upd_dmc_stalled (s : State) v : ({ s with dmc := v } : State).stalled = s.stalled := rfl
@[simp] theorem State.upd_dmc_progs (s : State) v : ({ s with dmc := v } : State).progs = s.progs := rfl
@[simp] theorem State.upd_dmc_routes (s : State) v : ({ s with dmc := v } : State).routes = s.routes := rfl
@[simp] theorem State.upd_dmc_routesAct (s : State) v : ({ s with dmc := v } : State).routesAct = s.routesAct := rfl
@[simp] theorem State.upd_dmc_shps (s : State) v : ({ s with dmc := v } : State).shps = s.shps := rfl
@[simp] theorem State.upd_dmc_arbs (s : State) v : ({ s with dmc := v } : State).arbs = s.arbs := rfl
@[simp] theorem State.upd_dmc_pkrs (s : State) v : ({ s with dmc := v } : State).pkrs = s.pkrs := rfl
@[simp] theorem State.upd_dmc_pair (s : State) v : ({ s with dmc := v } : State).pair = s.pair := rfl
@[simp] theorem State.upd_dmc_inp (s : State) v : ({ s with dmc := v } : State).inp = s.inp := rfl
@[simp] theorem State.upd_dmc_aud (s : State) v : ({ s with dmc := v } : State).aud = s.aud := rfl
@[simp] theorem State.upd_dmc_blt (s : State) v : ({ s with dmc := v } : State).blt = s.blt := rfl
@[simp] theorem State.upd_dmc_dmc (s : State) v : ({ s with dmc := v } : State).dmc = v := rfl
@[simp] theorem State.upd_dmc_tst (s : State) v : ({ s with dmc := v } : State).tst = s.tst := rfl
@[simp] theorem State.upd_dmc_lanes (s : State) v : ({ s with dmc := v } : State).lanes = s.lanes := rfl
@[simp] theorem State.upd_dmc_cvu (s : State) v : ({ s with dmc := v } : State).cvu = s.cvu := rfl
@[simp] theorem State.upd_dmc_pcr (s : State) v : ({ s with dmc := v } : State).pcr = s.pcr := rfl
@[simp] theorem State.upd_dmc_mgt (s : State) v : ({ s with dmc := v } : State).mgt = s.mgt := rfl
@[simp] theorem State.upd_tst_pending (s : State) v : ({ s with tst := v } : State).pending = s.pending := rfl
@[simp] theorem State.upd_tst_out (s : State) v : ({ s with tst := v } : State).out = s.out := rfl
@[simp] theorem State.upd_tst_fresh (s : State) v : ({ s with tst := v } : State).fresh = s.fresh := rfl
@[simp] theorem State.upd_tst_regs (s : State) v : ({ s with tst := v } : State).regs = s.regs := rfl
@[simp] theorem State.upd_tst_hif (s : State) v : ({ s with tst := v } : State).hif = s.hif := rfl
@[simp] theorem State.upd_tst_evt (s : State) v : ({ s with tst := v } : State).evt = s.evt := rfl
@[simp] theorem State.upd_tst_time (s : State) v : ({ s with tst := v } : State).time = s.time := rfl
@[simp] theorem State.upd_tst_chans (s : State) v : ({ s with tst := v } : State).chans = s.chans := rfl
@[simp] theorem State.upd_tst_spd (s : State) v : ({ s with tst := v } : State).spd = s.spd := rfl
@[simp] theorem State.upd_tst_engs (s : State) v : ({ s with tst := v } : State).engs = s.engs := rfl
@[simp] theorem State.upd_tst_refs (s : State) v : ({ s with tst := v } : State).refs = s.refs := rfl
@[simp] theorem State.upd_tst_cmp (s : State) v : ({ s with tst := v } : State).cmp = s.cmp := rfl
@[simp] theorem State.upd_tst_cst (s : State) v : ({ s with tst := v } : State).cst = s.cst := rfl
@[simp] theorem State.upd_tst_mem (s : State) v : ({ s with tst := v } : State).mem = s.mem := rfl
@[simp] theorem State.upd_tst_stalled (s : State) v : ({ s with tst := v } : State).stalled = s.stalled := rfl
@[simp] theorem State.upd_tst_progs (s : State) v : ({ s with tst := v } : State).progs = s.progs := rfl
@[simp] theorem State.upd_tst_routes (s : State) v : ({ s with tst := v } : State).routes = s.routes := rfl
@[simp] theorem State.upd_tst_routesAct (s : State) v : ({ s with tst := v } : State).routesAct = s.routesAct := rfl
@[simp] theorem State.upd_tst_shps (s : State) v : ({ s with tst := v } : State).shps = s.shps := rfl
@[simp] theorem State.upd_tst_arbs (s : State) v : ({ s with tst := v } : State).arbs = s.arbs := rfl
@[simp] theorem State.upd_tst_pkrs (s : State) v : ({ s with tst := v } : State).pkrs = s.pkrs := rfl
@[simp] theorem State.upd_tst_pair (s : State) v : ({ s with tst := v } : State).pair = s.pair := rfl
@[simp] theorem State.upd_tst_inp (s : State) v : ({ s with tst := v } : State).inp = s.inp := rfl
@[simp] theorem State.upd_tst_aud (s : State) v : ({ s with tst := v } : State).aud = s.aud := rfl
@[simp] theorem State.upd_tst_blt (s : State) v : ({ s with tst := v } : State).blt = s.blt := rfl
@[simp] theorem State.upd_tst_dmc (s : State) v : ({ s with tst := v } : State).dmc = s.dmc := rfl
@[simp] theorem State.upd_tst_tst (s : State) v : ({ s with tst := v } : State).tst = v := rfl
@[simp] theorem State.upd_tst_lanes (s : State) v : ({ s with tst := v } : State).lanes = s.lanes := rfl
@[simp] theorem State.upd_tst_cvu (s : State) v : ({ s with tst := v } : State).cvu = s.cvu := rfl
@[simp] theorem State.upd_tst_pcr (s : State) v : ({ s with tst := v } : State).pcr = s.pcr := rfl
@[simp] theorem State.upd_tst_mgt (s : State) v : ({ s with tst := v } : State).mgt = s.mgt := rfl
@[simp] theorem State.upd_lanes_pending (s : State) v : ({ s with lanes := v } : State).pending = s.pending := rfl
@[simp] theorem State.upd_lanes_out (s : State) v : ({ s with lanes := v } : State).out = s.out := rfl
@[simp] theorem State.upd_lanes_fresh (s : State) v : ({ s with lanes := v } : State).fresh = s.fresh := rfl
@[simp] theorem State.upd_lanes_regs (s : State) v : ({ s with lanes := v } : State).regs = s.regs := rfl
@[simp] theorem State.upd_lanes_hif (s : State) v : ({ s with lanes := v } : State).hif = s.hif := rfl
@[simp] theorem State.upd_lanes_evt (s : State) v : ({ s with lanes := v } : State).evt = s.evt := rfl
@[simp] theorem State.upd_lanes_time (s : State) v : ({ s with lanes := v } : State).time = s.time := rfl
@[simp] theorem State.upd_lanes_chans (s : State) v : ({ s with lanes := v } : State).chans = s.chans := rfl
@[simp] theorem State.upd_lanes_spd (s : State) v : ({ s with lanes := v } : State).spd = s.spd := rfl
@[simp] theorem State.upd_lanes_engs (s : State) v : ({ s with lanes := v } : State).engs = s.engs := rfl
@[simp] theorem State.upd_lanes_refs (s : State) v : ({ s with lanes := v } : State).refs = s.refs := rfl
@[simp] theorem State.upd_lanes_cmp (s : State) v : ({ s with lanes := v } : State).cmp = s.cmp := rfl
@[simp] theorem State.upd_lanes_cst (s : State) v : ({ s with lanes := v } : State).cst = s.cst := rfl
@[simp] theorem State.upd_lanes_mem (s : State) v : ({ s with lanes := v } : State).mem = s.mem := rfl
@[simp] theorem State.upd_lanes_stalled (s : State) v : ({ s with lanes := v } : State).stalled = s.stalled := rfl
@[simp] theorem State.upd_lanes_progs (s : State) v : ({ s with lanes := v } : State).progs = s.progs := rfl
@[simp] theorem State.upd_lanes_routes (s : State) v : ({ s with lanes := v } : State).routes = s.routes := rfl
@[simp] theorem State.upd_lanes_routesAct (s : State) v : ({ s with lanes := v } : State).routesAct = s.routesAct := rfl
@[simp] theorem State.upd_lanes_shps (s : State) v : ({ s with lanes := v } : State).shps = s.shps := rfl
@[simp] theorem State.upd_lanes_arbs (s : State) v : ({ s with lanes := v } : State).arbs = s.arbs := rfl
@[simp] theorem State.upd_lanes_pkrs (s : State) v : ({ s with lanes := v } : State).pkrs = s.pkrs := rfl
@[simp] theorem State.upd_lanes_pair (s : State) v : ({ s with lanes := v } : State).pair = s.pair := rfl
@[simp] theorem State.upd_lanes_inp (s : State) v : ({ s with lanes := v } : State).inp = s.inp := rfl
@[simp] theorem State.upd_lanes_aud (s : State) v : ({ s with lanes := v } : State).aud = s.aud := rfl
@[simp] theorem State.upd_lanes_blt (s : State) v : ({ s with lanes := v } : State).blt = s.blt := rfl
@[simp] theorem State.upd_lanes_dmc (s : State) v : ({ s with lanes := v } : State).dmc = s.dmc := rfl
@[simp] theorem State.upd_lanes_tst (s : State) v : ({ s with lanes := v } : State).tst = s.tst := rfl
@[simp] theorem State.upd_lanes_lanes (s : State) v : ({ s with lanes := v } : State).lanes = v := rfl
@[simp] theorem State.upd_lanes_cvu (s : State) v : ({ s with lanes := v } : State).cvu = s.cvu := rfl
@[simp] theorem State.upd_lanes_pcr (s : State) v : ({ s with lanes := v } : State).pcr = s.pcr := rfl
@[simp] theorem State.upd_lanes_mgt (s : State) v : ({ s with lanes := v } : State).mgt = s.mgt := rfl
@[simp] theorem State.upd_cvu_pending (s : State) v : ({ s with cvu := v } : State).pending = s.pending := rfl
@[simp] theorem State.upd_cvu_out (s : State) v : ({ s with cvu := v } : State).out = s.out := rfl
@[simp] theorem State.upd_cvu_fresh (s : State) v : ({ s with cvu := v } : State).fresh = s.fresh := rfl
@[simp] theorem State.upd_cvu_regs (s : State) v : ({ s with cvu := v } : State).regs = s.regs := rfl
@[simp] theorem State.upd_cvu_hif (s : State) v : ({ s with cvu := v } : State).hif = s.hif := rfl
@[simp] theorem State.upd_cvu_evt (s : State) v : ({ s with cvu := v } : State).evt = s.evt := rfl
@[simp] theorem State.upd_cvu_time (s : State) v : ({ s with cvu := v } : State).time = s.time := rfl
@[simp] theorem State.upd_cvu_chans (s : State) v : ({ s with cvu := v } : State).chans = s.chans := rfl
@[simp] theorem State.upd_cvu_spd (s : State) v : ({ s with cvu := v } : State).spd = s.spd := rfl
@[simp] theorem State.upd_cvu_engs (s : State) v : ({ s with cvu := v } : State).engs = s.engs := rfl
@[simp] theorem State.upd_cvu_refs (s : State) v : ({ s with cvu := v } : State).refs = s.refs := rfl
@[simp] theorem State.upd_cvu_cmp (s : State) v : ({ s with cvu := v } : State).cmp = s.cmp := rfl
@[simp] theorem State.upd_cvu_cst (s : State) v : ({ s with cvu := v } : State).cst = s.cst := rfl
@[simp] theorem State.upd_cvu_mem (s : State) v : ({ s with cvu := v } : State).mem = s.mem := rfl
@[simp] theorem State.upd_cvu_stalled (s : State) v : ({ s with cvu := v } : State).stalled = s.stalled := rfl
@[simp] theorem State.upd_cvu_progs (s : State) v : ({ s with cvu := v } : State).progs = s.progs := rfl
@[simp] theorem State.upd_cvu_routes (s : State) v : ({ s with cvu := v } : State).routes = s.routes := rfl
@[simp] theorem State.upd_cvu_routesAct (s : State) v : ({ s with cvu := v } : State).routesAct = s.routesAct := rfl
@[simp] theorem State.upd_cvu_shps (s : State) v : ({ s with cvu := v } : State).shps = s.shps := rfl
@[simp] theorem State.upd_cvu_arbs (s : State) v : ({ s with cvu := v } : State).arbs = s.arbs := rfl
@[simp] theorem State.upd_cvu_pkrs (s : State) v : ({ s with cvu := v } : State).pkrs = s.pkrs := rfl
@[simp] theorem State.upd_cvu_pair (s : State) v : ({ s with cvu := v } : State).pair = s.pair := rfl
@[simp] theorem State.upd_cvu_inp (s : State) v : ({ s with cvu := v } : State).inp = s.inp := rfl
@[simp] theorem State.upd_cvu_aud (s : State) v : ({ s with cvu := v } : State).aud = s.aud := rfl
@[simp] theorem State.upd_cvu_blt (s : State) v : ({ s with cvu := v } : State).blt = s.blt := rfl
@[simp] theorem State.upd_cvu_dmc (s : State) v : ({ s with cvu := v } : State).dmc = s.dmc := rfl
@[simp] theorem State.upd_cvu_tst (s : State) v : ({ s with cvu := v } : State).tst = s.tst := rfl
@[simp] theorem State.upd_cvu_lanes (s : State) v : ({ s with cvu := v } : State).lanes = s.lanes := rfl
@[simp] theorem State.upd_cvu_cvu (s : State) v : ({ s with cvu := v } : State).cvu = v := rfl
@[simp] theorem State.upd_cvu_pcr (s : State) v : ({ s with cvu := v } : State).pcr = s.pcr := rfl
@[simp] theorem State.upd_cvu_mgt (s : State) v : ({ s with cvu := v } : State).mgt = s.mgt := rfl
@[simp] theorem State.upd_pcr_pending (s : State) v : ({ s with pcr := v } : State).pending = s.pending := rfl
@[simp] theorem State.upd_pcr_out (s : State) v : ({ s with pcr := v } : State).out = s.out := rfl
@[simp] theorem State.upd_pcr_fresh (s : State) v : ({ s with pcr := v } : State).fresh = s.fresh := rfl
@[simp] theorem State.upd_pcr_regs (s : State) v : ({ s with pcr := v } : State).regs = s.regs := rfl
@[simp] theorem State.upd_pcr_hif (s : State) v : ({ s with pcr := v } : State).hif = s.hif := rfl
@[simp] theorem State.upd_pcr_evt (s : State) v : ({ s with pcr := v } : State).evt = s.evt := rfl
@[simp] theorem State.upd_pcr_time (s : State) v : ({ s with pcr := v } : State).time = s.time := rfl
@[simp] theorem State.upd_pcr_chans (s : State) v : ({ s with pcr := v } : State).chans = s.chans := rfl
@[simp] theorem State.upd_pcr_spd (s : State) v : ({ s with pcr := v } : State).spd = s.spd := rfl
@[simp] theorem State.upd_pcr_engs (s : State) v : ({ s with pcr := v } : State).engs = s.engs := rfl
@[simp] theorem State.upd_pcr_refs (s : State) v : ({ s with pcr := v } : State).refs = s.refs := rfl
@[simp] theorem State.upd_pcr_cmp (s : State) v : ({ s with pcr := v } : State).cmp = s.cmp := rfl
@[simp] theorem State.upd_pcr_cst (s : State) v : ({ s with pcr := v } : State).cst = s.cst := rfl
@[simp] theorem State.upd_pcr_mem (s : State) v : ({ s with pcr := v } : State).mem = s.mem := rfl
@[simp] theorem State.upd_pcr_stalled (s : State) v : ({ s with pcr := v } : State).stalled = s.stalled := rfl
@[simp] theorem State.upd_pcr_progs (s : State) v : ({ s with pcr := v } : State).progs = s.progs := rfl
@[simp] theorem State.upd_pcr_routes (s : State) v : ({ s with pcr := v } : State).routes = s.routes := rfl
@[simp] theorem State.upd_pcr_routesAct (s : State) v : ({ s with pcr := v } : State).routesAct = s.routesAct := rfl
@[simp] theorem State.upd_pcr_shps (s : State) v : ({ s with pcr := v } : State).shps = s.shps := rfl
@[simp] theorem State.upd_pcr_arbs (s : State) v : ({ s with pcr := v } : State).arbs = s.arbs := rfl
@[simp] theorem State.upd_pcr_pkrs (s : State) v : ({ s with pcr := v } : State).pkrs = s.pkrs := rfl
@[simp] theorem State.upd_pcr_pair (s : State) v : ({ s with pcr := v } : State).pair = s.pair := rfl
@[simp] theorem State.upd_pcr_inp (s : State) v : ({ s with pcr := v } : State).inp = s.inp := rfl
@[simp] theorem State.upd_pcr_aud (s : State) v : ({ s with pcr := v } : State).aud = s.aud := rfl
@[simp] theorem State.upd_pcr_blt (s : State) v : ({ s with pcr := v } : State).blt = s.blt := rfl
@[simp] theorem State.upd_pcr_dmc (s : State) v : ({ s with pcr := v } : State).dmc = s.dmc := rfl
@[simp] theorem State.upd_pcr_tst (s : State) v : ({ s with pcr := v } : State).tst = s.tst := rfl
@[simp] theorem State.upd_pcr_lanes (s : State) v : ({ s with pcr := v } : State).lanes = s.lanes := rfl
@[simp] theorem State.upd_pcr_cvu (s : State) v : ({ s with pcr := v } : State).cvu = s.cvu := rfl
@[simp] theorem State.upd_pcr_pcr (s : State) v : ({ s with pcr := v } : State).pcr = v := rfl
@[simp] theorem State.upd_pcr_mgt (s : State) v : ({ s with pcr := v } : State).mgt = s.mgt := rfl
@[simp] theorem State.upd_mgt_pending (s : State) v : ({ s with mgt := v } : State).pending = s.pending := rfl
@[simp] theorem State.upd_mgt_out (s : State) v : ({ s with mgt := v } : State).out = s.out := rfl
@[simp] theorem State.upd_mgt_fresh (s : State) v : ({ s with mgt := v } : State).fresh = s.fresh := rfl
@[simp] theorem State.upd_mgt_regs (s : State) v : ({ s with mgt := v } : State).regs = s.regs := rfl
@[simp] theorem State.upd_mgt_hif (s : State) v : ({ s with mgt := v } : State).hif = s.hif := rfl
@[simp] theorem State.upd_mgt_evt (s : State) v : ({ s with mgt := v } : State).evt = s.evt := rfl
@[simp] theorem State.upd_mgt_time (s : State) v : ({ s with mgt := v } : State).time = s.time := rfl
@[simp] theorem State.upd_mgt_chans (s : State) v : ({ s with mgt := v } : State).chans = s.chans := rfl
@[simp] theorem State.upd_mgt_spd (s : State) v : ({ s with mgt := v } : State).spd = s.spd := rfl
@[simp] theorem State.upd_mgt_engs (s : State) v : ({ s with mgt := v } : State).engs = s.engs := rfl
@[simp] theorem State.upd_mgt_refs (s : State) v : ({ s with mgt := v } : State).refs = s.refs := rfl
@[simp] theorem State.upd_mgt_cmp (s : State) v : ({ s with mgt := v } : State).cmp = s.cmp := rfl
@[simp] theorem State.upd_mgt_cst (s : State) v : ({ s with mgt := v } : State).cst = s.cst := rfl
@[simp] theorem State.upd_mgt_mem (s : State) v : ({ s with mgt := v } : State).mem = s.mem := rfl
@[simp] theorem State.upd_mgt_stalled (s : State) v : ({ s with mgt := v } : State).stalled = s.stalled := rfl
@[simp] theorem State.upd_mgt_progs (s : State) v : ({ s with mgt := v } : State).progs = s.progs := rfl
@[simp] theorem State.upd_mgt_routes (s : State) v : ({ s with mgt := v } : State).routes = s.routes := rfl
@[simp] theorem State.upd_mgt_routesAct (s : State) v : ({ s with mgt := v } : State).routesAct = s.routesAct := rfl
@[simp] theorem State.upd_mgt_shps (s : State) v : ({ s with mgt := v } : State).shps = s.shps := rfl
@[simp] theorem State.upd_mgt_arbs (s : State) v : ({ s with mgt := v } : State).arbs = s.arbs := rfl
@[simp] theorem State.upd_mgt_pkrs (s : State) v : ({ s with mgt := v } : State).pkrs = s.pkrs := rfl
@[simp] theorem State.upd_mgt_pair (s : State) v : ({ s with mgt := v } : State).pair = s.pair := rfl
@[simp] theorem State.upd_mgt_inp (s : State) v : ({ s with mgt := v } : State).inp = s.inp := rfl
@[simp] theorem State.upd_mgt_aud (s : State) v : ({ s with mgt := v } : State).aud = s.aud := rfl
@[simp] theorem State.upd_mgt_blt (s : State) v : ({ s with mgt := v } : State).blt = s.blt := rfl
@[simp] theorem State.upd_mgt_dmc (s : State) v : ({ s with mgt := v } : State).dmc = s.dmc := rfl
@[simp] theorem State.upd_mgt_tst (s : State) v : ({ s with mgt := v } : State).tst = s.tst := rfl
@[simp] theorem State.upd_mgt_lanes (s : State) v : ({ s with mgt := v } : State).lanes = s.lanes := rfl
@[simp] theorem State.upd_mgt_cvu (s : State) v : ({ s with mgt := v } : State).cvu = s.cvu := rfl
@[simp] theorem State.upd_mgt_pcr (s : State) v : ({ s with mgt := v } : State).pcr = s.pcr := rfl
@[simp] theorem State.upd_mgt_mgt (s : State) v : ({ s with mgt := v } : State).mgt = v := rfl

end Sys2Proof.Machine
end

