-- ==== Sys2Proof/Laws/Step.lean ====
section
/-! SUPPORT. What a step can do: every command ends in a settled next state. -/

namespace Sys2Proof.Machine

/-- Every meaning ends in `finish`. -/
theorem exec_finish (i : Instr) (s : State) : ∃ u : State, exec i s = .next u.evFlush.settle := by
  cases i <;> exact ⟨_, rfl⟩

theorem step_cons (s : State) (c : Instr) (rest : List Instr) (h : s.pending = c :: rest) :
    step s = exec c { s with pending := rest } := by
  simp [step, h]

theorem step_nil (s : State) (h : s.pending = []) : step s = .next s := by
  simp [step, h]

end Sys2Proof.Machine
end

