-- ==== Sys2Proof/WellFormed.lean ====
section
/-! DEFINITION. What a sender may put into a command: operands that one of the block's interfaces can carry. The meanings
are total and do not rest on it; it says which commands the outside can produce. -/

namespace Sys2Proof

open Machine

/-- A host command's parameter bytes: PLEN of them, or none where PLEN exceeds what a queue carries (R235). -/
def paramsFit (h : Hdr) (p : Bytes) : Bool := decide (p.length = h.plen.toNat) || (decide (4064 < h.plen.toNat) && p.isEmpty)

/-- A register access lies in the 64 MiB of BAR0 and moves 4 or 8 bytes, naturally aligned (R14). -/
def accessFits (off : Nat) (wide : Bool) (value : Nat) : Bool :=
  decide (off < 0x4000000) && decide (off % (if wide then 8 else 4) = 0) && decide (value < 2 ^ (if wide then 64 else 32))

/-- The bytes of one PCIe write request: one to 256, inside a BAR of 1 GiB. -/
def writeFits (off : Nat) (data : Bytes) : Bool := !data.isEmpty && decide (off + data.length ≤ 2 ^ 30)

/-- A sequence number of the mirror channel has 16 bits (R372). -/
def seqFits (seq : Nat) : Bool := decide (seq < 2 ^ 16)

/-- A command some interface can carry. The last arm holds the commands whose operands fit by their types, or carry what the block cuts to size. -/
def Instr.wellFormed (i : Instr) : Bool :=
  match i with
  | .opNop h p | .opDevInfo h p | .opQueueCreate h p | .opQueueDelete h p | .opQueueResume h p | .opBarrier h p
  | .opEngService h p | .opChCreate h p | .opChDestroy h p | .opChSetFormat h p | .opChSetLatency h p
  | .opChSetCoding h p | .opChSetRefs h p | .opChSetRate h p | .opChSetRefresh h p | .opChSetSlotmask h p
  | .opChAdmit h p | .opChRelease h p | .opChStart h p | .opChStop h p | .opChReset h p | .opChRefresh h p
  | .opChMarkLong h p | .opChStatus h p | .opInCreate h p | .opInDestroy h p | .opInSetMeter h p | .opLayerSet h p
  | .opLayerBind h p | .opLayerFlip h p | .opLayerDirty h p | .opCmpSetCoef h p | .opBlit h p | .opAudSetPort h p
  | .opAudRoute h p | .opAudUnroute h p | .opOutCreate h p | .opOutDestroy h p | .opOutSetShaper h p
  | .opOutSetWindow h p | .opTimeSetPtp h p | .opTimeSetPort h p | .opTimeSetOutputs h p | .opTimeStatus h p
  | .opPairEnable h p | .opPairDisable h p | .opPairHandover h p | .opPairStatus h p | .opMemAlloc h p
  | .opMemFree h p | .opDramSetPoint h p | .opDramTrain h p | .opDramStatus h p | .opCvuConfig h p
  | .opDiagHealth h p | .opLcStatus h p | .opUpdateStatus h p | .opUpdateConfirm h p | .opOnAirLock h p | .opEmOn h p
  | .opEmOff h p | .opEmSetVariant h p =>
    paramsFit h p
  | .reservedOpcodeCommand op h p => decide (op < 2 ^ 16) && paramsFit h p
  | .submissionTailDoorbell q v => decide (q ≤ 66) && decide (v < 2 ^ 32)
  | .completionHeadDoorbell q v => decide (q ≤ 66) && decide (v < 2 ^ 32)
  | .commandFetch _ slot => decide (slot.length = 64)
  | .registerWrite _ off wide value => accessFits off wide value
  | .rcRead _ off wide => accessFits off wide 0
  | .lowWordRead _ off => accessFits off false 0
  | .bar2Write off data => writeFits off data
  | .bar2Read off len _ => decide (0 < len) && decide (off + len ≤ 2 ^ 30)
  | .mirrorAck seq _ => seqFits seq
  | .mirrorAckTimeout seq => seqFits seq
  | .superblockReceive _ _ sb => decide (sb.length = 274)
  | .linkFrameReceive fr _ => decide (fr.length ≤ 2048)
  | .block _ _ _ _ data => decide (data.length ≤ 1024)
  | .evtStatClear _ bits hw => decide (bits < 2 ^ 32) && hw.all (·.1 < 692)
  | .reservedServiceMessage _ _ typ => decide (typ < 256) && !(decide (1 ≤ typ) && decide (typ ≤ 10))
  | .dramAccess _ write _ _ => match write with | some d => decide (d.length = 64) | none => true
  | .laneAdaptEnd _ ws _ _ => decide (ws.length ≤ 16)
  | .fetchFailure .. | .paramDmaDone .. | .cqRoom .. | .coalesceTimeout .. | .barrierTimeout ..
  | .barrierSatisfied .. | .queueDeleteDone .. | .orderWaitRelease .. | .commandCoreWatchdog ..
  | .commandCoreRestartDone .. | .aqctlEnable .. | .aqctlResume .. | .eqctlEnable .. | .rowRelease ..
  | .taskDispatch .. | .taskComplete .. | .taskDeadlineMiss .. | .encodeDeadline .. | .sliceFailure ..
  | .sliceWatchdog .. | .engineFault .. | .engineSelftestEnd .. | .sweepPeriodicStart .. | .heldSweepBegin ..
  | .emergencyPeriodEnd .. | .lastPictureEnd .. | .layerChangeApply .. | .flattenDone .. | .flattenRetry ..
  | .blitBurstEnd .. | .blitDeadTimeEnd .. | .blitUnitFailure .. | .blitSelftestEnd .. | .pageWipeDone ..
  | .csScrubLine .. | .bar0SizeError .. | .nowsecLowRead .. | .poolStallEnd .. | .descriptorError ..
  | .tracectlMode .. | .refDescsel .. | .frameReceive .. | .lossDeclare .. | .flowPathDown .. | .groupLatch ..
  | .macLinkUp .. | .macLinkDown .. | .joinLeave .. | .fecRateSecond .. | .frameLaunch .. | .flowMove ..
  | .shaperChangeApply .. | .announceTimeout .. | .delayReqSend .. | .frameSyncOutEdge .. | .ppsInEdge ..
  | .sapFrameDrive .. | .sapFrameReceive .. | .sapClockLoss .. | .sapRollEnd .. | .audMclkctlOut .. | .lanePllLock ..
  | .lanePllTimeout .. | .laneCdrLock .. | .fomWindow .. | .laneSignalLoss .. | .laneFaultRetry ..
  | .laneBackgroundTrial .. | .lctlRestart .. | .eyectlStart .. | .eyeScanEnd .. | .injctlFire ..
  | .injectionPeriod .. | .claimGuardEnd .. | .heartbeatReceive .. | .heartbeatPathSilent .. | .linkRetransmit ..
  | .linkGiveup .. | .mirrorReceive .. | .checkRecordReceive .. | .repairReq .. | .repairAns .. | .repairAbsent ..
  | .audioRecordReceive .. | .rcrecReceive .. | .rcrecWaitExpiry .. | .resyncReq .. | .imageReceive .. | .mr4Poll ..
  | .codeCacheWriteback .. | .dramScrubLine .. | .trainingStepEnd .. | .lockSequenceBreak .. | .bridgeTimeout ..
  | .remapZeroWrite .. | .errstatValidClear .. | .dramwinBaseWrite .. | .linkctlRetrain .. | .cvuWindowClose ..
  | .cvuMismatchClear .. | .occclr .. | .powerOn .. | .coldReset .. | .warmReset .. | .rstctlWarm .. | .rstctlCold ..
  | .wakePin .. | .clockGateClose .. | .monitorSample .. | .tripRecovery .. | .alarmlatClear ..
  | .mgtCoreRestartDone .. | .serdesRefclkLoss .. | .info .. | .begin .. | .verify .. | .verifyEnd .. | .activate ..
  | .confirm .. | .abort .. | .reset .. | .wake .. | .set .. | .stagingEraseDone .. | .tstLockWrite ..
  | .hbsuppWrite .. | .backpressurePeriod .. | .serdesRefclkReturn .. | .serviceLinkChange ..
  | .debugAccessRequest .. | .replyDelayExpiry .. | .flashBlockProgrammed .. | .eqCqRoom .. | .spindleTick ..
  | .csWipeDone .. | .protectedWindowOpen .. | .protectedWindowClose .. | .tracectlClear .. | .holdoverLimit ..
  | .ppsOutEdge .. | .partnerLockReleased .. | .claimConflict .. | .heartbeatSend .. | .hbGeneratorWatchdog ..
  | .linkControlSend .. | .checkDeadline .. | .joinTimeout .. | .handoverClaimTimeout .. | .claimBackoffEnd ..
  | .refreshDue .. | .guardTableClear .. | .setPointSwitchEnd .. | .eventBacklogDrain .. | .aoRecordFlush ..
  | .sysResetN .. | .pwrMainGoodRise .. | .pwrMainGoodTimeout .. | .mainPowerRetry .. | .pwrMainGoodFall ..
  | .bootEnd .. | .pwrctlAoreq .. | .perstNAssert .. | .perstNRise .. | .mgtWatchdogExpiry .. | .refclkLoss ..
  | .refclkReturn .. | .refctlApply .. | .timectlFire .. | .chkinjFire .. | .hbsuppExpiry .. | .vddAoLoss ..
  | .pairHbInEdge .. | .csWipeTimeout .. | .pcieCorrectableError .. | .beginPairWaitEnd .. | .claimWaitTimeout ..
  | .confirmationWriteDone .. =>
    true

end Sys2Proof
end

