-- ==== Sys2Proof/Tests/Slice0.lean ====
section
/-! SUPPORT. Tests: states and operands that meet the hypotheses of each statement together, ill-formed commands that the
form check refuses, and values worked out from the spec's own text. -/

open Sys2Proof Sys2Proof.Machine

namespace Sys2Proof.Tests

set_option Elab.async false

/-! ### Small states -/

/-- The admin queue and the emergency queue on, in DEV_READY with FCLK running. -/
def rdy : State :=
  (((State.reset.wr Reg.PCR_DEVSTAT_DEV 1).wr Reg.PCR_DEVSTAT_PSTATE 2).wr Reg.HIF_QSTAT_ENABLED 1 0 0).wr Reg.HIF_QSTAT_ENABLED 1 0 1

/-- Channel 0 in a state. -/
def inState (st : Nat) : State := rdy.wr Reg.CHC_CHSTATE_STATE st

/-- A device in DEV_TRIAL. -/
def trial : State :=
  let s := rdy.wr Reg.PCR_DEVSTAT_DEV 3
  { s with mgt := { s.mgt with nv := { s.mgt.nv with slots := { s.mgt.nv.slots with trial := true } } } }

/-- HEADSTOCK, with a partner that takes mirrors. -/
def headstock : State :=
  let s := (rdy.wr Reg.PAIR_PAIRSTAT_ROLE 1).wr Reg.PAIR_PAIRSTAT_LINKUP 1
  s.setPair { s.pair with pRole := 2 }

/-- Zero bytes. -/
def zs (n : Nat) : Bytes := List.replicate n 0

/-- A command header on a queue, for a channel. -/
def hd (q : Fin 66) (ch : BitVec 8) (p : Bytes) : Hdr :=
  { qid := q, flags := 0, channel := ch, tag := 1, plen := BitVec.ofNat 16 p.length, effpt := 0, zero := 0 }

/-- Channel 0 formed, with an engine, a latency and a reference store. -/
def formed : State :=
  let s := (((inState 1).withFormat 0 ([1, 5] ++ zs 6)).wr Reg.CHC_SLOTMASK_ENGINES 1).wr Reg.CHC_LATENCY_L_US 100000
  (s.wr Reg.REF_FBBASE_ADDR 0x100000000).wr Reg.REF_FBSIZE_BYTES 0x40000000

/-- Channel queue 2 on, with one command submitted. -/
def qOn : State :=
  ((rdy.wr Reg.HIF_QSTAT_ENABLED 1 0 2).wr Reg.HIF_QSTAT_TAIL 1 0 2).setQue 2 { sqlog2 := 4, cqlog2 := 4, tailAbs := 1 }

/-- A reply that waits. -/
def reply0 : Rply :=
  { pos := 0, tag := 0, opcode := 0, channel := 255, status := 0, detail := 0, r0 := 0, r1 := 0, compl := false, halted := false,
    notify := false, unmirrored := false, final := true, hold := .none, commits := [] }

/-- A state with its time set late. -/
def late (s : State) : State := { s with time := { s.time with now := 65536 * 1000000000000 } }

/-- A running task of a kind. -/
def busy (kind : Nat) : State := rdy.setTask 16383 { state := 4, kind := kind, ch := 63 }

/-- Blitter 7 at work on a fill of one pixel. -/
def blitting : State :=
  let s := (rdy.setBltU 7 { task := some 5 }).wr Reg.BLT_UNITSTAT_STATE 1 7
  { s with blt := { s.blt with cmds := [(5, (0, 0, [1, 0, 0, 0] ++ zs 12 ++ [0, 0, 0, 0x40] ++ zs 4 ++ [64, 0, 0, 0, 64, 0, 0, 0] ++ zs 8 ++ [1, 0, 1, 0] ++ zs 52))] } }

/-- The debug access port granted, in LC_FACTORY. -/
def dap : State := ((rdy.wr Reg.TST_LOCKSTAT_OPEN 1).wr Reg.TST_DAP_EN 1).wr Reg.PCR_LCSTAT_STATE 0

/-- MACs 12 and 15 up. -/
def macOn : State := rdy.wr Reg.NET_LINKSTAT_UP 9 3

/-- The smallest Ethernet frame, of zeros. -/
def frame0 : Bytes := zs 60 ++ toLe 4 (crc32 (zs 60))

/-- HEADSTOCK with its link up. -/
def linked : State := (late (rdy.wr Reg.PAIR_PAIRSTAT_ROLE 1)).wr Reg.PAIR_PAIRSTAT_LINKUP 1

/-- An audio flow on network A. -/
def flow0 : InFlow :=
  { kind := 1, nets := 1, dportA := 0, dportB := 0, groupA := 0, srcA := 0, groupB := 0, srcB := 0, meter := 0 }

/-- A picture format. -/
def fmt0 : FlowFmt := { raster := 1, rate := 5, phase := 0, infmt := 0 }

/-- An output program on both networks. -/
def prog0 : Prog :=
  { nets := 3, mode := 0, pt := 96, dscp := 0, dport := 0, sport := 0, ssrc := 0, ttl := 64, initSeq := 0, dstA := 0, dstB := 0,
    pmtPid := 0, vidPid := 0, audPid := 0, progNum := 1, audPort := 0, audPt := 97 }

/-- The same, sent to the group 224.0.0.1. -/
def progG : Prog := { prog0 with dstA := 0xFFFFE0000001 }

/-- A frame that waits in a shaper. -/
def frameQ : QFrame :=
  { seq := 0, base := 0, e := 0, k := 188, ts := 0, marker := false, payload := zs 188, lines := [], frame := 0, row := 0, audio := false }

/-- A frame waiting in the last shaper. -/
def sending (role : Nat) : State :=
  ((rdy.wr Reg.PAIR_PAIRSTAT_ROLE role).setProg 63 (some prog0)).setShp 255 { queue := [frameQ] }

/-- A frame waiting for network A. -/
def sendingG : State :=
  ((rdy.setProg 63 (some progG)).setShp 252 { queue := [frameQ] }).wr Reg.NET_IP4_ADDR 0x0A000001 0 0

/-- A master heard once. -/
def master0 : Master :=
  { port := 7, prio1 := 0, cls := 0, acc := 0, var := 0, prio2 := 0, gm := 0, steps := 0, utc := 0, flags := 0, seen := 0, prev := 0,
    every := 0 }

/-- A superblock of lane 5, its header check good, and its bits. -/
def block0 : Bytes :=
  [0x6A, 0x9D, 0x52, 0x55, 0x55, 0x55, BitVec.ofNat 8 (crcMsb 8 0x07 0xFF [0x52, 0x55, 0x55, 0x55])] ++ List.replicate 267 0x55
def blockBits : List Bool := bitsMsb (bytesAt block0 0 274)

/-- A link frame with its CRC. -/
def linkFrame0 : Bytes := zs 2044 ++ toLe 4 (crc32c (zs 2044))

/-- A check record. -/
def check0 : CheckRec := { ch := 0, stream := 0, row := 0, frames := 0, seq := 0, frame := 0, cc := 0, check := 0 }

/-- The service port up, with one sender allowed. -/
def served : State := { rdy with mgt := { rdy.mgt with allow := [(0, 9)] } }

/-- The same in DEV_TRIAL. -/
def servedTrial : State := { trial with mgt := { trial.mgt with allow := [(0, 9)] } }

/-- One opaque layer. -/
def opaque1 : Layer :=
  { act := { enable := true, static := true, src := [0, 0, 8, 8], dst := [0, 0, 8, 8] }, bnd := some { fmt := 2, pitch := 64, base := 0x40000000, w := 16, h := 16, flow := 0 } }

/-- Channel 63 in a flatten, of one opaque layer or of none. -/
def flattening (layer stale : Bool) : State :=
  ((rdy.setTask 2048 { state := 4, kind := kFlatten, ch := 63 }).setCache 63 { flattening := some 2048, stale }).setLayer 252 (if layer then opaque1 else {})

/-! ### Deciding the premises -/

/-- Some state, header and parameters are taken with this opcode and check. -/
def Taken (op : Nat) (chk : OpChk) : Prop := ∃ s h p, State.Takes s op h p chk

/-- The premises of Takes for a command with no flags. -/
def takesB (s : State) (op : Nat) (h : Hdr) (p : Bytes) (chk : OpChk) : Bool :=
  s.served h.qid.val && !(s.popFetched h.qid.val).2.1 && ((s.popFetched h.qid.val).2.2.que h.qid.val).flush.isNone &&
  !h.flags.toNat.testBit 1 && ((s.popFetched h.qid.val).2.2.que h.qid.val).stopWait.isNone &&
  (decide (h.qid.val < 2) || !((s.popFetched h.qid.val).2.2.chan (h.qid.val - 2)).intDue) &&
  (preCheck (s.front h.qid.val) false op h.qid.val h.flags.toNat h.channel.toNat h.plen.toNat h.effpt.toNat (h.zero = 0) p).isNone &&
  (chk (s.front h.qid.val) h.channel.toNat p).isNone && decide ((s.front h.qid.val).genCount ≠ 0)

theorem takes_of {s : State} {op : Nat} {h : Hdr} {p : Bytes} {chk : OpChk} (t : takesB s op h p chk = true) : s.Takes op h p chk := by
  simp only [takesB, Bool.and_eq_true, Bool.or_eq_true, Bool.not_eq_true', Option.isNone_iff_eq_none, decide_eq_true_eq] at t
  obtain ⟨⟨⟨⟨⟨⟨⟨⟨h1, h2⟩, h3⟩, h4⟩, h5⟩, h6⟩, h7⟩, h8⟩, h9⟩ := t
  refine ⟨h1, h2, fun f e => ?_, fun e => ?_, h5, fun e => ?_, h7, h8, h9⟩
  · rw [h3] at e; cases e
  · rw [h4] at e; cases e
  · exact h6.resolve_left (by omega)

/-- The premises of TakesMsg. -/
def takesMsgB (s : State) (snd seq typ : Nat) : Bool :=
  s.aoOn && !s.mgt.down && s.mgt.allow.any (fun e => e.2 = snd) && (!s.svcRom || [1, 2, 3, 4, 5, 8].contains typ) &&
  (s.mgt.last.find? (fun l => l.sender = snd && l.seq = seq)).isNone

theorem takesMsg_of {s : State} {snd seq typ : Nat} (t : takesMsgB s snd seq typ = true) : s.TakesMsg snd seq typ := by
  simp only [takesMsgB, Bool.and_eq_true, Bool.or_eq_true, Bool.not_eq_true', Option.isNone_iff_eq_none] at t
  obtain ⟨⟨⟨⟨h1, h2⟩, h3⟩, h4⟩, h5⟩ := t
  exact ⟨h1, h2, h3, fun e => h4.resolve_left (by simp [e]), h5⟩

/-! ### Premises that take more than an evaluation -/

/-- A bank of coefficients: each phase is its middle tap alone. -/
def coefByte (i : Nat) : Byte := if i < 8 then 0 else if i < 1032 then (if (i - 8) % 16 = 7 then 1 else 0) else if (i - 1032) % 12 = 5 then 1 else 0
def coefBytes : Bytes := (List.range 1800).map coefByte

theorem coefBytes_get {i : Nat} (h : i < 1800) : coefBytes.getD i 0 = coefByte i := by
  simp [coefBytes, List.getD_eq_getElem?_getD, h]

theorem coefBytes_taps {o n : Nat} (h : o + 2 * n ≤ 1800) : tapsOf coefBytes o n =
    (List.range n).map fun i => ofTwos 16 ((coefByte (o + 2 * i)).toNat + 256 * (coefByte (o + 2 * i + 1)).toNat) := by
  refine List.map_congr_left fun i hi => ?_
  have hi := List.mem_range.1 hi
  have e : fld coefBytes (o + 2 * i) 2 = (coefByte (o + 2 * i)).toNat + 256 * (coefByte (o + 2 * i + 1)).toNat := by
    simp only [fld, bytesAt, show List.range 2 = [0, 1] from rfl, List.map_cons, List.map_nil, leNat, Nat.add_zero]
    rw [coefBytes_get (by omega), coefBytes_get (by omega)]; omega
  rw [e]

theorem coefBytes_good (s : State) (n : Nat) : chkCmpSetCoef s n coefBytes = none := by
  unfold chkCmpSetCoef
  simp only [coefBytes_taps (o := 8) (n := 512) (by decide), coefBytes_taps (o := 1032) (n := 384) (by decide)]
  decide +kernel

/-- A command whose check is shown apart. -/
theorem takes_chk {s : State} {op : Nat} {h : Hdr} {p : Bytes} {chk : OpChk} (t : takesB s op h p noChk = true)
    (c : chk (s.front h.qid.val) h.channel.toNat p = none) : s.Takes op h p chk :=
  let x := takes_of t
  ⟨x.served, x.copied, x.kept, x.ordered, x.free, x.sound, x.header, c, x.room⟩

theorem orElse_none {a : Option Ref4} {f : Unit → Option Ref4} (h : a = none) (g : f () = none) : orElse a f = none := by
  rw [h]; exact g

/-- With no page taken, the pages outside the partitions are free. -/
theorem sharedFree_all {s : State} (h : s.cst.pages = []) : s.sharedFree.length = 76800 := by
  unfold State.sharedFree
  rw [List.length_reverse, List.filter_eq_self.2, List.length_range]
  intro p hp
  have := List.mem_range.1 hp
  simp [State.page, h, tget, pageDefault, this]

theorem cpbFree_all {s : State} (h : s.cst.pages = []) : s.cpbFree.length = 49152 := by
  unfold State.cpbFree
  rw [List.length_reverse, List.filter_eq_self.2, List.length_map, List.length_range]
  intro p hp
  obtain ⟨i, hi, rfl⟩ := List.mem_map.1 hp
  have := List.mem_range.1 hi
  have a : ¬ i + 77824 < 76800 := by omega
  have b : ¬ i + 77824 < 77824 := by omega
  have c : i + 77824 < 126976 := by omega
  simp [State.page, h, tget, pageDefault, a, b, c]

/-- The same as its command finds it. -/
def formedUp : State := (formed.front 0).assignMacs 0

theorem formedUp_admits : formedUp.admitCheck 0 = none := by
  unfold State.admitCheck
  simp only [sharedFree_all (s := formedUp) (by decide +kernel), cpbFree_all (s := formedUp) (by decide +kernel)]
  decide +kernel

theorem crcReflBits_lt {poly : Nat} (h : poly < 2 ^ 32) : ∀ (n : Nat) {c : Nat}, c < 2 ^ 32 → crcReflBits poly n c < 2 ^ 32
  | 0, _, hc => hc
  | n + 1, c, hc => by
    have d : c / 2 < 2 ^ 32 := by omega
    unfold crcReflBits
    split
    · exact crcReflBits_lt h n (Nat.xor_lt_two_pow d h)
    · exact crcReflBits_lt h n d

theorem crc32c_lt (p : Bytes) : crc32c p < 2 ^ 32 := by
  have step : ∀ (p : Bytes) (c : Nat), c < 2 ^ 32 → crcRefl 0x82F63B78 c p < 2 ^ 32 := fun p => by
    induction p with
    | nil => exact fun c hc => hc
    | cons b r ih => exact fun c hc => ih _ (crcReflBits_lt (by decide) 8 (Nat.xor_lt_two_pow hc (by omega)))
  exact Nat.xor_lt_two_pow (step p _ (by decide)) (by decide)

/-- A CRC at the end of a frame is read back. -/
theorem fld_last (z : Bytes) {c : Nat} (hc : c < 2 ^ 32) : fld (z ++ toLe 4 c) z.length 4 = c := by
  have g : ∀ i, (z ++ toLe 4 c).getD (z.length + i) 0 = (toLe 4 c).getD i 0 := fun i => by
    rw [List.getD_append_right _ _ _ _ (by omega)]
    congr 1; omega
  simp only [fld, bytesAt, show List.range 4 = [0, 1, 2, 3] from rfl, List.map_cons, List.map_nil, g]
  simp only [toLe, leNat, List.getD_cons_zero, List.getD_cons_succ, BitVec.toNat_ofNat]
  omega

/-- A field inside zeros is zero. -/
theorem fld_zeros (m : Nat) (q : Bytes) {i n : Nat} (h : i + n ≤ m) : fld (zs m ++ q) i n = 0 := by
  have z : ∀ k, leNat (List.replicate k 0) = 0 := fun k => by
    induction k with
    | zero => rfl
    | succ k ih => rw [List.replicate_succ, leNat, ih]; rfl
  have e : bytesAt (zs m ++ q) i n = List.replicate n 0 := by
    refine List.eq_replicate_iff.2 ⟨by simp [bytesAt], fun b hb => ?_⟩
    obtain ⟨k, hk, rfl⟩ := List.mem_map.1 hb
    have hk := List.mem_range.1 hk
    rw [List.getD_append _ _ _ _ (by rw [zs, List.length_replicate]; omega), zs, List.getD_eq_getElem?_getD,
      List.getElem?_replicate, if_pos (by omega)]
    rfl
  rw [fld, e, z]

theorem linkFrame0_crc : crc32c (linkFrame0.take 2044) = fld linkFrame0 2044 4 := by
  have n : (zs 2044).length = 2044 := List.length_replicate ..
  have f := fld_last (zs 2044) (crc32c_lt (zs 2044))
  rw [n] at f
  rw [linkFrame0, f, List.take_left' n]

theorem linkFrame0_length : linkFrame0.length = 2048 := by
  rw [linkFrame0, List.length_append, zs, List.length_replicate]; rfl

theorem linkFrame0_low : fld linkFrame0 0 1 = 0 ∧ fld linkFrame0 2 2 = 0 := by
  rw [linkFrame0]; exact ⟨fld_zeros _ _ (by decide), fld_zeros _ _ (by decide)⟩

theorem linkFrame0_fits : fld linkFrame0 0 1 < 3 ∧ fld linkFrame0 2 2 = tget 0 linked.pair.rx (fld linkFrame0 0 1) := by
  rw [linkFrame0_low.1, linkFrame0_low.2]; exact ⟨by decide, by decide +kernel⟩

/-! ### Premises that hold together -/

theorem hyps_StepRunsTheFrontCommand : ∃ (s : State) (c : Instr) (rest : List Instr), s.pending = c :: rest :=
  ⟨{ rdy with pending := [.vddAoLoss] }, .vddAoLoss, [], rfl⟩

theorem hyps_EmptyQueueIdles : ∃ (s : State), s.pending = [] :=
  ⟨rdy, rfl⟩

theorem hyps_EveryStepKeepsShownRegistersTrue : ∃ s t : State, s.Settled ∧ step s = .next t :=
  ⟨State.reset, State.reset, ⟨by decide +kernel, by decide +kernel, by decide +kernel, by decide +kernel, by decide +kernel, by decide +kernel⟩, rfl⟩

theorem hyps_DeviceCommandsComplete_1 : Taken 0x0000 noChk :=
  ⟨rdy, hd 0 255 ([]), [], takes_of (by decide +kernel)⟩

theorem hyps_DeviceCommandsComplete_2 : Taken 0x0001 noChk :=
  ⟨rdy, hd 0 255 ([]), [], takes_of (by decide +kernel)⟩

theorem hyps_DeviceCommandsComplete_3 : Taken 0x0006 chkEngService :=
  ⟨rdy, hd 0 255 (zs 8), zs 8, takes_of (by decide +kernel)⟩

theorem hyps_DeviceCommandsComplete_4 : Taken 0x0900 chkCvuConfig :=
  ⟨rdy, hd 0 255 ([0, 0, 1] ++ zs 13), [0, 0, 1] ++ zs 13, takes_of (by decide +kernel)⟩

theorem hyps_DeviceCommandsComplete_5 : Taken 0x0A00 noChk :=
  ⟨rdy, hd 0 255 ([]), [], takes_of (by decide +kernel)⟩

theorem hyps_DeviceCommandsComplete_6 : Taken 0x0A01 noChk :=
  ⟨rdy, hd 0 255 ([]), [], takes_of (by decide +kernel)⟩

theorem hyps_DeviceCommandsComplete_7 : Taken 0x0A03 chkOnAirLock :=
  ⟨rdy, hd 0 255 (zs 4), zs 4, takes_of (by decide +kernel)⟩

theorem hyps_DeviceCommandsComplete_8 : Taken 0x0901 noChk :=
  ⟨rdy, hd 0 255 ([]), [], takes_of (by decide +kernel)⟩

theorem hyps_UpdateConfirmCompletes : ∃ (s : State) (h : Hdr) (p : Bytes), s.Takes 0x0A02 h p noChk ∧ (s.front h.qid.val).canConfirm = true :=
  ⟨trial, hd 0 255 [], [], ⟨takes_of (by decide +kernel), by decide +kernel⟩⟩

theorem hyps_QueueCommandsComplete_1 : Taken 0x0002 chkQueueCreate :=
  ⟨rdy, hd 0 255 ([2, 4, 4] ++ zs 29), [2, 4, 4] ++ zs 29, takes_of (by decide +kernel)⟩

theorem hyps_QueueCommandsComplete_2 : Taken 0x0003 chkQueueDelete :=
  ⟨(rdy.wr Reg.HIF_QSTAT_ENABLED 1 0 2), hd 0 255 ([2] ++ zs 7), [2] ++ zs 7, takes_of (by decide +kernel)⟩

theorem hyps_QueueCommandsComplete_3 : Taken 0x0004 chkQueueResume :=
  ⟨rdy, hd 0 255 ([65, 1] ++ zs 6), [65, 1] ++ zs 6, takes_of (by decide +kernel)⟩

theorem hyps_QueueCommandsComplete_4 : Taken 0x0005 chkBarrier :=
  ⟨rdy, hd 0 255 (zs 16 ++ [1] ++ zs 7), zs 16 ++ [1] ++ zs 7, takes_of (by decide +kernel)⟩

theorem hyps_ChannelStateCommandsComplete_1 : Taken 0x0100 noChk :=
  ⟨rdy, hd 0 63 ([]), [], takes_of (by decide +kernel)⟩

theorem hyps_ChannelStateCommandsComplete_2 : Taken 0x0101 chkChDestroy :=
  ⟨(inState 1), hd 0 0 ([]), [], takes_of (by decide +kernel)⟩

theorem hyps_ChannelStateCommandsComplete_3 : Taken 0x0109 chkChAdmit :=
  ⟨formed, hd 0 0 [], [], takes_chk (by decide +kernel) (orElse_none (by decide +kernel) formedUp_admits)⟩

theorem hyps_ChannelStateCommandsComplete_4 : Taken 0x010A noChk :=
  ⟨(inState 2), hd 0 0 ([]), [], takes_of (by decide +kernel)⟩

theorem hyps_ChannelStateCommandsComplete_5 : Taken 0x010B noChk :=
  ⟨(inState 2), hd 0 0 ([]), [], takes_of (by decide +kernel)⟩

theorem hyps_ChannelStateCommandsComplete_6 : Taken 0x010C noChk :=
  ⟨(inState 3), hd 0 0 ([]), [], takes_of (by decide +kernel)⟩

theorem hyps_ChannelStateCommandsComplete_7 : Taken 0x010D noChk :=
  ⟨(inState 6), hd 0 0 ([]), [], takes_of (by decide +kernel)⟩

theorem hyps_ChannelStateCommandsComplete_8 : Taken 0x010E noChk :=
  ⟨(inState 3), hd 0 0 ([]), [], takes_of (by decide +kernel)⟩

theorem hyps_ChannelStateCommandsComplete_9 : Taken 0x010F chkChMarkLong :=
  ⟨((inState 3).setChan 0 { refs := 2 }), hd 0 0 ([]), [], takes_of (by decide +kernel)⟩

theorem hyps_ChannelStateCommandsComplete_10 : Taken 0x0110 noChk :=
  ⟨rdy, hd 0 0 ([]), [], takes_of (by decide +kernel)⟩

theorem hyps_ChannelSettingCommandsComplete_1 : Taken 0x0102 chkChSetFormat :=
  ⟨(inState 1), hd 0 0 ([1, 5] ++ zs 6), [1, 5] ++ zs 6, takes_of (by decide +kernel)⟩

theorem hyps_ChannelSettingCommandsComplete_2 : Taken 0x0103 chkChSetLatency :=
  ⟨(inState 1), hd 0 0 (toLe 4 100000 ++ zs 4), toLe 4 100000 ++ zs 4, takes_of (by decide +kernel)⟩

theorem hyps_ChannelSettingCommandsComplete_3 : Taken 0x0104 chkChSetCoding :=
  ⟨(inState 1), hd 0 0 ([8] ++ zs 39), [8] ++ zs 39, takes_of (by decide +kernel)⟩

theorem hyps_ChannelSettingCommandsComplete_4 : Taken 0x0105 chkChSetRefs :=
  ⟨(inState 1), hd 0 0 ([1, 0, 0, 0]), [1, 0, 0, 0], takes_of (by decide +kernel)⟩

theorem hyps_ChannelSettingCommandsComplete_5 : Taken 0x0106 chkChSetRate :=
  ⟨((inState 1).withFormat 0 ([1, 5] ++ zs 6)), hd 0 0 (toLe 4 20000 ++ zs 4 ++ [30, 10, 40, 0, 4, 0, 0, 0]), toLe 4 20000 ++ zs 4 ++ [30, 10, 40, 0,
    4, 0, 0, 0], takes_of (by decide +kernel)⟩

theorem hyps_ChannelSettingCommandsComplete_6 : Taken 0x0107 chkChSetRefresh :=
  ⟨(inState 1), hd 0 0 ([0, 0, 0, 16]), [0, 0, 0, 16], takes_of (by decide +kernel)⟩

theorem hyps_ChannelSettingCommandsComplete_7 : Taken 0x0108 chkChSetSlotmask :=
  ⟨(inState 1), hd 0 0 ([1, 0, 0, 0]), [1, 0, 0, 0], takes_of (by decide +kernel)⟩

theorem hyps_InputOutputAudioCommandsComplete_1 : Taken 0x0120 chkInCreate :=
  ⟨rdy, hd 0 255 ([127, 1, 0, 1] ++ zs 68 ++ [255, 255] ++ zs 6), [127, 1, 0, 1] ++ zs 68 ++ [255, 255] ++ zs 6, takes_of (by decide +kernel)⟩

theorem hyps_InputOutputAudioCommandsComplete_2 : Taken 0x0121 chkInDestroy :=
  ⟨(rdy.setFlowIn 383 (some flow0)), hd 0 255 ([127, 1, 0, 0]), [127, 1, 0, 0], takes_of (by decide +kernel)⟩

theorem hyps_InputOutputAudioCommandsComplete_3 : Taken 0x0122 chkInSetMeter :=
  ⟨rdy, hd 0 255 (zs 12 ++ toLe 4 9216 ++ toLe 4 9216 ++ zs 4), zs 12 ++ toLe 4 9216 ++ toLe 4 9216 ++ zs 4, takes_of (by decide +kernel)⟩

theorem hyps_InputOutputAudioCommandsComplete_4 : Taken 0x0500 chkOutCreate :=
  ⟨(inState 1), hd 0 0 ([1, 0, 96] ++ zs 9 ++ [1] ++ zs 51), [1, 0, 96] ++ zs 9 ++ [1] ++ zs 51, takes_of (by decide +kernel)⟩

theorem hyps_InputOutputAudioCommandsComplete_5 : Taken 0x0501 chkOutDestroy :=
  ⟨((inState 1).setProg 0 (some (progOf ([1, 0, 96] ++ zs 61)))), hd 0 0 ([]), [], takes_of (by decide +kernel)⟩

theorem hyps_InputOutputAudioCommandsComplete_6 : Taken 0x0502 chkOutSetShaper :=
  ⟨((inState 1).setProg 0 (some (progOf ([1, 0, 96] ++ zs 61)))), hd 0 0 (zs 8 ++ toLe 4 1560 ++ zs 4), zs 8 ++ toLe 4 1560 ++ zs 4,
    takes_of (by decide +kernel)⟩

theorem hyps_InputOutputAudioCommandsComplete_7 : Taken 0x0503 chkOutSetWindow :=
  ⟨rdy, hd 0 255 (zs 4 ++ toLe 4 1000 ++ toLe 4 999 ++ toLe 4 1), zs 4 ++ toLe 4 1000 ++ toLe 4 999 ++ toLe 4 1, takes_of (by decide +kernel)⟩

theorem hyps_InputOutputAudioCommandsComplete_8 : Taken 0x0400 chkAudSetPort :=
  ⟨rdy, hd 0 255 ([15, 0, 0, 24] ++ zs 6 ++ [255] ++ zs 5), [15, 0, 0, 24] ++ zs 6 ++ [255] ++ zs 5, takes_of (by decide +kernel)⟩

theorem hyps_InputOutputAudioCommandsComplete_9 : Taken 0x0401 chkAudRoute :=
  ⟨(inState 1), hd 0 0 ([7] ++ zs 7), [7] ++ zs 7, takes_of (by decide +kernel)⟩

theorem hyps_InputOutputAudioCommandsComplete_10 : Taken 0x0402 chkAudUnroute :=
  ⟨((inState 1).setRoute 0 7 (some (routeOf ([7] ++ zs 7)))), hd 0 0 ([7, 0, 0, 0]), [7, 0, 0, 0], takes_of (by decide +kernel)⟩

theorem hyps_CompositionCommandsComplete_1 : Taken 0x0200 chkLayerSet :=
  ⟨((inState 1).withFormat 0 ([1, 5] ++ zs 6)), hd 0 0 (zs 12 ++ [8, 0, 8, 0, 0, 0, 0, 0, 8, 0, 8, 0] ++ zs 40), zs 12 ++ [8, 0, 8, 0, 0, 0, 0, 0, 8,
    0, 8, 0] ++ zs 40, takes_of (by decide +kernel)⟩

theorem hyps_CompositionCommandsComplete_2 : Taken 0x0201 chkLayerBind :=
  ⟨((inState 1).withFormat 0 ([1, 5] ++ zs 6)), hd 0 0 (zs 4 ++ [0, 0, 0, 0x40] ++ zs 4 ++ [64, 0, 0, 0, 16, 0, 16, 0] ++ zs 4), zs 4 ++ [0, 0, 0,
    0x40] ++ zs 4 ++ [64, 0, 0, 0, 16, 0, 16, 0] ++ zs 4, takes_of (by decide +kernel)⟩

theorem hyps_CompositionCommandsComplete_3 : Taken 0x0202 chkLayerFlip :=
  ⟨((inState 1).setLayer 0 { latestBnd := some (lbindOf (zs 4 ++ [0, 0, 0, 0x40] ++ zs 4 ++ [64, 0, 0, 0, 16, 0, 16, 0] ++ zs 4)) }),
    hd 0 0 (zs 11 ++ [0x40] ++ zs 4), zs 11 ++ [0x40] ++ zs 4, takes_of (by decide +kernel)⟩

theorem hyps_CompositionCommandsComplete_4 : Taken 0x0203 chkLayerDirty :=
  ⟨(inState 1), hd 0 0 ([3] ++ zs 7), [3] ++ zs 7, takes_of (by decide +kernel)⟩

theorem hyps_CompositionCommandsComplete_5 : Taken 0x0210 chkCmpSetCoef :=
  ⟨rdy, hd 0 255 coefBytes, coefBytes, takes_chk (by decide +kernel) (coefBytes_good _ _)⟩

theorem hyps_CompositionCommandsComplete_6 : Taken 0x0300 chkBlit :=
  ⟨(rdy.wr Reg.BLT_UNITSTAT_STATE 0 7), hd 0 255 (zs 8 ++ [0, 0, 0, 0x40, 0, 0, 0, 0] ++ [0, 0, 0x10, 0x40, 0, 0, 0, 0] ++ [64, 0, 0, 0, 64, 0, 0,
    0] ++ zs 8 ++ [1, 0, 1, 0] ++ zs 52), zs 8 ++ [0, 0, 0, 0x40, 0, 0, 0, 0] ++ [0, 0, 0x10, 0x40, 0, 0, 0, 0] ++ [64, 0, 0, 0, 64, 0, 0,
    0] ++ zs 8 ++ [1, 0, 1, 0] ++ zs 52, takes_of (by decide +kernel)⟩

theorem hyps_CompositionCommandsComplete_7 : Taken 0x0F00 chkEm :=
  ⟨(inState 1), hd 1 255 ([1] ++ zs 7), [1] ++ zs 7, takes_of (by decide +kernel)⟩

theorem hyps_CompositionCommandsComplete_8 : Taken 0x0F01 chkEm :=
  ⟨(inState 1), hd 1 255 ([1] ++ zs 7), [1] ++ zs 7, takes_of (by decide +kernel)⟩

theorem hyps_CompositionCommandsComplete_9 : Taken 0x0F02 chkEmSetVariant :=
  ⟨rdy, hd 0 255 ([3] ++ zs 15), [3] ++ zs 15, takes_of (by decide +kernel)⟩

theorem hyps_TimePairStoreDramCommandsComplete_1 : Taken 0x0600 chkTimeSetPtp :=
  ⟨rdy, hd 0 255 ([127, 0, 0, 2] ++ zs 4), [127, 0, 0, 2] ++ zs 4, takes_of (by decide +kernel)⟩

theorem hyps_TimePairStoreDramCommandsComplete_2 : Taken 0x0601 chkTimeSetPort :=
  ⟨rdy, hd 0 255 (zs 16), zs 16, takes_of (by decide +kernel)⟩

theorem hyps_TimePairStoreDramCommandsComplete_3 : Taken 0x0602 chkTimeSetOutputs :=
  ⟨rdy, hd 0 255 ([31, 0, 0, 0, 63, 63, 63, 63]), [31, 0, 0, 0, 63, 63, 63, 63], takes_of (by decide +kernel)⟩

theorem hyps_TimePairStoreDramCommandsComplete_4 : Taken 0x0603 noChk :=
  ⟨rdy, hd 0 255 ([]), [], takes_of (by decide +kernel)⟩

theorem hyps_TimePairStoreDramCommandsComplete_5 : Taken 0x0700 chkPairEnable :=
  ⟨rdy, hd 0 255 ([0, 0, 50, 0] ++ toLe 4 1000 ++ toLe 4 10 ++ zs 4), [0, 0, 50, 0] ++ toLe 4 1000 ++ toLe 4 10 ++ zs 4, takes_of (by decide +kernel)⟩

theorem hyps_TimePairStoreDramCommandsComplete_6 : Taken 0x0701 noChk :=
  ⟨rdy, hd 0 255 ([]), [], takes_of (by decide +kernel)⟩

theorem hyps_TimePairStoreDramCommandsComplete_7 : Taken 0x0702 chkPairHandover :=
  ⟨headstock, hd 0 255 ([]), [], takes_of (by decide +kernel)⟩

theorem hyps_TimePairStoreDramCommandsComplete_8 : Taken 0x0703 noChk :=
  ⟨rdy, hd 0 255 ([]), [], takes_of (by decide +kernel)⟩

theorem hyps_TimePairStoreDramCommandsComplete_9 : Taken 0x0800 chkMemAlloc :=
  ⟨rdy, hd 0 255 ([1, 0, 0, 0]), [1, 0, 0, 0], takes_of (by decide +kernel)⟩

theorem hyps_TimePairStoreDramCommandsComplete_10 : Taken 0x0801 chkMemFree :=
  ⟨({ rdy with cst := { rdy.cst with runs := [(0, 1)] } }), hd 0 255 ([0, 0, 0, 0x40, 0, 0, 0, 0]), [0, 0, 0, 0x40, 0, 0, 0, 0],
    takes_of (by decide +kernel)⟩

theorem hyps_TimePairStoreDramCommandsComplete_11 : Taken 0x0810 chkDramSetPoint :=
  ⟨((List.range 24).foldl (fun (t : State) c => t.wr Reg.DMC_CHSTAT_TRAINED 15 c) rdy), hd 0 255 ([3, 0, 0, 0]), [3, 0, 0, 0],
    takes_of (by decide +kernel)⟩

theorem hyps_TimePairStoreDramCommandsComplete_12 : Taken 0x0811 chkDramTrain :=
  ⟨rdy, hd 0 255 ([3, 0, 0, 0, 1, 0, 0, 0]), [3, 0, 0, 0, 1, 0, 0, 0], takes_of (by decide +kernel)⟩

theorem hyps_TimePairStoreDramCommandsComplete_13 : Taken 0x0812 noChk :=
  ⟨rdy, hd 0 255 ([]), [], takes_of (by decide +kernel)⟩

theorem hyps_ReservedOpcodesAreRefused_1 : ∃ (s : State) (op : Nat) (h : Hdr), opDef op = none ∧ s.served h.qid.val = true ∧
    (s.que h.qid.val).fetched = [] ∧ (s.que h.qid.val).flush = none ∧ (s.que h.qid.val).stopWait = none ∧ h.flags.toNat.testBit 1 = false ∧
    (2 ≤ h.qid.val → (s.chan (h.qid.val - 2)).intDue = false) :=
  ⟨rdy.wr Reg.HIF_QSTAT_ENABLED 1 0 65, 0xFFFF, hd 65 255 [], by decide +kernel⟩

theorem hyps_ReservedOpcodesAreRefused_2 : ∃ (s : State) (op : Nat) (h : Hdr), opDef op = none ∧ s.served h.qid.val = true ∧
    (s.popFetched h.qid.val).2.1 = false ∧ (∀ f, ((s.popFetched h.qid.val).2.2.que h.qid.val).flush = some f → f ≤ (s.popFetched h.qid.val).1) ∧
    (h.flags.toNat.testBit 1 = true → ((s.popFetched h.qid.val).2.2.que h.qid.val).owes = false) ∧
    ((s.popFetched h.qid.val).2.2.que h.qid.val).stopWait = none ∧ (2 ≤ h.qid.val → ((s.popFetched h.qid.val).2.2.chan (h.qid.val - 2)).intDue =
    false) :=
  ⟨(rdy.wr Reg.HIF_QSTAT_ENABLED 1 0 65).setQue 65 { fetched := [{ pos := 7, slots := 1, tag := 1, opcode := 0xFFFF, flags := 0, channel := 255, plen := 0, dma := 0 }], headAbs := 8 },
    0xFFFF, hd 65 255 [], ⟨by decide +kernel, by decide +kernel, by decide +kernel, fun f h => (nomatch (show (none : Option Nat) = some f from h)),
    by decide +kernel, by decide +kernel, by decide +kernel⟩⟩

theorem hyps_QueueFetchCommandsComplete_1 : ∃ (s : State) (q v : Nat), s.dev ≠ 0 ∧ q ≤ 66 ∧ s.qExists q = true ∧ (s.que q).deleting = none ∧ q ≠ 66 ∧
    v < 2 ^ (s.que q).sqlog2 ∧ v < 2 ^ 32 ∧ (let size := 2 ^ (s.que q).sqlog2
    let adv := (v + size - s.rd Reg.HIF_QSTAT_TAIL 0 q) % size
    adv ≠ 0 ∧ (s.rd Reg.HIF_QSTAT_TAIL 0 q + size - s.rd Reg.HIF_QSTAT_HEAD 0 q) % size + adv ≤ size - 1) :=
  ⟨qOn, 2, 15, by decide +kernel⟩

theorem hyps_QueueFetchCommandsComplete_2 : ∃ (s : State) (q v : Nat), s.dev ≠ 0 ∧ q ≤ 66 ∧ s.qExists q = true ∧ v < 2 ^ (s.que q).cqlog2 ∧
    v < 2 ^ 32 :=
  ⟨qOn, 2, 15, by decide +kernel⟩

theorem hyps_QueueFetchCommandsComplete_3 : ∃ (s : State) (q : Fin 66) (slot : Bytes), s.canFetch q = true ∧
    (s.que q).headAbs + slotsOf (fld slot 6 2) ≤ (s.que q).limit ∧ (s.que q).eqHeld = false ∧ (q.val = 1 → s.eqRoom = true) ∧
    (needsDma q (fld slot 6 2) = true → s.genCount ≠ 0) :=
  ⟨qOn, 2, zs 64, by decide +kernel⟩

theorem hyps_QueueFetchCommandsComplete_4 : ∃ (s : State) (q : Fin 66), s.canFetch q = true ∧ (s.que q).headAbs < (s.que q).limit :=
  ⟨qOn, 2, by decide +kernel⟩

theorem hyps_QueueFetchCommandsComplete_5 : ∃ (s : State) (q : Fin 66), s.rd Reg.HIF_QSTAT_CQFULL 0 q = 1 ∧ s.ringRoom q = true :=
  ⟨qOn.wr Reg.HIF_QSTAT_CQFULL 1 0 2, 2, by decide +kernel⟩

theorem hyps_QueueFetchCommandsComplete_6 : ∃ (s : State), (s.que 1).eqHeld = true ∧ s.eqRoom = true :=
  ⟨rdy.setQue 1 { eqHeld := true, cqlog2 := 4 }, by decide +kernel⟩

theorem hyps_QueueFetchCommandsComplete_7 : ∃ (s : State) (q : Fin 67), (s.que q).coalDue s.ns = true :=
  ⟨rdy.setQue 66 { unsig := 1 }, 66, by decide +kernel⟩

theorem hyps_QueueControlCommandsComplete_1 : ∃ (s : State) (q : Fin 66) (b : Barrier), (s.que q).barrier = some b ∧ b.expiry ≤ s.ns :=
  ⟨rdy.setQue 65 { barrier := some { pos := 0, tag := 0, flags := 0, tails := [(2, 0)], expiry := 0 } }, 65,
    { pos := 0, tag := 0, flags := 0, tails := [(2, 0)], expiry := 0 }, by decide +kernel⟩

theorem hyps_QueueControlCommandsComplete_2 : ∃ (s : State) (q : Fin 66) (b : Barrier), (s.que q).barrier = some b ∧
    b.tails.all (fun e => s.upTo e.1 e.2) = true :=
  ⟨rdy.setQue 65 { barrier := some { pos := 0, tag := 0, flags := 0, tails := [(2, 0)], expiry := 0 } }, 65,
    { pos := 0, tag := 0, flags := 0, tails := [(2, 0)], expiry := 0 }, by decide +kernel⟩

theorem hyps_QueueControlCommandsComplete_3 : ∃ (s : State) (q : Fin 67) (key tail : Nat), (s.que q).deleting = some (key, tail) ∧
    (q.val ≠ 66 → tail ≤ (s.que q).headAbs ∧ (s.que q).openPos = [] ∧ (s.que q).replies = [] ∧ (s.que q).outst = []) :=
  ⟨rdy.setQue 65 { deleting := some (1, 0) }, 65, 1, 0, by decide +kernel⟩

theorem hyps_QueueControlCommandsComplete_4 : ∃ (s : State) (q : Fin 66) (i : Instr) (pos op : Nat) (h : Hdr) (p : Bytes), (s.que q).held = some (i,
    pos) ∧ opParts i = some (op, h, p) ∧ (s.que q).flushes pos = false ∧ s.mayResume q h = true :=
  ⟨qOn.setQue 2 { held := some (.opNop (hd 2 0 []) [], 0) }, 2, .opNop (hd 2 0 []) [], 0, 0, hd 2 0 [], [], by decide +kernel⟩

theorem hyps_QueueControlCommandsComplete_5 : ∃ (s : State) (c : Fin 4), tget false s.hif.coreDown c = false ∧ ((s.hif.restarts ++ [(s.ns,
    c.val)]).filter fun e => decide (s.ns ≤ e.1 + 60000000000)).length < 3 :=
  ⟨rdy, 3, by decide +kernel⟩

theorem hyps_QueueControlCommandsComplete_6 : ∃ (s : State) (seq : Nat), s.ackLate seq = true :=
  ⟨late (rdy.setQue 0 { replies := [{ reply0 with hold := .ack 65535 0 }] }), 65535, by decide +kernel⟩

theorem hyps_QueueControlCommandsComplete_7 : ∃ (s : State), s.dev ≠ 0 ∧ s.rd Reg.HIF_AQCTL_ENABLE = 0 ∧ 4 ≤ s.rd Reg.HIF_AQSIZE_SQLOG2 ∧
    s.rd Reg.HIF_AQSIZE_SQLOG2 ≤ 16 ∧ 4 ≤ s.rd Reg.HIF_AQSIZE_CQLOG2 ∧ s.rd Reg.HIF_AQSIZE_CQLOG2 ≤ 16 :=
  ⟨(rdy.wr Reg.HIF_AQSIZE_SQLOG2 4).wr Reg.HIF_AQSIZE_CQLOG2 16, by decide +kernel⟩

theorem hyps_QueueControlCommandsComplete_8 : ∃ (s : State), s.dev ≠ 0 ∧ s.rd Reg.HIF_EQCTL_ENABLE = 0 ∧ 4 ≤ s.rd Reg.HIF_EQSIZE_SQLOG2 ∧
    s.rd Reg.HIF_EQSIZE_SQLOG2 ≤ 8 ∧ 4 ≤ s.rd Reg.HIF_EQSIZE_CQLOG2 ∧ s.rd Reg.HIF_EQSIZE_CQLOG2 ≤ 8 :=
  ⟨(rdy.wr Reg.HIF_EQSIZE_SQLOG2 4).wr Reg.HIF_EQSIZE_CQLOG2 8, by decide +kernel⟩

theorem hyps_QueueControlCommandsComplete_9 : ∃ (s : State), s.dev ≠ 0 ∧ s.rd Reg.HIF_AQCTL_ENABLE = 1 ∧ s.rd Reg.HIF_EQCTL_ENABLE = 1 :=
  ⟨(rdy.wr Reg.HIF_AQCTL_ENABLE 1).wr Reg.HIF_EQCTL_ENABLE 1, by decide +kernel⟩

theorem hyps_QueueControlCommandsComplete_10 : ∃ (s : State), s.dev ≠ 0 ∧ s.rd Reg.HIF_QSTAT_HALTED 0 0 = 1 :=
  ⟨rdy.wr Reg.HIF_QSTAT_HALTED 1 0 0, by decide +kernel⟩

theorem hyps_QueueControlCommandsComplete_11 : ∃ (s : State) (q : Fin 66) (r : Rply) (rest : List Rply) (t : Nat), (s.que q).replies = r :: rest ∧
    r.hold = .until t :=
  ⟨rdy.setQue 65 { replies := [{ reply0 with hold := .until 5 }] }, 65, { reply0 with hold := .until 5 }, [], 5, by decide +kernel⟩

theorem hyps_SpindleCommandsComplete_1 : ∃ (s : State), s.fclk = true :=
  ⟨rdy, by decide +kernel⟩

theorem hyps_SpindleCommandsComplete_2 : ∃ (s : State) (n : Fin 64) (t : Nat), (s.at t).live n = true ∧ (s.at t).fclk = true ∧ (∀ l,
    ((s.at t).chan n).lastPic = some l → ((s.at t).chan n).nextFrame ≤ l) ∧
    cdiv ((s.at t).boundaryNs n ((s.at t).chan n).nextFrame ((s.at t).chan n).nextRow) 1000 ≤ (s.at t).tick :=
  ⟨(late (inState 3)).wr Reg.SPD_TICK_US 1000000000, 0, 0, ⟨by decide +kernel, by decide +kernel, fun l h => (nomatch (show (none : Option Nat) =
    some l from h)), by decide +kernel⟩⟩

theorem hyps_SpindleCommandsComplete_3 : ∃ (s : State) (c : Fin 4) (d u : Nat), s.fclk = true ∧ State.pickTask ((if c =
    0 then s.bindStandins else s).testsDue c) c = some (d, u) :=
  ⟨rdy.setTask 2048 { state := 3, kind := kPack, cls := 2, ch := 63 }, 2, 2048, 64, by decide +kernel⟩

theorem hyps_SpindleCommandsComplete_4 : ∃ (s : State) (d : Fin 16384), (s.task d).state = 4 ∧ s.fclk = true ∧ (s.task d).ch < 64 :=
  ⟨busy kPack, 16383, by decide +kernel⟩

theorem hyps_SpindleCommandsComplete_5 : ∃ (s : State) (d : Fin 16384), s.lateTask d = true ∧ (s.task d).kind ≠ kSlice ∧
    (s.task d).kind ≠ kReencode :=
  ⟨(late rdy).setTask 16383 { state := 4, kind := kPack, ch := 63, deadline := some 5 }, 16383, by decide +kernel⟩

theorem hyps_SpindleCommandsComplete_6 : ∃ (s : State), s.genCount ≠ 0 :=
  ⟨qOn.setQue 2 { held := some (.opNop (hd 2 0 []) [], 0) }, by decide +kernel⟩

theorem hyps_SpindleCommandsComplete_7 : ∃ (s : State) (d : Fin 16384), (s.task d).state ≠ 0 ∧ s.fclk = true :=
  ⟨busy kPack, 16383, by decide +kernel⟩

theorem hyps_SpindleCommandsComplete_8 : ∃ (s : State), s.fclk = true :=
  ⟨rdy, by decide +kernel⟩

theorem hyps_SpindleCommandsComplete_9 : ∃ (s : State), s.fclk = true :=
  ⟨rdy, by decide +kernel⟩

theorem hyps_SpindleCommandsComplete_10 : ∃ (s : State), s.rd Reg.SPD_SPDSTAT_WINDOW = 0 ∧ s.fclk = true ∧
    (s.dramDeadlines.filter fun d => d - s.protLead ≤ s.ns && s.ns < d + s.protTail) ≠ [] ∧ (∀ t, s.spd.winLast = some t → t + s.protGap ≤ s.ns) :=
  ⟨(late rdy).setTask 16383 { state := 4, kind := kBandFill, ch := 63, deadline := some 1000000000000 }, ⟨by decide +kernel, by decide +kernel,
    by decide +kernel, fun t h => nomatch (show (none : Option Nat) = some t from h)⟩⟩

theorem hyps_SpindleCommandsComplete_11 : ∃ (s : State), s.rd Reg.SPD_SPDSTAT_WINDOW = 1 ∧
    min (s.mergeClose s.spd.winClose) (s.spd.winOpen + s.protMax) ≤ s.ns :=
  ⟨(late rdy).wr Reg.SPD_SPDSTAT_WINDOW 1, by decide +kernel⟩

theorem hyps_SpindleCommandsComplete_12 : ∃ (s : State) (n : Fin 64), s.lastEnded n = true :=
  ⟨(inState 4).setChan 0 { lastPic := some 1, packed := some 1 }, 0, by decide +kernel⟩

theorem hyps_SpindleCommandsComplete_13 : ∃ (s : State) (n : Fin 64) (f k : Nat), (s.chan n).rcWait = some (f, k) ∧
    s.boundaryNs n f k + 20000 ≤ s.ns :=
  ⟨(late rdy).setChan 63 { rcWait := some (0, 0) }, 63, 0, 0, by decide +kernel⟩

theorem hyps_SpindleCommandsComplete_subst : ∃ (s : State) (d : Fin 16384), (s.task d).state = 4 ∧ s.fclk = true ∧ (s.task d).ch < 64 ∧
    (s.task d).kind = kSubst :=
  ⟨busy kSubst, 16383, by decide +kernel⟩

theorem hyps_SpindleCommandsComplete_header : ∃ (s : State) (d : Fin 16384), (s.task d).state = 4 ∧ s.fclk = true ∧ (s.task d).ch < 64 ∧
    (s.task d).kind = kHeader :=
  ⟨busy kHeader, 16383, by decide +kernel⟩

theorem hyps_SpindleCommandsComplete_compose : ∃ (s : State) (d : Fin 16384), (s.task d).state = 4 ∧ s.fclk = true ∧ (s.task d).ch < 64 ∧
    (s.task d).kind = kCompose :=
  ⟨busy kCompose, 16383, by decide +kernel⟩

theorem hyps_SpindleCommandsComplete_pack : ∃ (s : State) (d : Fin 16384), (s.task d).state = 4 ∧ s.fclk = true ∧ (s.task d).ch < 64 ∧
    (s.task d).kind = kPack :=
  ⟨busy kPack, 16383, by decide +kernel⟩

theorem hyps_SpindleCommandsComplete_bandFill : ∃ (s : State) (d : Fin 16384), (s.task d).state = 4 ∧ s.fclk = true ∧ (s.task d).ch < 64 ∧
    (s.task d).kind = kBandFill :=
  ⟨busy kBandFill, 16383, by decide +kernel⟩

theorem hyps_SpindleCommandsComplete_bandRefetch : ∃ (s : State) (d : Fin 16384), (s.task d).state = 4 ∧ s.fclk = true ∧ (s.task d).ch < 64 ∧
    (s.task d).kind = kBandRefetch :=
  ⟨busy kBandRefetch, 16383, by decide +kernel⟩

theorem hyps_SpindleCommandsComplete_reconCopy : ∃ (s : State) (d : Fin 16384), (s.task d).state = 4 ∧ s.fclk = true ∧ (s.task d).ch < 64 ∧
    (s.task d).kind = kReconCopy :=
  ⟨busy kReconCopy, 16383, by decide +kernel⟩

theorem hyps_SpindleCommandsComplete_badParam : ∃ (s : State) (d : Fin 16384), (s.task d).state = 4 ∧ s.fclk = true ∧ (s.task d).ch < 64 ∧
    (s.task d).kind ≠ kFlatten ∧ (s.task d).kind ≠ kBlit :=
  ⟨busy kPack, 16383, by decide +kernel⟩

theorem hyps_EngineCommandsComplete_1 : ∃ (s : State) (d : Fin 16384), (s.task d).state = 4 ∧ s.fclk = true ∧ (s.task d).ch < 64 ∧ (s.task d).kind =
    kSlice ∨ (s.task d).kind = kReencode :=
  ⟨busy kSlice, 16383, by decide +kernel⟩

theorem hyps_EngineCommandsComplete_2 : ∃ (s : State) (d : Fin 16384), s.lateTask d = true ∧ (s.task d).kind = kSlice ∨ (s.task d).kind = kReencode :=
  ⟨(late rdy).setTask 16383 { state := 4, kind := kSlice, ch := 63, deadline := some 5 }, 16383, by decide +kernel⟩

theorem hyps_EngineCommandsComplete_3 : ∃ (s : State) (d : Fin 16384) (e : Nat), (s.task d).state = 4 ∧ (s.task d).kind = kSlice ∨ (s.task d).kind =
    kReencode ∧ s.engOf d = some e :=
  ⟨((inState 3).setTask 31 { state := 4, kind := kSlice }).setEng 31 { task := some 31 }, 31, 31, by decide +kernel⟩

theorem hyps_EngineCommandsComplete_4 : ∃ (s : State) (e : Fin 32) (d t : Nat), (s.eng e).task = some d ∧ s.engSt e = 1 ∧ s.sliceDue (s.task d) =
    some t ∧ t + 2000 ≤ s.ns :=
  ⟨(late ((rdy.wr Reg.ENC_ENGSTAT_STATE 1 31).setEng 31 { task := some 31 })).setChan 0 { composed := [(0, List.replicate 60 5)] }, 31, 31, 228560,
    by decide +kernel⟩

theorem hyps_EngineCommandsComplete_5 : ∃ (s : State) (e : Fin 32) (cause : Nat), s.fclk = true ∧ s.engSt e = 1 ∧ (cause = 1 ∨ cause = 2 ∨ cause =
    4) :=
  ⟨rdy.wr Reg.ENC_ENGSTAT_STATE 1 31, 31, 4, by decide +kernel⟩

theorem hyps_EngineCommandsComplete_6 : ∃ (s : State) (e : Fin 32) (d : Nat), s.engSt e = 3 ∧ s.testOf e = some d :=
  ⟨(rdy.wr Reg.ENC_ENGSTAT_STATE 3 31).setTask 2048 { state := 4, kind := kSelftest, param := 31 }, 31, 2048, by decide +kernel⟩

theorem hyps_EngineCommandsComplete_reencode : ∃ (s : State) (d : Fin 16384), (s.task d).state = 4 ∧ s.fclk = true ∧ (s.task d).ch < 64 ∧
    (s.task d).kind = kSlice ∨ (s.task d).kind = kReencode ∧ (s.task d).kind = kReencode :=
  ⟨busy kReencode, 16383, by decide +kernel⟩

theorem hyps_RateAndReferenceCommandsComplete_1 : ∃ (s : State) (n : Fin 64), s.rowDue n = true ∧ (s.chan n).nextRow = 0 ∧
    (s.chan n).startFrame + 1 < (s.chan n).nextFrame ∧ (s.chan n).follow = false :=
  ⟨(late (inState 3)).wr Reg.SPD_TICK_US 1000000000 |>.setChan 0 { nextFrame := 60 }, 0, ⟨by decide +kernel, by decide +kernel, by decide +kernel,
    by decide +kernel⟩⟩

theorem hyps_RateAndReferenceCommandsComplete_2 : ∃ (s : State), s.fclk = true :=
  ⟨rdy, by decide +kernel⟩

theorem hyps_RateAndReferenceCommandsComplete_request : ∃ (s : State) (n : Fin 64), s.rowDue n = true ∧ (s.chan n).nextRow = 0 ∧
    (s.chan n).startFrame + 1 < (s.chan n).nextFrame ∧ (s.chan n).follow = false ∧ (s.chan n).rc.req = false :=
  ⟨(late (inState 3)).wr Reg.SPD_TICK_US 1000000000 |>.setChan 0 { nextFrame := 60 }, 0, by decide +kernel⟩

theorem hyps_RateAndReferenceCommandsComplete_held : ∃ (s : State) (n : Fin 64), s.rowDue n = true ∧ (s.chan n).nextRow = 0 ∧
    (s.chan n).startFrame + 1 < (s.chan n).nextFrame ∧ (s.chan n).follow = false ∧ (s.chan n).rc.heldTo.isSome = true :=
  ⟨(late (inState 3)).wr Reg.SPD_TICK_US 1000000000 |>.setChan 0 { nextFrame := 60, rc := { req := true, heldTo := some 30 } }, 0, by decide +kernel⟩

theorem hyps_LayerCommandsComplete_1 : ∃ (s : State) (n : Fin 64), ((s.chan n).nextRow = 0 ∧
    cdiv (s.refNs n (s.chan n).nextFrame 0 + (s.chan n).tRow) 1000 ≤ s.tick) ∨ s.live n = false :=
  ⟨rdy, 63, by decide +kernel⟩

theorem hyps_LayerCommandsComplete_2 : ∃ (s : State) (n : Fin 64) (d : Nat), (s.cache n).flattening = some d ∧ (s.task d).state = 4 :=
  ⟨(rdy.setTask 2048 { state := 4, kind := kFlatten, ch := 63 }).setCache 63 { flattening := some 2048 }, 63, 2048, by decide +kernel⟩

theorem hyps_LayerCommandsComplete_3 : ∃ (s : State) (n : Fin 64), (s.cache n).retry = true ∧ (s.cache n).due = true ∧ (s.cache n).flattening = none ∧
    s.runAct n ≠ [] ∧ s.genCount ≠ 0 :=
  ⟨(rdy.setCache 63 { retry := true, due := true }).setLayer 255 { act := { enable := true, static := true } }, 63, by decide +kernel⟩

theorem hyps_LayerCommandsComplete_live : ∃ (s : State) (n : Fin 64), ((s.chan n).nextRow = 0 ∧
    cdiv (s.refNs n (s.chan n).nextFrame 0 + (s.chan n).tRow) 1000 ≤ s.tick) ∨ s.live n = false ∧ s.live n = true :=
  ⟨(late (inState 3)).wr Reg.SPD_TICK_US 1000000000, 0, by decide +kernel⟩

theorem hyps_LayerCommandsComplete_damaged : ∃ (s : State) (n : Fin 64) (bad : List (Nat × Nat)) (d : Nat), (s.cache n).flattening = some d ∧
    (s.task d).state = 4 ∧ (let read := s.runLines n
    let u := (bad.filter fun e => read.contains (e.1 / 64 * 64)).foldl (fun (t : State) e => t.lineDamage e.1 e.2) s
    let hit := (read.filter u.badLine).dedup
    hit ≠ []) :=
  ⟨flattening true false, 63, [(0x40000000, 0)], 2048, by decide +kernel⟩

theorem hyps_LayerCommandsComplete_stale : ∃ (s : State) (n : Fin 64) (bad : List (Nat × Nat)) (d : Nat), (s.cache n).flattening = some d ∧
    (s.task d).state = 4 ∧ (let read := s.runLines n
    let u := (bad.filter fun e => read.contains (e.1 / 64 * 64)).foldl (fun (t : State) e => t.lineDamage e.1 e.2) s
    let hit := (read.filter u.badLine).dedup
    hit = [] ∧ (s.cache n).stale = true) :=
  ⟨flattening true true, 63, [], 2048, by decide +kernel⟩

theorem hyps_BlitterCommandsComplete_1 : ∃ (s : State) (u : Fin 8) (d : Nat), (s.bltU u).task = some d ∧ (s.bltU u).dead = none ∧
    s.rd Reg.BLT_UNITSTAT_STATE u = 1 ∧ (let b := (s.blitAt d).2.2
    let out := blitCells b (b.cells - (s.bltU u).pos) 4096 s { pos := (s.bltU u).pos }
    s.burstInject u out.2 = (none, s) ∧ s.burstBad out.2 = none) :=
  ⟨blitting, 7, 5, by decide +kernel⟩

theorem hyps_BlitterCommandsComplete_2 : ∃ (s : State) (u : Fin 8) (c : Nat), (s.bltU u).dead = some c :=
  ⟨rdy.setBltU 7 { dead := some 0 }, 7, 0, by decide +kernel⟩

theorem hyps_BlitterCommandsComplete_3 : ∃ (s : State) (u : Fin 8), s.rd Reg.BLT_UNITSTAT_STATE u ≤ 1 ∧ (s.bltU u).task = none :=
  ⟨rdy.wr Reg.BLT_UNITSTAT_STATE 0 7, 7, by decide +kernel⟩

theorem hyps_BlitterCommandsComplete_4 : ∃ (s : State) (u : Fin 8) (d : Nat), s.rd Reg.BLT_UNITSTAT_STATE u ≤ 1 ∧ (s.bltU u).task = some d ∧
    (s.bltU u).dead = none :=
  ⟨blitting, 7, 5, by decide +kernel⟩

theorem hyps_BlitterCommandsComplete_5 : ∃ (s : State) (u : Fin 8) (d : Nat), s.rd Reg.BLT_UNITSTAT_STATE u = 2 ∧ s.testOf (96 + u) = some d :=
  ⟨(rdy.wr Reg.BLT_UNITSTAT_STATE 2 7).setTask 2048 { state := 4, kind := kSelftest, param := 103 }, 7, 2048, by decide +kernel⟩

theorem hyps_StoreCommandsComplete_1 : ∃ (s : State), s.rd Reg.CST_CSTSTAT_WIPING = 1 :=
  ⟨rdy.wr Reg.CST_CSTSTAT_WIPING 1, by decide +kernel⟩

theorem hyps_StoreCommandsComplete_2 : ∃ (s : State), s.rd Reg.CST_CSTSTAT_WIPING = 1 ∧ s.cst.wipeAt + 1000000 ≤ s.ns :=
  ⟨late (rdy.wr Reg.CST_CSTSTAT_WIPING 1), by decide +kernel⟩

theorem hyps_StoreCommandsComplete_3 : ∃ (s : State) (off : Nat) (data : Bytes), s.dev ≠ 0 ∧ s.memHolds off data.length = false ∧
    (∀ e ∈ linePieces (data.length + 1) (off % 2 ^ 30) data, s.bar2Verdict (s.bar2Addr e.1) = 0) :=
  ⟨rdy.setPage 0 { owner := 1 }, 4095, [1], by decide +kernel⟩

theorem hyps_StoreCommandsComplete_4 : ∃ (s : State) (off : Nat) (data : Bytes), s.dev ≠ 0 ∧ s.memHolds off data.length = true :=
  ⟨rdy.wr Reg.CST_CSTSTAT_WIPING 1, 4095, [1], by decide +kernel⟩

theorem hyps_StoreCommandsComplete_5 : ∃ (s : State) (off len : Nat), s.dev ≠ 0 ∧ s.memHolds off len = false ∧
    (s.space (s.bar2Addr ((off % 2 ^ 30) + (max 1 len - 1)))).1 ≠ 2 :=
  ⟨rdy, 0x1FFFFFFF, 1, by decide +kernel⟩

theorem hyps_StoreCommandsComplete_6 : ∃ (s : State) (off len : Nat), s.dev ≠ 0 ∧ s.memHolds off len = true :=
  ⟨rdy.wr Reg.CST_CSTSTAT_WIPING 1, 4095, 1, by decide +kernel⟩

theorem hyps_StoreCommandsComplete_7 : ∃ (s : State), s.dev ≠ 0 :=
  ⟨rdy, by decide +kernel⟩

theorem hyps_RegisterAccessCommandsComplete_1 : ∃ (s : State), s.fclk = true :=
  ⟨rdy, by decide +kernel⟩

theorem hyps_RegisterAccessCommandsComplete_2 : ∃ (s : State), s.fclk = true :=
  ⟨rdy, by decide +kernel⟩

theorem hyps_RegisterAccessCommandsComplete_3 : ∃ (s : State) (v : Bool), s.fclk = true ∧ s.dev = 0 ∧ s.rd Reg.MTX_REMAP_ZERO ≠ bit v :=
  ⟨rdy.wr Reg.PCR_DEVSTAT_DEV 0, true, by decide +kernel⟩

theorem hyps_RegisterAccessCommandsComplete_4 : ∃ (s : State), s.fclk = true :=
  ⟨rdy, by decide +kernel⟩

theorem hyps_RegisterAccessCommandsComplete_5 : ∃ (s : State), s.fclk = true ∧ s.dev ≠ 0 :=
  ⟨rdy, by decide +kernel⟩

theorem hyps_RegisterAccessCommandsComplete_6 : ∃ (s : State), s.fclk = true ∧ s.dev ≠ 0 ∧ (s.rd Reg.HIF_LINKSTAT_DLUP = 1 ∨ (s.pcr.perstN = true ∧
    s.lanePasses 24 = true)) :=
  ⟨rdy.wr Reg.HIF_LINKSTAT_DLUP 1, by decide +kernel⟩

theorem hyps_RegisterAccessCommandsComplete_7 : ∃ (s : State) (a : Nat) (d : Bytes), s.fclk = true ∧ s.dapOpen = true ∧ d.length = 4 ∧
    (s.region (a % 2 ^ 40)).1 = 3 ∧ (s.region (a % 2 ^ 40 + 3)).1 = 3 :=
  ⟨dap, 0x23FFFFFC, zs 4, by decide +kernel⟩

theorem hyps_RegisterAccessCommandsComplete_8 : ∃ (s : State), s.rd Reg.HIF_LINKSTAT_DLUP = 1 :=
  ⟨rdy.wr Reg.HIF_LINKSTAT_DLUP 1, by decide +kernel⟩

theorem hyps_NetworkInputCommandsComplete_1 : ∃ (s : State) (m : Fin 16) (fr : Bytes) (x : RxFrame), s.macUp m = true ∧ s.fclk = true ∧
    64 ≤ fr.length ∧ fr.length ≤ 9216 ∧ crc32 (fr.take (fr.length - 4)) = fld fr (fr.length - 4) 4 ∧ untag fr = some x :=
  ⟨macOn, 15, frame0, { src := 0, o := 14, typ := 0, p := zs 46 }, by decide +kernel⟩

theorem hyps_NetworkInputCommandsComplete_2 : ∃ (s : State) (m : Fin 16) (fr : Bytes), s.macUp m = true ∧ s.fclk = true ∧
    (fr.length < 64 ∨ 9216 < fr.length ∨ crc32 (fr.take (fr.length - 4)) ≠ fld fr (fr.length - 4) 4) :=
  ⟨macOn, 15, zs 63, by decide +kernel⟩

theorem hyps_NetworkInputCommandsComplete_3 : ∃ (s : State) (f : Fin 384) (ext : Nat) (x : InFlow), s.flowIn f = some x ∧ (let q := x.seqAt ext
    tget 0 x.due q ≠ 0 ∧ tget 0 x.due q ≤ s.ns ∧ (tget ({} : SeqSt) x.win q).a = false ∧ (tget ({} : SeqSt) x.win q).b = false ∧ (tget ({} :
    SeqSt) x.win q).rep = false ∧ (tget ({} : SeqSt) x.win q).decl = false) :=
  ⟨(late rdy).setFlowIn 383 (some { flow0 with due := [(2 ^ 32 + 7, 1)] }), 383, 7, { flow0 with due := [(2 ^ 32 + 7, 1)] }, by decide +kernel⟩

theorem hyps_NetworkInputCommandsComplete_4 : ∃ (s : State) (f : Fin 384) (net : Fin 2) (x : InFlow), s.flowIn f = some x ∧ (let r := if net =
    0 then Reg.INP_FLOWVIEW_UP_A else Reg.INP_FLOWVIEW_UP_B
    s.rd r f = 1 ∧ tget 0 x.pathAt net + (match x.fmt with | some m => 2 * m.periodNs | none => 10000000) ≤ s.ns) :=
  ⟨(late rdy).setFlowIn 383 (some flow0) |>.wr Reg.INP_FLOWVIEW_UP_B 1 383, 383, 1, flow0, by decide +kernel⟩

theorem hyps_NetworkInputCommandsComplete_5 : ∃ (s : State) (f : Fin 384) (x : InFlow) (m : FlowFmt), s.flowIn f = some x ∧ x.fmt = some m ∧
    x.lines ≠ 0 ∧ x.latchNs m (s.nextGroup x m).1 (s.nextGroup x m).2 ≤ s.ns :=
  ⟨(late rdy).setFlowIn 383 (some { flow0 with kind := 0, fmt := some fmt0, lines := 1, latNext := some (0, 0) }), 383,
    { flow0 with kind := 0, fmt := some fmt0, lines := 1, latNext := some (0, 0) }, fmt0, by decide +kernel⟩

theorem hyps_NetworkInputCommandsComplete_6 : ∃ (s : State) (m : Fin 16), s.macUsed m = true ∧ s.macUp m = false :=
  ⟨rdy, 12, by decide +kernel⟩

theorem hyps_NetworkInputCommandsComplete_7 : ∃ (s : State) (m : Fin 16), s.macUp m = true :=
  ⟨macOn, 15, by decide +kernel⟩

theorem hyps_NetworkInputCommandsComplete_8 : ∃ (s : State) (f : Fin 384) (net : Fin 2) (e : Nat × Nat × Nat × Nat) (x : InFlow),
    (s.inp.leaves.find? fun e => e.1 = f.val ∧ e.2.1 = net.val ∧ e.2.2.2 ≤ s.ns) = some e ∧ s.flowIn f = some x ∧ s.rd (joinRow net) f ≠ e.2.2.1 :=
  ⟨{ (rdy.setFlowIn 383 (some flow0)) with inp := { (rdy.setFlowIn 383 (some flow0)).inp with leaves := [(383, 1, 3, 0)] } }, 383, 1, (383, 1, 3, 0),
    flow0, by decide +kernel⟩

theorem hyps_NetworkInputCommandsComplete_single : ∃ (s : State) (f : Fin 384) (ext : Nat) (x : InFlow), s.flowIn f = some x ∧ (let q := x.seqAt ext
    tget 0 x.due q ≠ 0 ∧ tget 0 x.due q ≤ s.ns ∧ (tget ({} : SeqSt) x.win q).a = false ∧ (tget ({} : SeqSt) x.win q).b = false ∧ (tget ({} :
    SeqSt) x.win q).rep = false ∧ (tget ({} : SeqSt) x.win q).decl = false ∧ s.role = 0) :=
  ⟨(late rdy).setFlowIn 383 (some { flow0 with due := [(2 ^ 32 + 7, 1)] }), 383, 7, { flow0 with due := [(2 ^ 32 + 7, 1)] }, by decide +kernel⟩

theorem hyps_NetworkInputCommandsComplete_paired : ∃ (s : State) (f : Fin 384) (ext : Nat) (x : InFlow), s.flowIn f = some x ∧ (let q := x.seqAt ext
    tget 0 x.due q ≠ 0 ∧ tget 0 x.due q ≤ s.ns ∧ (tget ({} : SeqSt) x.win q).a = false ∧ (tget ({} : SeqSt) x.win q).b = false ∧ (tget ({} :
    SeqSt) x.win q).rep = false ∧ (tget ({} : SeqSt) x.win q).decl = false ∧ s.role ≠ 0 ∧ s.rd Reg.PAIR_PAIRSTAT_LINKUP ≠ 0) :=
  ⟨linked.setFlowIn 383 (some { flow0 with due := [(2 ^ 32 + 7, 1)] }), 383, 7, { flow0 with due := [(2 ^ 32 + 7, 1)] }, by decide +kernel⟩

theorem hyps_NetworkOutputCommandsComplete_1 : ∃ (s : State) (sh : Fin 256) (t0 : Nat) (f : QFrame) (rest : List QFrame) (p : Prog),
    (s.shp sh).queue = f :: rest ∧ s.prog (sh / 4) = some p ∧ f.e ≤ max t0 s.ns ∧ s.chSt (sh / 4) ≠ 6 ∧ s.fclk = true ∧ (let t :=
    (s.at (max t0 s.ns)).txDue
    t.launches (sh / 2 % 2) f.base = false) :=
  ⟨sending 3, 255, 0, frameQ, [], prog0, by decide +kernel⟩

theorem hyps_NetworkOutputCommandsComplete_2 : ∃ (s : State) (sh : Fin 256) (t0 : Nat) (f : QFrame) (rest : List QFrame) (p : Prog),
    (s.shp sh).queue = f :: rest ∧ s.prog (sh / 4) = some p ∧ f.e ≤ max t0 s.ns ∧ s.chSt (sh / 4) ≠ 6 ∧ s.fclk = true ∧ (let now := max t0 s.ns
    let t := (s.at now).txDue
    t.launches (sh / 2 % 2) f.base = true) :=
  ⟨sendingG, 252, 0, frameQ, [], progG, by decide +kernel⟩

theorem hyps_NetworkOutputCommandsComplete_3 : ∃ (s : State) (g : Fin 64) (net : Fin 2) (p : Prog), s.prog g = some p ∧ p.nets.testBit net = true ∧
    s.admitted g = true ∧ s.macUp (s.rd Reg.SHP_SHAPER_MAC 0 (shaperOf g net 0)) = false ∧ s.macUp (s.pickMac 64 net) = true :=
  ⟨(macOn.setProg 63 (some prog0)).setChan 63 { adm := some {} }, 63, 1, prog0, by decide +kernel⟩

theorem hyps_NetworkOutputCommandsComplete_4 : ∃ (s : State) (sh : Fin 256) (b r bu o m : Nat) (auto : Bool) (rest :
    List (Nat × Nat × Nat × Nat × Nat × Bool)), (s.shp sh).applied ++ (s.shp sh).pend = (b, r, bu, o, m, auto) :: rest ∧ b ≤ s.ns :=
  ⟨rdy.setShp 255 { applied := [(0, 1, 1, 1, 1, true)] }, 255, 0, 1, 1, 1, 1, true, [], by decide +kernel⟩

theorem hyps_NetworkOutputCommandsComplete_noWindow : ∃ (s : State) (sh : Fin 256) (t0 : Nat) (f : QFrame) (rest : List QFrame) (p : Prog),
    (s.shp sh).queue = f :: rest ∧ s.prog (sh / 4) = some p ∧ f.e ≤ max t0 s.ns ∧ s.chSt (sh / 4) ≠ 6 ∧ s.fclk = true ∧ (let now := max t0 s.ns
    let t := (s.at now).txDue
    let m := t.rd Reg.SHP_SHAPER_MAC 0 sh
    let ws := t.windows m
    t.launches (sh / 2 % 2) f.base = true ∧ ws = []) :=
  ⟨sendingG, 252, 0, frameQ, [], progG, by decide +kernel⟩

theorem hyps_NetworkOutputCommandsComplete_inWindow : ∃ (s : State) (sh : Fin 256) (t0 : Nat) (f : QFrame) (rest : List QFrame) (p : Prog),
    (s.shp sh).queue = f :: rest ∧ s.prog (sh / 4) = some p ∧ f.e ≤ max t0 s.ns ∧ s.chSt (sh / 4) ≠ 6 ∧ s.fclk = true ∧ (let now := max t0 s.ns
    let t := (s.at now).txDue
    let m := t.rd Reg.SHP_SHAPER_MAC 0 sh
    let ws := t.windows m
    let need := t.dMac m + t.wireNs m f.k
    t.launches (sh / 2 % 2) f.base = true ∧ winFits ws now need = true ∧ winOver ws need = false) :=
  ⟨(((sendingG.wr Reg.SHP_WINVIEW_ENABLE 1 0).wr Reg.SHP_WINVIEW_CYCLE_NS 1000000 0).wr Reg.SHP_WINVIEW_START_NS 0 0).wr Reg.SHP_WINVIEW_LEN_NS 400000 0,
    252, 0, frameQ, [], progG, by decide +kernel⟩

theorem hyps_NetworkOutputCommandsComplete_heldForWindow : ∃ (s : State) (sh : Fin 256) (t0 : Nat) (f : QFrame) (rest : List QFrame) (p : Prog),
    (s.shp sh).queue = f :: rest ∧ s.prog (sh / 4) = some p ∧ f.e ≤ max t0 s.ns ∧ s.chSt (sh / 4) ≠ 6 ∧ s.fclk = true ∧ (let now := max t0 s.ns
    let t := (s.at now).txDue
    let m := t.rd Reg.SHP_SHAPER_MAC 0 sh
    let ws := t.windows m
    let need := t.dMac m + t.wireNs m f.k
    t.launches (sh / 2 % 2) f.base = true ∧ ws ≠ [] ∧ winFits ws now need = false ∧ winOver ws need = false) :=
  ⟨(((sendingG.wr Reg.SHP_WINVIEW_ENABLE 1 0).wr Reg.SHP_WINVIEW_CYCLE_NS 1000000 0).wr Reg.SHP_WINVIEW_START_NS 500000 0).wr Reg.SHP_WINVIEW_LEN_NS 400000 0,
    252, 0, frameQ, [], progG, by decide +kernel⟩

theorem hyps_NetworkOutputCommandsComplete_windowTooShort : ∃ (s : State) (sh : Fin 256) (t0 : Nat) (f : QFrame) (rest : List QFrame) (p : Prog),
    (s.shp sh).queue = f :: rest ∧ s.prog (sh / 4) = some p ∧ f.e ≤ max t0 s.ns ∧ s.chSt (sh / 4) ≠ 6 ∧ s.fclk = true ∧ (let now := max t0 s.ns
    let t := (s.at now).txDue
    let m := t.rd Reg.SHP_SHAPER_MAC 0 sh
    let ws := t.windows m
    let need := t.dMac m + t.wireNs m f.k
    t.launches (sh / 2 % 2) f.base = true ∧ ws ≠ [] ∧ winOver ws need = true ∧ winOpened ws (max f.e (s.shp sh).lastRel) now = true) :=
  ⟨(((sendingG.wr Reg.SHP_WINVIEW_ENABLE 1 0).wr Reg.SHP_WINVIEW_CYCLE_NS 1000000 0).wr Reg.SHP_WINVIEW_START_NS 0 0).wr Reg.SHP_WINVIEW_LEN_NS 1 0,
    252, 0, frameQ, [], progG, by decide +kernel⟩

theorem hyps_TimeCommandsComplete_1 : ∃ (s : State) (net : Fin 2) (m : Master), (s.inst net).master = some m ∧ s.masterOk m = false :=
  ⟨rdy.setInst 1 { masters := [master0], best := some 7 }, 1, master0, by decide +kernel⟩

theorem hyps_TimeCommandsComplete_2 : ∃ (s : State) (net : Fin 2), s.slaveMac net ≠ 15 ∧ (s.inst net).best.isSome = true ∧ (s.inst net).t12.isSome =
    true ∧ s.fclk = true :=
  ⟨macOn.setInst 1 { best := some 7, t12 := some (0, 0) }, 1, by decide +kernel⟩

theorem hyps_TimeCommandsComplete_3 : ∃ (s : State), s.rd Reg.TIM_TIMSTAT_SERVO = 3 ∧ s.time.holdSaid = false ∧
    s.rd Reg.TIM_HOLDCTL_HOLD_MAX_S ≤ s.holdTime :=
  ⟨late ((rdy.wr Reg.TIM_TIMSTAT_SERVO 3).wr Reg.TIM_HOLDCTL_HOLD_MAX_S 1), by decide +kernel⟩

theorem hyps_TimeCommandsComplete_4 : ∃ (s : State), s.rd Reg.TIM_OUTCTL_PPS = 1 ∧ 2 ≤ s.rd Reg.TIM_TIMSTAT_SERVO ∧ s.fclk = true :=
  ⟨(rdy.wr Reg.TIM_OUTCTL_PPS 1).wr Reg.TIM_TIMSTAT_SERVO 2, by decide +kernel⟩

theorem hyps_TimeCommandsComplete_5 : ∃ (s : State) (o : Fin 4), let n := s.rd Reg.TIM_OUTCH_FSCH / 2 ^ (8 * o.val) % 256
    (s.rd Reg.TIM_OUTCTL_FS).testBit o = true ∧ n ≤ 63 ∧ s.chSt n ≠ 0 ∧ s.fclk = true :=
  ⟨((inState 3).wr Reg.TIM_OUTCTL_FS 8).wr Reg.TIM_OUTCH_FSCH 0, 3, by decide +kernel⟩

theorem hyps_TimeCommandsComplete_6 : ∃ (s : State) (t0 : Nat) (frac : Fin 65536), s.fclk = true ∧ s.time.now ≤ t0 * 65536 + frac ∧ (∀ p,
    s.time.ppsAt = some p → p + 1000 < t0) :=
  ⟨rdy, 0, 65535, ⟨by decide +kernel, by decide +kernel, fun t h => nomatch (show (none : Option Nat) = some t from h)⟩⟩

theorem hyps_AudioPortCommandsComplete_1 : ∃ (s : State) (p : Fin 16) (h : Nat), s.apSt p = 2 ∧ s.apMaster p = false ∧
    4000000000 ≤ (s.ns - (s.audPort p).lastAt) * s.apFs p ∧ (s.audPort p).hi = some h :=
  ⟨((late rdy).wr Reg.AUD_PORT_STATE 2 0 15).setAudPort 15 { hi := some 0 } |>.wr Reg.AUD_PORT_CFG_MASTER_ACT 0 0 15, 15, 0, by decide +kernel⟩

theorem hyps_AudioPortCommandsComplete_2 : ∃ (s : State), s.fclk = true :=
  ⟨rdy, by decide +kernel⟩

theorem hyps_LaneStateCommandsComplete_1 : ∃ (s : State) (l : Fin 32), s.laneSt l = 1 :=
  ⟨rdy.wr Reg.SDS_LSTAT_STATE 1 31, 31, by decide +kernel⟩

theorem hyps_LaneStateCommandsComplete_2 : ∃ (s : State) (l : Fin 32), s.laneSt l = 1 ∧ (s.lane l).since + 500000 ≤ s.ns :=
  ⟨late (rdy.wr Reg.SDS_LSTAT_STATE 1 31), 31, by decide +kernel⟩

theorem hyps_LaneStateCommandsComplete_3 : ∃ (s : State) (l : Fin 32), s.laneSt l = 2 :=
  ⟨rdy.wr Reg.SDS_LSTAT_STATE 2 31, 31, by decide +kernel⟩

theorem hyps_LaneStateCommandsComplete_4 : ∃ (s : State) (l : Fin 32), s.laneSt l = 3 :=
  ⟨rdy.wr Reg.SDS_LSTAT_STATE 3 31, 31, by decide +kernel⟩

theorem hyps_LaneStateCommandsComplete_5 : ∃ (s : State) (l : Fin 32), (s.lanePasses l = true ∨ s.laneSt l = 3) :=
  ⟨rdy.wr Reg.SDS_LSTAT_STATE 3 31, 31, by decide +kernel⟩

theorem hyps_LaneStateCommandsComplete_6 : ∃ (s : State) (l : Fin 32), (s.lanePasses l = true ∨ s.laneSt l = 3) :=
  ⟨rdy.wr Reg.SDS_LSTAT_STATE 4 31, 31, by decide +kernel⟩

theorem hyps_LaneStateCommandsComplete_7 : ∃ (s : State) (l : Fin 32), s.laneSt l = 6 ∧ (s.lane l).faults ≤ 3 ∧ (s.lane l).since + 10000000 ≤ s.ns :=
  ⟨late ((rdy.wr Reg.SDS_LSTAT_STATE 6 31).setLane 31 { faults := 3 }), 31, by decide +kernel⟩

theorem hyps_LaneStateCommandsComplete_8 : ∃ (s : State) (l : Fin 32) (ws : List (Nat × Nat)), s.lanePasses l = true ∧
    s.rd Reg.SDS_ADAPTCTL_BG l ≠ 0 ∧ ws ≠ [] ∧ max (s.lane l).since (s.lane l).trialAt + s.rd Reg.SDS_ADAPTCTL_INTERVAL_MS l * 1000000 ≤ s.ns :=
  ⟨late ((rdy.wr Reg.SDS_LSTAT_STATE 4 31).wr Reg.SDS_ADAPTCTL_BG 1 31), 31, [(0, 0)], by decide +kernel⟩

theorem hyps_LaneStateCommandsComplete_9 : ∃ (s : State) (l : Fin 32), s.laneSt l ≠ 0 :=
  ⟨rdy.wr Reg.SDS_LSTAT_STATE 6 31, 31, by decide +kernel⟩

theorem hyps_LaneDataAndTestCommandsComplete_1 : ∃ (s : State) (l : Fin 32) (ui : Nat) (sb : Bytes) (lane typ cnt : Nat) (pl : Bytes), 16 ≤ l.val ∧
    l.val < 24 ∧ s.lanePasses l = true ∧ s.rd Reg.SDS_LSTAT_RXINV l = 0 ∧ bitsVal ((bitsMsb (bytesAt sb 0 274)).take 16) = 0x6A9D ∧
    superblock (bitsMsb (bytesAt sb 0 274)) = (lane, typ, cnt, true, pl) ∧ typ < 3 ∧ ((s.lane l).good = 0 ∨ ui = (s.lane l).sbAt + 2192) :=
  ⟨rdy.wr Reg.SDS_LSTAT_STATE 4 23, 23, 0, block0, (superblock blockBits).1, (superblock blockBits).2.1, (superblock blockBits).2.2.1,
    (superblock blockBits).2.2.2.2, by decide +kernel⟩

theorem hyps_LaneDataAndTestCommandsComplete_2 : ∃ (s : State) (l : Fin 32), (s.lane l).scan = true :=
  ⟨rdy.setLane 31 { scan := true }, 31, by decide +kernel⟩

theorem hyps_LaneDataAndTestCommandsComplete_3 : ∃ (s : State) (l : Fin 32), s.rd Reg.TST_LOCKSTAT_OPEN = 1 ∧ s.rd Reg.SDS_INJCTL_MODE l = 1 ∧
    s.lanePasses l = true :=
  ⟨((rdy.wr Reg.TST_LOCKSTAT_OPEN 1).wr Reg.SDS_INJCTL_MODE 1 31).wr Reg.SDS_LSTAT_STATE 4 31, 31, by decide +kernel⟩

theorem hyps_LaneDataAndTestCommandsComplete_4 : ∃ (s : State) (l : Fin 32), s.rd Reg.SDS_INJCTL_MODE l = 2 ∧ s.lanePasses l = true ∧ (∀ t0,
    (s.lane l).injAt = some t0 → t0 + s.injSpace l ≤ s.ns) :=
  ⟨(rdy.wr Reg.SDS_INJCTL_MODE 2 31).wr Reg.SDS_LSTAT_STATE 4 31, 31, by decide +kernel⟩

theorem hyps_LaneDataAndTestCommandsComplete_5 : ∃ (s : State) (pair : Fin 4), s.pcr.quadsOff.testBit (2 * pair) = true ∧ s.fclk = true ∧
    (s.dev ≠ 0 ∨ s.pcr.stage = 2) :=
  ⟨{ rdy with pcr := { rdy.pcr with quadsOff := 255 } }, 3, by decide +kernel⟩

theorem hyps_PairClaimCommandsComplete_1 : ∃ (s : State) (t0 : Nat), s.pair.claim = .guard t0 ∧ t0 + 10000 ≤ s.ns :=
  ⟨(late rdy).setPair { claim := .guard 0 }, 0, by decide +kernel⟩

theorem hyps_PairClaimCommandsComplete_2 : ∃ (s : State) (t0 : Nat), s.pair.claim = .guard t0 ∧ t0 + 10000 ≤ s.ns ∧ s.slot = 1 :=
  ⟨((late rdy).setPair { claim := .guard 0 }).wr Reg.PAIR_PAIRSTAT_SLOT 1, 0, by decide +kernel⟩

theorem hyps_PairClaimCommandsComplete_3 : ∃ (s : State) (t0 : Nat), s.pair.claim = .guard t0 ∧ t0 + 10000 ≤ s.ns ∧ s.slot ≠ 1 :=
  ⟨((late rdy).setPair { claim := .guard 0 }).wr Reg.PAIR_PAIRSTAT_SLOT 0, 0, by decide +kernel⟩

theorem hyps_PairClaimCommandsComplete_4 : ∃ (s : State) (t0 : Nat) (r : Option Nat), s.pair.claim = .contest t0 r ∧ t0 + 50000 ≤ s.ns :=
  ⟨(late rdy).setPair { claim := .contest 0 none }, 0, none, by decide +kernel⟩

theorem hyps_PairClaimCommandsComplete_5 : ∃ (s : State), s.pair.claim = .idle ∧ s.mayClaim = true ∧ s.lockIn = false ∧ s.pair.backoff ≤ s.ns :=
  ⟨((rdy.wr Reg.PAIR_PAIRSTAT_ENABLED 1).wr Reg.PAIR_PAIRSTAT_ROLE 2).wr Reg.PAIR_PAIRSTAT_LOCKIN 0, by decide +kernel⟩

theorem hyps_PairClaimCommandsComplete_6 : ∃ (s : State), s.role = 1 :=
  ⟨rdy.wr Reg.PAIR_PAIRSTAT_ROLE 1, by decide +kernel⟩

theorem hyps_PairClaimCommandsComplete_7 : ∃ (s : State) (t0 : Nat), s.pair.joinBy = some t0 ∧ s.role = 0 ∧ t0 ≤ s.ns :=
  ⟨rdy.setPair { joinBy := some 0 }, 0, by decide +kernel⟩

theorem hyps_PairClaimCommandsComplete_8 : ∃ (s : State) (t0 : Nat), s.pair.handAt = some t0 ∧ t0 ≤ s.ns ∧ s.pair.handKey ≠ 0 :=
  ⟨rdy.setPair { handAt := some 0, handKey := 1 }, 0, by decide +kernel⟩

theorem hyps_HeartbeatCommandsComplete_1 : ∃ (s : State), s.paired = true ∧ s.fclk = true ∧ s.dev ≠ 0 ∧ s.pair.hbNext ≤ s.ns :=
  ⟨rdy.wr Reg.PAIR_PAIRSTAT_ENABLED 1, by decide +kernel⟩

theorem hyps_HeartbeatCommandsComplete_2 : ∃ (s : State), s.rd Reg.PAIR_PAIRSTAT_LINKUP = 1 ∧ s.fclk = true ∧ s.dev ≠ 0 :=
  ⟨linked, by decide +kernel⟩

theorem hyps_HeartbeatCommandsComplete_3 : ∃ (s : State) (line : Bool), let r := if line then Reg.PAIR_PAIRSTAT_HBLINE else Reg.PAIR_PAIRSTAT_HBLINK
    s.paired = true ∧ s.rd r ≠ 0 ∧ (if line then s.pair.hbLineAt else s.pair.hbLinkAt) + s.rd Reg.PAIR_HBTIMEOUT_US * 1000 ≤ s.ns :=
  ⟨(late (rdy.wr Reg.PAIR_PAIRSTAT_ENABLED 1)).wr Reg.PAIR_PAIRSTAT_HBLINE 1, true, by decide +kernel⟩

theorem hyps_HeartbeatCommandsComplete_4 : ∃ (s : State), s.rd Reg.PCR_DEVSTAT_PSTATE ≠ 0 ∧ (s.fclk = false ∨ s.pair.hbLineAt =
    0 ∨ s.pair.hbLineAt + 1000 ≤ s.ns) :=
  ⟨rdy, by decide +kernel⟩

theorem hyps_HeartbeatCommandsComplete_5 : ∃ (s : State), s.role = 1 ∧ s.pair.hbSent + s.rd Reg.PAIR_HBTIMEOUT_US * 500 ≤ s.ns :=
  ⟨(late rdy).wr Reg.PAIR_PAIRSTAT_ROLE 1, by decide +kernel⟩

theorem hyps_LinkCommandsComplete_1 : ∃ (s : State) (fr : Bytes), s.rd Reg.PAIR_PAIRSTAT_LINKUP = 1 ∧ fr.length = 2048 ∧ crc32c (fr.take 2044) =
    fld fr 2044 4 ∧ fld fr 0 1 < 3 ∧ fld fr 2 2 = tget 0 s.pair.rx (fld fr 0 1) :=
  ⟨linked, linkFrame0, ⟨by decide +kernel, linkFrame0_length, linkFrame0_crc, linkFrame0_fits.1, linkFrame0_fits.2⟩⟩

theorem hyps_LinkCommandsComplete_2 : ∃ (s : State) (c : Fin 3) (e : Nat × Nat × Nat × LRec) (rest : List (Nat × Nat × Nat × LRec)),
    (s.tx c).unacked = e :: rest ∧ e.2.2.1 + 4000 ≤ s.ns :=
  ⟨(late rdy).setTx 2 { unacked := [(65535, 0, 0, .ackOnly)] }, 2, (65535, 0, 0, .ackOnly), [], by decide +kernel⟩

theorem hyps_LinkCommandsComplete_3 : ∃ (s : State) (c : Fin 3) (e : Nat × Nat × Nat × LRec) (rest : List (Nat × Nat × Nat × LRec)),
    (s.tx c).unacked = e :: rest ∧ e.2.1 + 150000 ≤ s.ns :=
  ⟨(late rdy).setTx 2 { unacked := [(65535, 0, 0, .ackOnly)] }, 2, (65535, 0, 0, .ackOnly), [], by decide +kernel⟩

theorem hyps_LinkCommandsComplete_4 : ∃ (s : State) (c : Fin 3), s.rd Reg.PAIR_PAIRSTAT_LINKUP = 1 ∧ (s.tx c).unacked ≠ [] :=
  ⟨linked.setTx 1 { unacked := [(65535, 0, 0, .ackOnly)] }, 1, by decide +kernel⟩

theorem hyps_LinkCommandsComplete_5 : ∃ (s : State) (seq : Nat), 2 ≤ s.role ∧ seq < 65536 ∧ seq = s.rd Reg.PAIR_MIRRORSEQ_RX ∧
    s.rd Reg.PAIR_PAIRSTAT_IMAGE = 1 ∧ s.pair.heldMirrors = [] :=
  ⟨((rdy.wr Reg.PAIR_PAIRSTAT_ROLE 2).wr Reg.PAIR_PAIRSTAT_IMAGE 1).wr Reg.PAIR_MIRRORSEQ_RX 65535, 65535, by decide +kernel⟩

theorem hyps_PairDataCommandsComplete_1 : ∃ (s : State), s.role ≠ 0 :=
  ⟨rdy.wr Reg.PAIR_PAIRSTAT_ROLE 3, by decide +kernel⟩

theorem hyps_PairDataCommandsComplete_2 : ∃ (s : State) (e : CheckRec × Nat × Nat), (s.pair.own.find? fun e => decide (e.2.2 ≤ s.ns)) = some e :=
  ⟨(late rdy).setPair { own := [(check0, 0, 0)] }, (check0, 0, 0), by decide +kernel⟩

theorem hyps_PairDataCommandsComplete_3 : ∃ (s : State) (f : Fin 384) (ext : Nat) (e : Nat × Bytes × Bytes), s.role ≠ 0 ∧ s.repairOf f ext = some e :=
  ⟨(linked.setFlowIn 383 (some { flow0 with kind := 2, answer := [(7, [], [])] })), 383, 7, (7, [], []), by decide +kernel⟩

theorem hyps_PairDataCommandsComplete_4 : ∃ (s : State) (f : Fin 384) (ext : Nat), s.role ≠ 0 ∧ s.repairOf f ext = none :=
  ⟨linked, 383, 7, by decide +kernel⟩

theorem hyps_PairDataCommandsComplete_5 : ∃ (s : State) (f : Fin 384) (ext : Nat) (hdr pl : Bytes) (e : Nat × Nat × Nat) (x : InFlow),
    s.repairAsked f ext = some e ∧ (let t := s.setPair { s.pair with repairs := s.pair.repairs.erase e }
    let n := e.2.1
    t.flowIn f = some x ∧ t.ns ≤ e.2.2 + 500000 ∧ (tget ({} : SeqSt) x.win n).a = false ∧ (tget ({} : SeqSt) x.win n).b = false ∧ (tget ({} :
    SeqSt) x.win n).rep = false ∧ t.repairLatched f hdr pl = false) :=
  ⟨(rdy.setPair { repairs := [(383, 7, 0)] }).setFlowIn 383 (some flow0), 383, 7, zs 12, [], (383, 7, 0), flow0, by decide +kernel⟩

theorem hyps_PairDataCommandsComplete_6 : ∃ (s : State), 2 ≤ s.role :=
  ⟨rdy.wr Reg.PAIR_PAIRSTAT_ROLE 2, by decide +kernel⟩

theorem hyps_PairDataCommandsComplete_7 : ∃ (s : State) (ch : Fin 64), (s.role = 3 ∨ (s.chan ch).follow = true) :=
  ⟨rdy.wr Reg.PAIR_PAIRSTAT_ROLE 3, 63, by decide +kernel⟩

theorem hyps_PairDataCommandsComplete_8 : ∃ (s : State), s.role = 1 :=
  ⟨rdy.wr Reg.PAIR_PAIRSTAT_ROLE 1, by decide +kernel⟩

theorem hyps_PairDataCommandsComplete_9 : ∃ (s : State), s.role = 1 :=
  ⟨rdy.wr Reg.PAIR_PAIRSTAT_ROLE 1, by decide +kernel⟩

theorem hyps_PairDataCommandsComplete_10 : ∃ (s : State) (g : Image), s.role = 3 ∧ s.pair.fullPend = true ∧
    ((List.range 64).any fun n => (s.dropContexts.withImage g).admitted n && ((s.dropContexts.withImage g).admitCheck n).isSome) = false :=
  ⟨(rdy.wr Reg.PAIR_PAIRSTAT_ROLE 3).setPair { fullPend := true }, { ts := 0 }, by decide +kernel⟩

theorem hyps_PairDataCommandsComplete_waited : ∃ (s : State) (ch : Fin 64) (frame row : Nat), (s.role = 3 ∨ (s.chan ch).follow = true) ∧
    (s.chan ch).rcWait = some (frame, row) :=
  ⟨(rdy.wr Reg.PAIR_PAIRSTAT_ROLE 3).setChan 63 { rcWait := some (0, 0) }, 63, 0, 0, by decide +kernel⟩

theorem hyps_PairDataCommandsComplete_ahead : ∃ (s : State) (ch : Fin 64) (frame row : Nat), (s.role = 3 ∨ (s.chan ch).follow = true) ∧
    (s.chan ch).rcWait ≠ some (frame, row) ∧ rowLt (frame, row) ((s.chan ch).nextFrame, (s.chan ch).nextRow) = false :=
  ⟨rdy.wr Reg.PAIR_PAIRSTAT_ROLE 3, 63, 0, 0, by decide +kernel⟩

theorem hyps_DramCommandsComplete_1 : ∃ (s : State), s.dramUp = true ∧ s.fclk = true ∧ s.rd Reg.SPD_SPDSTAT_WINDOW = 0 :=
  ⟨rdy.wr Reg.DMC_CHSTAT_STATE 3 0, by decide +kernel⟩

theorem hyps_DramCommandsComplete_2 : ∃ (s : State), s.dramUp = true ∧ s.fclk = true ∧ (∀ t, s.dmc.mr4At =
    some t → t + s.rd Reg.DMC_REFCFG_MR4_INT * 1000 ≤ s.ns) :=
  ⟨rdy.wr Reg.DMC_CHSTAT_STATE 3 0, ⟨by decide +kernel, by decide +kernel, fun t h => nomatch (show (none : Option Nat) = some t from h)⟩⟩

theorem hyps_DramCommandsComplete_3 : ∃ (s : State), s.dmc.clearAt + 32000000 ≤ s.ns :=
  ⟨late rdy, by decide +kernel⟩

theorem hyps_DramCommandsComplete_4 : ∃ (s : State) (line : Nat), 64 * line < s.rd Reg.MTX_DRAMSIZE_BYTES ∧ s.dramReady (s.dramPlace line).chan =
    true ∧ s.dramHolds (s.dramPlace line).chan = false :=
  ⟨(rdy.wr Reg.DMC_CHSTAT_STATE 3 23).wr Reg.MTX_DRAMSIZE_BYTES (64 * 24), 23, by decide +kernel⟩

theorem hyps_DramCommandsComplete_5 : ∃ (s : State) (line : Nat), 64 * line < s.rd Reg.MTX_DRAMSIZE_BYTES ∧ s.dramHolds (s.dramPlace line).chan =
    true :=
  ⟨(rdy.wr Reg.DMC_CHSTAT_STATE 4 23).wr Reg.MTX_DRAMSIZE_BYTES (64 * 24), 23, by decide +kernel⟩

theorem hyps_DramCommandsComplete_6 : ∃ (s : State) (c : Fin 24), s.dramReady c = true ∧ tget 0 s.mem.dramBad ((s.dmcCh c).scrub * 24 + c) = 0 ∧ (∀ t,
    (s.dmcCh c).scrubAt = some t → t + s.rd Reg.DMC_SCRUB_INTERVAL c * 1000000 / dclkKhz (s.rd Reg.DMC_CHSTAT_POINT c) ≤ s.ns) :=
  ⟨rdy.wr Reg.DMC_CHSTAT_STATE 3 23, 23, ⟨by decide +kernel, by decide +kernel, fun t h => nomatch (show (none : Option Nat) = some t from h)⟩⟩

theorem hyps_DramCommandsComplete_7 : ∃ (s : State) (t0 : Train), s.dmc.train = some t0 ∧ t0.step ≠ 0 :=
  ⟨{ rdy with dmc := { rdy.dmc with train := some { point := 3, sel := 1, live := 1, good := 0, step := 7, key := 1 } } },
    { point := 3, sel := 1, live := 1, good := 0, step := 7, key := 1 }, by decide +kernel⟩

theorem hyps_DramCommandsComplete_8 : ∃ (s : State) (pt key : Nat) (rest : List (Nat × Nat)), s.dmc.points = (pt, key) :: rest ∧
    s.rd Reg.DMC_CHSTAT_STATE = 4 :=
  ⟨{ rdy.wr Reg.DMC_CHSTAT_STATE 4 with dmc := { rdy.dmc with points := [(3, 1)] } }, 3, 1, [], by decide +kernel⟩

theorem hyps_CheckValueAndRecordCommandsComplete_1 : ∃ (s : State), s.fclk = true :=
  ⟨rdy, by decide +kernel⟩

theorem hyps_CheckValueAndRecordCommandsComplete_2 : ∃ (s : State), s.fclk = true :=
  ⟨rdy, by decide +kernel⟩

theorem hyps_CheckValueAndRecordCommandsComplete_3 : ∃ (s : State), s.fclk = true :=
  ⟨rdy, by decide +kernel⟩

theorem hyps_CheckValueAndRecordCommandsComplete_4 : ∃ (s : State), s.fclk = true :=
  ⟨rdy, by decide +kernel⟩

theorem hyps_ResetCommandsComplete_1 : ∃ (s : State), s.rd Reg.PCR_DEVSTAT_PSTATE = 0 ∧ s.pcr.refLost = false :=
  ⟨rdy.wr Reg.PCR_DEVSTAT_PSTATE 0, by decide +kernel⟩

theorem hyps_ResetCommandsComplete_2 : ∃ (s : State), s.rd Reg.PCR_DEVSTAT_PSTATE ≠ 0 :=
  ⟨rdy, by decide +kernel⟩

theorem hyps_ResetCommandsComplete_3 : ∃ (s : State), s.pcr.refLost = true :=
  ⟨{ rdy with pcr := { rdy.pcr with refLost := true } }, by decide +kernel⟩

theorem hyps_ResetCommandsComplete_4 : ∃ (s : State), s.aoOn = true :=
  ⟨rdy, by decide +kernel⟩

theorem hyps_ResetCommandsComplete_5 : ∃ (s : State), s.aoOn = true ∧ s.pcr.tripped = false ∧ s.pcr.kind = 1 ∧ s.pcr.stage = 0 :=
  ⟨State.reset, by decide +kernel⟩

theorem hyps_ResetCommandsComplete_6 : ∃ (s : State), s.aoOn = true ∧ s.pcr.kind = 2 ∧ s.pcr.stage = 0 ∧ s.pcr.rails = true :=
  ⟨{ rdy with pcr := { rdy.pcr with kind := 2, rails := true } }, by decide +kernel⟩

theorem hyps_ResetCommandsComplete_7 : ∃ (s : State), s.pcr.kind = 1 ∧ s.pcr.stage = 1 ∧ s.pcr.en = true :=
  ⟨{ State.reset with pcr := { stage := 1, en := true } }, by decide +kernel⟩

theorem hyps_ResetCommandsComplete_8 : ∃ (s : State), s.pcr.kind = 1 ∧ s.pcr.stage = 1 ∧ s.pcr.en = true :=
  ⟨{ State.reset with pcr := { stage := 1, en := true } }, by decide +kernel⟩

theorem hyps_ResetCommandsComplete_9 : ∃ (s : State), s.pcr.kind = 1 ∧ s.pcr.stage = 1 ∧ s.pcr.en = false ∧ s.pcr.fails < 3 :=
  ⟨{ State.reset with pcr := { stage := 1, fails := 2 } }, by decide +kernel⟩

theorem hyps_ResetCommandsComplete_10 : ∃ (s : State), s.pcr.rails = true :=
  ⟨{ rdy with pcr := { rails := true } }, by decide +kernel⟩

theorem hyps_ResetCommandsComplete_11 : ∃ (s : State), s.dev = 0 ∧ s.pcr.kind ≠ 0 ∧ s.pcr.stage = 2 ∧ s.rd Reg.CST_CSTSTAT_WIPING = 0 :=
  ⟨{ State.reset with pcr := { stage := 2 } }, by decide +kernel⟩

theorem hyps_ResetCommandsComplete_12 : ∃ (s : State) (temps : List Int), s.pcr.tripped = true ∧
    (List.range 8).all (fun i => decide (temps.getD i 0 < 950)) = true :=
  ⟨{ rdy with pcr := { tripped := true } }, List.replicate 8 949, by decide +kernel⟩

theorem hyps_ResetCommandsComplete_13 : ∃ (s : State), s.aoOn = true :=
  ⟨rdy, by decide +kernel⟩

theorem hyps_ResetCommandsComplete_14 : ∃ (s : State), s.aoOn = true :=
  ⟨rdy, by decide +kernel⟩

theorem hyps_ResetCommandsComplete_15 : ∃ (key : Nat), key ≠ 0x5A5A :=
  ⟨0x5A5B, by decide +kernel⟩

theorem hyps_PowerCommandsComplete_1 : ∃ (s : State), s.rd Reg.PCR_DEVSTAT_PSTATE = 2 ∧ s.dev ≠ 0 ∧ (List.range 64).all (fun n => [0, 1, 2,
    5].contains (s.chSt n)) = true :=
  ⟨rdy, by decide +kernel⟩

theorem hyps_PowerCommandsComplete_2 : ∃ (s : State) (pin : Fin 32), s.rd Reg.PCR_PWRCTL_WAKEEN = 1 ∧ s.rd Reg.PCR_PWRCTL_WAKEPIN = pin :=
  ⟨(rdy.wr Reg.PCR_PWRCTL_WAKEEN 1).wr Reg.PCR_PWRCTL_WAKEPIN 31, 31, by decide +kernel⟩

theorem hyps_PowerCommandsComplete_3 : ∃ (s : State), s.aoOn = true :=
  ⟨rdy, by decide +kernel⟩

theorem hyps_PowerCommandsComplete_4 : ∃ (s : State), s.aoOn = true :=
  ⟨rdy, by decide +kernel⟩

theorem hyps_PowerCommandsComplete_5 : ∃ (s : State) (u : Fin 256), s.fclk = true ∧ s.atTarget u = 0 ∧ tget false s.pcr.gates u = true ∧ u.val < 32 :=
  ⟨{ rdy with pcr := { rdy.pcr with gates := [(31, true)] } }, 31, by decide +kernel⟩

theorem hyps_PowerCommandsComplete_6 : ∃ (s : State) (mv : List Nat), s.aoOn = true ∧ 720 ≤ mv.getD 2 0 :=
  ⟨rdy, [0, 0, 720], by decide +kernel⟩

theorem hyps_PowerCommandsComplete_7 : ∃ (s : State), s.aoOn = true :=
  ⟨rdy, by decide +kernel⟩

theorem hyps_PowerCommandsComplete_8 : ∃ (s : State), s.aoOn = true ∧ s.dev ≠ 0 ∧ (s.mgt.wdog.filter fun t => s.ns < t + 60000000000).length < 2 :=
  ⟨{ rdy with mgt := { rdy.mgt with wdog := [0] } }, by decide +kernel⟩

theorem hyps_PowerCommandsComplete_9 : ∃ (s : State), s.mgt.down = true :=
  ⟨{ rdy with mgt := { rdy.mgt with down := true } }, by decide +kernel⟩

theorem hyps_PowerCommandsComplete_10 : ∃ (s : State), s.mgt.down = true :=
  ⟨{ rdy with mgt := { rdy.mgt with down := true } }, by decide +kernel⟩

theorem hyps_PowerCommandsComplete_11 : ∃ (s : State) (up : Bool), s.aoOn = true ∧ s.rd Reg.MGT_SVCSTAT_LINK ≠ bit up :=
  ⟨rdy, true, by decide +kernel⟩

theorem hyps_ServiceMessagesComplete_1 : ∃ (s : State) (snd seq : Nat), s.TakesMsg snd seq 1 :=
  ⟨served, 9, 65535, takesMsg_of (by decide +kernel)⟩

theorem hyps_ServiceMessagesComplete_2 : ∃ (s : State) (snd seq : Nat), s.TakesMsg snd seq 2 :=
  ⟨served, 9, 65535, takesMsg_of (by decide +kernel)⟩

theorem hyps_ServiceMessagesComplete_3 : ∃ (s : State) (snd seq : Nat), s.TakesMsg snd seq 3 :=
  ⟨served, 9, 65535, takesMsg_of (by decide +kernel)⟩

theorem hyps_ServiceMessagesComplete_4 : ∃ (s : State) (snd seq : Nat), s.TakesMsg snd seq 4 ∧ (s.svcAccept snd seq).updSt = 2 :=
  ⟨{ served with mgt := { served.mgt with nv := { served.mgt.nv with staged := { st := 2 } } } }, 9, 65535, ⟨takesMsg_of (by decide +kernel),
    by decide +kernel⟩⟩

theorem hyps_ServiceMessagesComplete_5 : ∃ (s : State) (snd seq : Nat), s.TakesMsg snd seq 5 :=
  ⟨served, 9, 65535, takesMsg_of (by decide +kernel)⟩

theorem hyps_ServiceMessagesComplete_6 : ∃ (s : State) (snd seq : Nat), s.TakesMsg snd seq 6 ∧ (s.svcAccept snd seq).canConfirm = true :=
  ⟨servedTrial, 9, 65535, ⟨takesMsg_of (by decide +kernel), by decide +kernel⟩⟩

theorem hyps_ServiceMessagesComplete_7 : ∃ (s : State) (snd seq : Nat), s.TakesMsg snd seq 7 :=
  ⟨served, 9, 65535, takesMsg_of (by decide +kernel)⟩

theorem hyps_ServiceMessagesComplete_8 : ∃ (s : State) (snd seq : Nat), s.TakesMsg snd seq 8 :=
  ⟨served, 9, 65535, takesMsg_of (by decide +kernel)⟩

theorem hyps_ServiceMessagesComplete_9 : ∃ (s : State) (snd seq : Nat), s.TakesMsg snd seq 8 :=
  ⟨served, 9, 65535, takesMsg_of (by decide +kernel)⟩

theorem hyps_ServiceMessagesComplete_10 : ∃ (s : State) (snd seq : Nat), s.TakesMsg snd seq 9 :=
  ⟨served, 9, 65535, takesMsg_of (by decide +kernel)⟩

theorem hyps_ServiceMessagesComplete_11 : ∃ (s : State) (snd seq : Nat), s.TakesMsg snd seq 10 :=
  ⟨served, 9, 65535, takesMsg_of (by decide +kernel)⟩

theorem hyps_ServiceMessagesComplete_12 : ∃ (s : State) (snd seq typ : Nat), typ < 256 ∧ (typ = 0 ∨ 10 < typ) ∧ s.TakesMsg snd seq typ :=
  ⟨served, 9, 65535, 11, ⟨by decide, by decide, takesMsg_of (by decide +kernel)⟩⟩

theorem hyps_UpdateProgressCommandsComplete_1 : ∃ (s : State) (index a b c : Nat) (d : Bytes), (s.mgt.prog.find? fun e => e.1 = index) = some (a, b,
    c, d) ∧ s.mgt.nv.staged.st = 1 ∧ s.mgt.down = false :=
  ⟨{ rdy with mgt := { rdy.mgt with nv := { rdy.mgt.nv with staged := { st := 1 } }, prog := [(0, 9, 1, [])] } }, 0, 0, 9, 1, [], by decide +kernel⟩

theorem hyps_UpdateProgressCommandsComplete_2 : ∃ (s : State) (done : List (Nat × Nat)), s.mgt.erase = some done ∧ s.mgt.down = false :=
  ⟨{ rdy with mgt := { rdy.mgt with erase := some [] } }, [], by decide +kernel⟩

theorem hyps_UpdateProgressCommandsComplete_3 : ∃ (s : State), s.mgt.down = false ∧ s.updSt = 3 :=
  ⟨{ rdy with mgt := { rdy.mgt with nv := { rdy.mgt.nv with staged := { st := 3 } } } }, by decide +kernel⟩

theorem hyps_UpdateProgressCommandsComplete_4 : ∃ (s : State), s.mgt.confirming = true ∧ s.mgt.down = false ∧ s.mgt.nv.slots.trial = true :=
  ⟨{ rdy with mgt := { rdy.mgt with nv := { rdy.mgt.nv with slots := { trial := true } }, confirming := true } }, by decide +kernel⟩

theorem hyps_UpdateProgressCommandsComplete_5 : ∃ (s : State) (snd seq t : Nat), s.mgt.down = false ∧ s.mgt.beginWait = some (snd, seq, t) ∧
    t + 2000 * s.rd Reg.PAIR_HBCFG_PERIOD_US ≤ s.ns ∧ ¬(s.mgt.upd = true ∧ s.rd Reg.PAIR_PAIRSTAT_LINKUP = 1 ∧ s.pair.pUpd = true ∧
    s.rd Reg.PAIR_PAIRSTAT_SLOT = 1) :=
  ⟨late ({ rdy with mgt := { rdy.mgt with beginWait := some (9, 1, 0) } }), 9, 1, 0, by decide +kernel⟩

theorem hyps_TestCommandsComplete_1 : ∃ (s : State) (key : Nat), s.fclk = true ∧ s.tstDeny key = none ∧ s.rd Reg.TST_LOCKSTAT_OPEN = 0 :=
  ⟨rdy, 0x7E57, by decide +kernel⟩

theorem hyps_TestCommandsComplete_2 : ∃ (s : State), s.fclk = true :=
  ⟨rdy, by decide +kernel⟩

theorem hyps_TestCommandsComplete_3 : ∃ (s : State), s.tstOn = true :=
  ⟨rdy.wr Reg.TST_LOCKSTAT_OPEN 1, by decide +kernel⟩

theorem hyps_TestCommandsComplete_4 : ∃ (s : State), s.tstOn = true :=
  ⟨rdy.wr Reg.TST_LOCKSTAT_OPEN 1, by decide +kernel⟩

theorem hyps_TestCommandsComplete_5 : ∃ (s : State), s.tstOn = true ∧ s.rd Reg.TST_CHKINJ_KIND ≠ 0 :=
  ⟨(rdy.wr Reg.TST_LOCKSTAT_OPEN 1).wr Reg.TST_CHKINJ_KIND 1, by decide +kernel⟩

theorem hyps_TestCommandsComplete_6 : ∃ (s : State), s.tstOn = true :=
  ⟨rdy.wr Reg.TST_LOCKSTAT_OPEN 1, by decide +kernel⟩

theorem hyps_TestCommandsComplete_7 : ∃ (s : State) (t0 : Nat), s.tst.hbUntil = some t0 :=
  ⟨{ rdy with tst := { hbUntil := some 5 } }, 5, by decide +kernel⟩

theorem hyps_TestCommandsComplete_8 : ∃ (s : State), s.tstOn = true ∧ s.rd Reg.TST_BPINJ_EN ≠ 0 ∧ s.rd Reg.TST_BPTIME_ON ≠ 0 ∧
    s.rd Reg.CST_PORT_CLASS 0 (s.rd Reg.TST_BPINJ_PORT) ≠ 1 :=
  ⟨((rdy.wr Reg.TST_LOCKSTAT_OPEN 1).wr Reg.TST_BPINJ_EN 1).wr Reg.TST_BPTIME_ON 1 |>.wr Reg.TST_BPINJ_PORT 47, by decide +kernel⟩

theorem hyps_EventOccurrencesSetStatusAndCount : ∃ (src : Nat), src < 692 :=
  ⟨691, by decide +kernel⟩

theorem hyps_EventOccurrencesSetStatusAndCount_masked : ∃ (s : State) (src : Nat), src < 692 ∧ s.evt.burst = [] ∧
    (s.rd Reg.EVT_MASK_BITS 0 (src / 32)).testBit (src % 32) = true :=
  ⟨rdy.wr Reg.EVT_MASK_BITS 0xFFFFFFFF 0 21, 691, by decide +kernel⟩

theorem hyps_EventOccurrencesSetStatusAndCount_reserved : ∃ (s : State) (src : Nat), src < 692 ∧ s.rd Reg.EVT_STAT_BITS 0 21 < 2 ^ 20 :=
  ⟨rdy, 691, by decide +kernel⟩

theorem hyps_EventClearsLetTheSetWin : ∃ (s : State), s.rd Reg.EVT_OCCSEL_SRC ≤ 691 :=
  ⟨rdy.wr Reg.EVT_OCCSEL_SRC 691, by decide +kernel⟩

theorem hyps_TestLockOpensOnlyUnderItsConditions : ∃ (s : State) (key : Nat), s.fclk = true ∧ key < 2 ^ 16 :=
  ⟨rdy, 0x7E57, by decide +kernel⟩

theorem hyps_HostWritesReachOnlyTheirPages : ∃ (s : State), s.dev ≠ 0 :=
  ⟨rdy, by decide +kernel⟩

theorem hyps_HostWritesReachOnlyTheirPages_open : ∃ (s : State) (off : Nat) (data : Bytes), s.dev ≠ 0 ∧ s.memHolds off data.length = false :=
  ⟨rdy, 0, [1], by decide +kernel⟩

theorem hyps_HostWritesReachOnlyTheirPages_held : ∃ (s : State) (off : Nat) (data : Bytes), s.dev ≠ 0 ∧ s.memHolds off data.length = true :=
  ⟨rdy.wr Reg.CST_CSTSTAT_WIPING 1, 0, [1], by decide +kernel⟩

theorem hyps_BadDoorbellsAreDiscarded_1 : ∃ (s : State) (q v : Nat), s.dev ≠ 0 ∧ q ≤ 66 ∧ v < 2 ^ 32 ∧ (s.qExists q =
    false ∨ (s.que q).deleting.isSome = true ∨ (if q = 66 then 0 else 2 ^ (s.que q).sqlog2) ≤ v) :=
  ⟨rdy, 66, 2 ^ 32 - 1, by decide +kernel⟩

theorem hyps_BadDoorbellsAreDiscarded_2 : ∃ (s : State) (q v : Nat), s.dev ≠ 0 ∧ q ≤ 66 ∧ v < 2 ^ 32 ∧ (s.qExists q =
    false ∨ 2 ^ (s.que q).cqlog2 ≤ v) :=
  ⟨rdy, 66, 0, by decide +kernel⟩

theorem hyps_BadDoorbellsAreDiscarded_3 : ∃ (s : State) (q v : Nat), s.dev ≠ 0 ∧ q < 66 ∧ v < 2 ^ 32 ∧ s.qExists q = true ∧ (s.que q).deleting =
    none ∧ v < 2 ^ (s.que q).sqlog2 ∧ v = s.rd Reg.HIF_QSTAT_TAIL 0 q :=
  ⟨qOn, 2, 1, by decide +kernel⟩

theorem hyps_BadDoorbellsAreDiscarded_4 : ∃ (s : State) (q v : Nat), s.dev ≠ 0 ∧ q < 66 ∧ v < 2 ^ 32 ∧ s.qExists q = true ∧ (s.que q).deleting =
    none ∧ v < 2 ^ (s.que q).sqlog2 ∧ (let size := 2 ^ (s.que q).sqlog2
    let adv := (v + size - s.rd Reg.HIF_QSTAT_TAIL 0 q) % size
    adv ≠ 0 ∧ size - 1 < (s.rd Reg.HIF_QSTAT_TAIL 0 q + size - s.rd Reg.HIF_QSTAT_HEAD 0 q) % size + adv) :=
  ⟨qOn.wr Reg.HIF_QSTAT_HEAD 2 0 2, 2, 2, by decide +kernel⟩

theorem hyps_WipedPagesReadZero : ∃ (s : State) (page : Fin 131072), (s.page page).owner = 6 ∧
    (s.cst.frees.any fun e => e.2.1.contains page.val && !s.blitsDone e.2.2) = false :=
  ⟨rdy.setPage 131071 { owner := 6 }, 131071, by decide +kernel⟩

theorem hyps_StoreWipeLeavesZeroes : ∃ (s : State), s.rd Reg.CST_CSTSTAT_WIPING = 1 :=
  ⟨rdy.wr Reg.CST_CSTSTAT_WIPING 1, by decide +kernel⟩

theorem hyps_RateStepKeepsItsBounds : ∃ st : RcSt, st.set.tq ≤ st.set.qmax :=
  ⟨{}, by decide⟩

theorem hyps_SweepRefreshesEveryUnitOnce : ∃ (st : RcSt) (rows cols frame : Nat) (w : Sweep), 0 < st.set.period ∧ 0 < rows ∧ 0 < cols ∧
    (st.sweepBegin rows cols frame).newest = some w :=
  ⟨{}, 34, 120, 1, (({} : RcSt).sweepBegin 34 120 1).newest.getD { start := 0, k := 0, units := 0, len := 0, rowMode := false, conv := false },
    by decide +kernel⟩

theorem hyps_CommitsAreNumberedInOrder : ∃ (n : Nat) (cs : List Commit), (∀ c ∈ cs, c.ch = n) :=
  ⟨63, [{ ch := 63, frame := 0, row := 0, ns := 0, fseq := 0, kind := .start }], by decide⟩

theorem hyps_StoredBytesReadBack : ∃ (s : State) (a : Nat) (p : Bytes), (∀ i, i < p.length → (s.space (a + i)).1 ≠ 2) :=
  ⟨rdy, 0x5FFFFFFF, [1], by decide +kernel⟩

theorem hyps_RegisterWritesReachOneField : ∃ (i j i' j' : Nat), i < 4096 ∧ j < 4096 ∧ i' < 4096 ∧ j' < 4096 :=
  ⟨4095, 4095, 0, 0, by decide +kernel⟩

theorem hyps_ErrorResponsesAreRecordedOnce : ∃ (s : State), s.fclk = true :=
  ⟨rdy, by decide +kernel⟩

theorem hyps_GuardTableCountsActivates : ∃ (t : List (Nat × Nat)), t.length ≤ 16 ∧ (t.map Prod.fst).Nodup :=
  ⟨(List.range 16).map fun i => (i, 1), by decide +kernel⟩

theorem hyps_NopPostsItsReply : ∃ (s : State) (h : Hdr) (p : Bytes), s.Takes 0x0000 h p noChk ∧ h.plen = 0 ∧
    ((s.front h.qid.val).que h.qid.val).replies = [] ∧ (s.front h.qid.val).ringRoom h.qid.val = true ∧ (s.front h.qid.val).replyDelay h.qid.val = 0 ∧
    s.rd Reg.HIF_QSTAT_ENABLED 0 h.qid.val = 1 :=
  ⟨rdy.setQue 0 { cqlog2 := 4 }, hd 0 255 [], [], ⟨takes_of (by decide +kernel), by decide +kernel, by decide +kernel, by decide +kernel,
    by decide +kernel, by decide +kernel⟩⟩

theorem hyps_DebugPortObeysItsGrant_1 : ∃ (s : State), s.fclk = true ∧ (¬(s.rd Reg.TST_LOCKSTAT_OPEN = 1 ∧ s.rd Reg.TST_DAP_EN = 1 ∧
    (s.rd Reg.PCR_LCSTAT_STATE = 0 ∨ s.rd Reg.PCR_LCSTAT_STATE = 3))) :=
  ⟨rdy, by decide +kernel⟩

theorem hyps_DebugPortObeysItsGrant_2 : ∃ (s : State) (a len : Nat), s.fclk = true ∧ s.rd Reg.TST_LOCKSTAT_OPEN = 1 ∧ s.rd Reg.TST_DAP_EN = 1 ∧
    (s.rd Reg.PCR_LCSTAT_STATE = 0 ∨ s.rd Reg.PCR_LCSTAT_STATE = 3) ∧ 0x10000000 ≤ a ∧ a + len ≤ 0x10040000 ∧ 0 < len ∧ len ≤ 1024 :=
  ⟨dap, 0x1003FC00, 1024, by decide +kernel⟩

theorem hyps_DebugPortObeysItsGrant_3 : ∃ (s : State) (a : Nat) (d : Bytes), s.fclk = true ∧ s.rd Reg.TST_LOCKSTAT_OPEN = 1 ∧ s.rd Reg.TST_DAP_EN =
    1 ∧ (s.rd Reg.PCR_LCSTAT_STATE = 0 ∨ s.rd Reg.PCR_LCSTAT_STATE = 3) ∧ 0x10000000 ≤ a ∧ a + d.length ≤ 0x10040000 ∧ 0 < d.length ∧
    d.length ≤ 1024 :=
  ⟨dap, 0x1003FFFF, [1], by decide +kernel⟩

/-- A flatten with no tile left for its one opaque layer, and one with nothing to place. -/
theorem hyps_LayerCommandsComplete_full : let s := flattening true false
    (s.cache 63).flattening = some 2048 ∧ (s.task 2048).state = 4 ∧ (s.runLines 63).filter s.badLine = [] ∧ (s.cache 63).stale = false ∧
    s.rd Reg.CMP_TILESIZE_BYTES = 0 ∧ s.occupied 63 (s.gridOf 63 (s.chan 63).nextFrame) ≠ [] := by
  refine ⟨by decide +kernel, by decide +kernel, by decide +kernel, by decide +kernel, by decide +kernel, ?_⟩
  refine List.ne_nil_of_mem (a := 0) (List.mem_filter.2 ⟨List.mem_range.2 (by decide +kernel), List.any_eq_true.2 ⟨0, List.mem_range.2 (by decide), ?_⟩⟩)
  decide +kernel

theorem hyps_LayerCommandsComplete_empty : let s := flattening false false
    (s.cache 63).flattening = some 2048 ∧ (s.task 2048).state = 4 ∧ s.runLines 63 = [] ∧ (s.cache 63).stale = false ∧
    s.occupied 63 (s.gridOf 63 (s.chan 63).nextFrame) = [] := by
  refine ⟨by decide +kernel, by decide +kernel, by decide +kernel, by decide +kernel, ?_⟩
  have h : (flattening false false).runAct 63 = [] := by decide +kernel
  simp only [State.occupied, State.runLive, h, List.foldl_nil]
  simp

/-! ### Commands that no interface can carry -/

theorem test_nop_too_long : (Instr.opNop (hd 0 255 [0]) []).wellFormed = false := by decide
theorem test_reserved_opcode_wide : (Instr.reservedOpcodeCommand 0x10000 (hd 0 255 []) []).wellFormed = false := by decide
theorem test_tail_of_queue_67 : (Instr.submissionTailDoorbell 67 0).wellFormed = false := by decide
theorem test_head_too_wide : (Instr.completionHeadDoorbell 0 (2 ^ 32)).wellFormed = false := by decide
theorem test_slot_of_63_bytes : (Instr.commandFetch 0 (zs 63)).wellFormed = false := by decide
theorem test_write_misaligned : (Instr.registerWrite 0 2 false 0).wellFormed = false := by decide
theorem test_clearing_read_outside : (Instr.rcRead 0 0x4000000 false).wellFormed = false := by decide
theorem test_low_word_misaligned : (Instr.lowWordRead 0 1).wellFormed = false := by decide
theorem test_bar2_write_empty : (Instr.bar2Write 0 []).wellFormed = false := by decide
theorem test_bar2_read_empty : (Instr.bar2Read 0 0 []).wellFormed = false := by decide
theorem test_mirror_ack_wide : (Instr.mirrorAck 0x10000 0).wellFormed = false := by decide
theorem test_mirror_timeout_wide : (Instr.mirrorAckTimeout 0x10000).wellFormed = false := by decide
theorem test_superblock_short : (Instr.superblockReceive 16 0 (zs 273)).wellFormed = false := by decide +kernel
theorem test_link_frame_long : (Instr.linkFrameReceive (zs 2049) none).wellFormed = false := by decide +kernel
theorem test_block_long : (Instr.block 0 0 0 0 (zs 1025)).wellFormed = false := by decide +kernel
theorem test_clear_word_wide : (Instr.evtStatClear 0 (2 ^ 32) []).wellFormed = false := by decide
theorem test_clear_source_692 : (Instr.evtStatClear 0 0 [(692, 0, 0, 0)]).wellFormed = false := by decide
theorem test_message_10_not_reserved : (Instr.reservedServiceMessage 0 0 10).wellFormed = false := by decide
theorem test_dram_write_short : (Instr.dramAccess 0 (some (zs 63)) false 0).wellFormed = false := by decide
theorem test_seventeen_windows : (Instr.laneAdaptEnd 0 (List.replicate 17 (0, 0)) 0 0).wellFormed = false := by decide
theorem test_nop_fits : (Instr.opNop (hd 0 255 []) []).wellFormed = true := by decide

/-! ### Values worked out in the spec's text -/

/-- 02_channels_and_latency.md: a row of 2160p59.94 HEVC takes 474,548 ns, and 1,023,249 ns are left after the last. -/
theorem test_tRow : tRow 2 6 0 = 474548 := by decide
theorem test_deltaMax : deltaMax 2 6 0 = 1023249 := by decide

/-- The same: the buffer of that channel at L = 4,000 µs and 100 Mb/s, and 05_rate_control_and_refresh.md: its BBITS. -/
theorem test_bCpb : bCpb 100000000 4000000 1049096 = 36887 := by decide
theorem test_bBits : bBits 100000000 4000000 1049096 = 295090 := by decide

/-- 04_motion_search_and_reference_pool.md: a buffer at 2160p HEVC, 4:2:2 10-bit; a band at 1080p HEVC, 4:2:0 8-bit. -/
theorem test_bufGranules : bufGranules 2 { chroma := 1, depth := 1 } = 322 := by decide
theorem test_bandPages : bandPages 1 { chroma := 0, depth := 0 } = 450 := by decide

/-- 08_central_store.md: the second line of the emergency partition lies in bank 125. -/
theorem test_csBank : csBank 0x1F000040 = 0x7D := by decide

/-- The check value of CRC-32C over the digits 1 to 9. -/
theorem test_crc32c : crc32c [0x31, 0x32, 0x33, 0x34, 0x35, 0x36, 0x37, 0x38, 0x39] = 0xE3069283 := by decide +kernel

/-- 19_bus_matrix_and_address_map.md: a BAR2 access through the DRAM window, and the place of its line. -/
theorem test_bar2Addr : (rdy.wr Reg.HIF_DRAMWIN_BASE 9).bar2Addr 0x34567840 = Config.dramBase + 0x134567840 := by decide +kernel
theorem test_dramPlace : (rdy.dramPlace 0x4D159E1).chan = 17 := by decide +kernel

/-- A tail doorbell of a queue that does not exist is counted, and nothing else. -/
theorem test_step_bad_doorbell : ∃ t, step { rdy with pending := [.submissionTailDoorbell 40 1] } = .next t ∧ t.pending = [] ∧ t.hif = rdy.hif :=
  ⟨_, rfl, by decide +kernel, by decide +kernel⟩

/-- With no command waiting, a step changes nothing. -/
theorem test_idle : step rdy = .next rdy := rfl

/-- The table gives no row bits, so no word spells a command. -/
theorem test_no_word : decodeTableWord 32 0 = none := rfl

end Sys2Proof.Tests
end

section
/-! PROOFS. Check 1 of admission (R38) keeps the latency budget of R50. -/

namespace Sys2Proof

/-- The ceiling stands at or above what it rounds, by less than one divisor. -/
theorem cdiv_bounds (a : Nat) {b : Nat} (hb : 0 < b) : a ≤ b * cdiv a b ∧ b * cdiv a b < a + b := by
  have hdiv := Nat.div_add_mod (a + b - 1) b
  have hmod := Nat.mod_lt (a + b - 1) hb
  unfold cdiv
  omega

namespace Machine

/-- A check that refuses ends the list. -/
theorem orElse_some (r : Ref4) (f : Unit → Option Ref4) : orElse (some r) f = some r := rfl

/-- Below L_min + T_row check 1 refuses, whatever the later checks would say. -/
theorem admitCheck_of_latency_short {s : State} {n : Nat} (h : s.latNs n < s.lMinOf n + (s.chan n).tRow) :
    s.admitCheck n = some (cap 1 (cdiv (s.lMinOf n + (s.chan n).tRow) 1000) (s.latNs n / 1000)) := by
  simp only [State.admitCheck, if_pos h, orElse_some]

theorem latency_of_admitCheck_none {s : State} {n : Nat} (h : s.admitCheck n = none) :
    s.lMinOf n + (s.chan n).tRow ≤ s.latNs n := by
  by_contra hshort
  rw [admitCheck_of_latency_short (Nat.lt_of_not_le hshort)] at h
  exact Option.some_ne_none _ h

/-- Channel 0 with raster 1 at rate 5 (OP_CH_SET_FORMAT's parameters) and no latency. -/
def withoutLatency : State :=
  (State.reset.withFormat 0 ([1, 5] ++ List.replicate 6 0)).wr Reg.CHC_LATENCY_L_US 0

/-- A channel that R50 refuses: the smallest L that channel could have is 3514 µs. -/
theorem withoutLatency_refused : withoutLatency.admitCheck 0 = some (cap 1 3514 0) := by
  have hshort : withoutLatency.latNs 0 < withoutLatency.lMinOf 0 + (withoutLatency.chan 0).tRow := by decide +kernel
  rw [admitCheck_of_latency_short hshort]
  decide +kernel

/-- Settles O60: check 1 comes first, so a latency below L_min + T_row is refused by it with the ceiling in whole µs, and
a channel that no check refuses has passed it. -/
theorem admissionKeepsTheLatencyBudget : Obligations.AdmissionKeepsTheLatencyBudget := by
  intro s n
  refine ⟨fun hshort => ?_, latency_of_admitCheck_none⟩
  obtain ⟨hle, hlt⟩ := cdiv_bounds (s.lMinOf n + (s.chan n).tRow) (b := 1000) (by decide)
  exact ⟨_, admitCheck_of_latency_short hshort, rfl, hle, hlt⟩

end Machine
end Sys2Proof
end

section
/-! PROOFS. An occurrence sets its status bit and counts, whatever the mask; a masked one posts nothing (R443). -/

namespace Sys2Proof.Machine

/-! ### The status words -/

/-- The status word of a source after its occurrence. -/
theorem rd_ev_stat_same (s : State) (src ch detail aux : Nat) :
    (s.ev src ch detail aux).rd Reg.EVT_STAT_BITS 0 (src / 32) =
      s.rd Reg.EVT_STAT_BITS 0 (src / 32) % 2 ^ 32 ||| 2 ^ (src % 32) := by
  have hbit : 2 ^ (src % 32) < 2 ^ 32 := Nat.pow_lt_pow_right (by decide) (Nat.mod_lt _ (by decide))
  calc (s.ev src ch detail aux).rd Reg.EVT_STAT_BITS 0 (src / 32)
      = (s.rd Reg.EVT_STAT_BITS 0 (src / 32) ||| 2 ^ (src % 32)) % 2 ^ 32 := by rw [ev_stat, rd_wr_same]; rfl
    _ = s.rd Reg.EVT_STAT_BITS 0 (src / 32) % 2 ^ 32 ||| 2 ^ (src % 32) := by
      rw [Nat.or_mod_two_pow, Nat.mod_eq_of_lt hbit]

/-- The other status words after an occurrence. -/
theorem rd_ev_stat_other (s : State) {src w : Nat} (ch detail aux : Nat) (hsrc : src < 692) (hw : w < 22) (hne : w ≠ src / 32) :
    (s.ev src ch detail aux).rd Reg.EVT_STAT_BITS 0 w = s.rd Reg.EVT_STAT_BITS 0 w := by
  rw [ev_stat]
  exact rd_wr_inst _ _ _ _ _ _ _ (by omega)

/-- The sources end at bit 19 of word 21, so no occurrence sets a reserved bit (R442). -/
theorem ev_stat_keeps_reserved (s : State) {src : Nat} (ch detail aux : Nat) (hsrc : src < 692)
    (h : s.rd Reg.EVT_STAT_BITS 0 21 < 2 ^ 20) : (s.ev src ch detail aux).rd Reg.EVT_STAT_BITS 0 21 < 2 ^ 20 := by
  by_cases hword : src / 32 = 21
  · have hbit : 2 ^ (src % 32) < 2 ^ 20 := Nat.pow_lt_pow_right (by decide) (by omega)
    rw [← hword] at h ⊢
    rw [rd_ev_stat_same]
    exact Nat.or_lt_two_pow ((Nat.mod_le _ _).trans_lt h) hbit
  · rwa [rd_ev_stat_other s ch detail aux hsrc (by decide) (Ne.symm hword)]

/-! ### The processing of a command's events -/

@[simp] theorem lastSrc_evt (s : State) (r : Rec) : (s.lastSrc r).evt = s.evt := rfl

theorem rd_lastSrc_src (s : State) (r : Rec) : (s.lastSrc r).rd Reg.EVT_LASTSRC_SRC = r.src % 2 ^ 10 := by
  rw [State.lastSrc, rd_wr_field _ _ _ _ _ _ (by decide), rd_wr_same]
  rfl

/-- Processing an occurrence counts nothing: the counter rose when it occurred. -/
theorem evPost_occ (s : State) (r : Rec) : (s.evPost r).evt.occ = s.evt.occ := by
  rw [(evPost_posted s r).occ, lastSrc_evt]

@[simp] theorem evFlush_occ (s : State) : s.evFlush.evt.occ = s.evt.occ := by
  have hposts (l : List Rec) : ∀ t : State, (l.foldl State.evPost t).evt.occ = t.evt.occ := by
    induction l with
    | nil => exact fun _ => rfl
    | cons r l ih => exact fun t => (ih _).trans (evPost_occ t r)
  exact hposts _ _

/-- Where one masked occurrence waits, processing only names it as the last source. -/
theorem evFlush_masked {s : State} {r : Rec} (hburst : s.evt.burst = [r])
    (hmask : (s.rd Reg.EVT_MASK_BITS 0 (r.src / 32)).testBit (r.src % 32) = true) :
    s.evFlush = ({ s with evt := { s.evt with burst := [] } } : State).lastSrc r := by
  unfold State.evFlush
  rw [hburst, List.foldl_cons, List.foldl_nil]
  exact evPost_masked _ r hmask

/-- Where nothing waited, an occurrence alone waits. -/
theorem ev_burst_of_nil {s : State} (src ch detail aux : Nat) (h : s.evt.burst = []) :
    ∃ r, (s.ev src ch detail aux).evt.burst = [r] ∧ r.src = src := by
  simp only [State.ev, wr_evt, h]
  exact ⟨_, rfl, rfl⟩

/-- The processing of a masked occurrence sends and queues nothing; LASTSRC names its source. -/
theorem ev_evFlush_masked {s : State} {src : Nat} (ch detail aux : Nat) (hsrc : src < 692) (hburst : s.evt.burst = [])
    (hmask : (s.rd Reg.EVT_MASK_BITS 0 (src / 32)).testBit (src % 32) = true) :
    let t := s.ev src ch detail aux
    t.evFlush.out = s.out ∧ t.evFlush.evt.backlog = s.evt.backlog ∧ t.evFlush.evt.ao = s.evt.ao ∧
      t.evFlush.evt.lastMsg = s.evt.lastMsg ∧ t.evFlush.rd Reg.EVT_LASTSRC_SRC = src := by
  obtain ⟨r, hone, rfl⟩ := ev_burst_of_nil src ch detail aux hburst
  rw [← rd_ev s r.src ch detail aux Reg.EVT_MASK_BITS _ _ (by decide)] at hmask
  dsimp only
  rw [evFlush_masked hone hmask, rd_lastSrc_src]
  exact ⟨rfl, rfl, rfl, rfl, Nat.mod_eq_of_lt (by omega)⟩

/-- Settles O41: the status word and the counter change with the occurrence itself, without a look at the mask; the
processing at the end of the command changes neither, and for a masked occurrence comes to LASTSRC alone. -/
theorem eventOccurrencesSetStatusAndCount : Obligations.EventOccurrencesSetStatusAndCount := by
  refine ⟨fun s src ch detail aux hsrc => ⟨?statSet, ?statOther, ?counted, ?othersCount, ?masked, ?reserved⟩, fun s w => ⟨?occ, ?stat⟩⟩
  case statSet => exact rd_ev_stat_same s src ch detail aux
  case statOther => exact fun w hw hne => rd_ev_stat_other s ch detail aux hsrc hw hne
  case counted => rw [ev_occ, tget_tset_same]
  case othersCount => exact fun x hx => by rw [ev_occ, tget_tset_other _ _ _ _ hx]
  case masked => exact ev_evFlush_masked ch detail aux hsrc
  case reserved => exact ev_stat_keeps_reserved s ch detail aux hsrc
  case occ => exact evFlush_occ s
  case stat => exact rd_evFlush s _ _ _ (by decide)

end Sys2Proof.Machine
end

section
/-! PROOFS. The end of a command keeps what neither its events nor its shown registers touch. -/

namespace Sys2Proof.Machine

/-- A field that the end of a command does not touch. -/
theorem rd_evFlush_settle (s : State) (r : Row) (i j : Nat) (h : r.id ∉ flushIds ++ settledIds) :
    s.evFlush.settle.rd r i j = s.rd r i j := by
  rw [List.mem_append, not_or] at h
  obtain ⟨hflush, hsettle⟩ := h
  rw [rd_settle _ _ _ _ hsettle, rd_evFlush _ _ _ _ hflush]

end Sys2Proof.Machine
end

section
/-! PROOFS. The lock of the TST block opens only under its conditions (R493). -/

namespace Sys2Proof.Machine

theorem exec_tstLockWrite (s : State) (key : Nat) (opn : Bool) :
    exec (.tstLockWrite key opn) s = .next ((s.hostAccess Reg.TST_LOCK_OPEN).tstLock key opn).evFlush.settle := rfl

theorem fclk_hostAccess (s : State) (r : Row) (i j : Nat) : (s.hostAccess r i j).fclk = s.fclk := by
  simp only [State.fclk, hostAccess_rd]

/-! ### Why an opening write is denied -/

/-- The conditions under which no reason denies an opening write. -/
theorem tstDeny_eq_none_iff (s : State) (key : Nat) : s.tstDeny key = none ↔
    key % 65536 = 0x7E57 ∧ s.rd Reg.PCR_LCSTAT_STATE ≠ 2 ∧ s.rd Reg.PCR_LCSTAT_ON_AIR_LOCK ≠ 1 ∧ (s.dev = 1 ∨ s.dev = 3) := by
  unfold State.tstDeny
  split_ifs with hlife hair hkey
  · exact iff_of_false nofun fun ⟨_, h, _⟩ => h hlife
  · refine iff_of_false nofun fun ⟨_, _, hopen, hdev⟩ => ?_
    omega
  · exact iff_of_false nofun fun ⟨h, _⟩ => hkey h
  · refine iff_of_true rfl ⟨not_not.mp hkey, hlife, ?_⟩
    omega

theorem tstDeny_reason {s : State} {key r : Nat} (h : s.tstDeny key = some r) : r = 1 ∨ r = 2 ∨ r = 3 := by
  unfold State.tstDeny at h
  split_ifs at h <;> simp_all

theorem tstDeny_hostAccess (s : State) (r : Row) (i j key : Nat) : (s.hostAccess r i j).tstDeny key = s.tstDeny key := by
  obtain ⟨_, _, e, -⟩ := touch_eq s 0 (regAddr r i j)
  rw [State.hostAccess, e]
  rfl

/-! ### An opening write while the block runs -/

/-- A denied write records its reason, counts and is reported, and does nothing else. -/
theorem tstLock_denied {s : State} {key r : Nat} (hfclk : s.fclk = true) (h : s.tstDeny key = some r) :
    s.tstLock key true = ((s.wr Reg.TST_LOCKSTAT_REASON r).incSat Reg.TST_LOCKSTAT_DENIED).ev (evTst 2) := by
  simp [State.tstLock, hfclk, h]

theorem rd_tstShow (s : State) {r : Row} (i j : Nat) (h : r.id ≠ Reg.TST_ACTIVE_BITS.id) : s.tstShow.rd r i j = s.rd r i j :=
  rd_wr_field _ _ _ _ _ _ h

/-- A write that is not denied leaves the lock open, whether it was open before or not. -/
theorem rd_tstLock_open {s : State} {key : Nat} (hfclk : s.fclk = true) (h : s.tstDeny key = none) :
    (s.tstLock key true).rd Reg.TST_LOCKSTAT_OPEN = 1 := by
  by_cases hopen : s.rd Reg.TST_LOCKSTAT_OPEN = 1
  · simp [State.tstLock, hfclk, h, hopen]
  · have hopens : s.tstLock key true = (((s.wr Reg.TST_LOCKSTAT_OPEN 1).wr Reg.TST_LOCK_OPEN 1).tstShow).ev (evTst 0) := by
      simp [State.tstLock, hfclk, h, hopen]
    rw [hopens, rd_ev _ _ _ _ _ _ _ _ (by decide), rd_tstShow _ _ _ (by decide), rd_wr_field _ _ _ _ _ _ (by decide), rd_wr_same]
    rfl

/-! ### What the denied write leaves -/

section
variable {s : State} {key r : Nat} (hfclk : s.fclk = true) (h : s.tstDeny key = some r)
include hfclk h

theorem rd_tstLock_denied_open : (s.tstLock key true).rd Reg.TST_LOCKSTAT_OPEN = s.rd Reg.TST_LOCKSTAT_OPEN := by
  rw [tstLock_denied hfclk h, rd_ev _ _ _ _ _ _ _ _ (by decide), rd_incSat_field _ _ _ _ _ _ (by decide),
    rd_wr_field _ _ _ _ _ _ (by decide)]

theorem rd_tstLock_denied_reason : (s.tstLock key true).rd Reg.TST_LOCKSTAT_REASON = r := by
  have hfits : r < 2 ^ Reg.TST_LOCKSTAT_REASON.w := by
    have hreason := tstDeny_reason h
    have hwidth : 2 ^ Reg.TST_LOCKSTAT_REASON.w = 4 := rfl
    omega
  rw [tstLock_denied hfclk h, rd_ev _ _ _ _ _ _ _ _ (by decide), rd_incSat_field _ _ _ _ _ _ (by decide), rd_wr_same,
    Nat.mod_eq_of_lt hfits]

theorem rd_tstLock_denied_count : (s.tstLock key true).rd Reg.TST_LOCKSTAT_DENIED =
    min (s.rd Reg.TST_LOCKSTAT_DENIED + 1) (2 ^ Reg.TST_LOCKSTAT_DENIED.w - 1) := by
  rw [tstLock_denied hfclk h, rd_ev _ _ _ _ _ _ _ _ (by decide), rd_incSat_same, rd_wr_field _ _ _ _ _ _ (by decide)]

theorem occ_tstLock_denied : tget 0 (s.tstLock key true).evt.occ (evTst 2) = min (tget 0 s.evt.occ (evTst 2) + 1) (2 ^ 32 - 1) := by
  rw [tstLock_denied hfclk h, ev_occ, tget_tset_same]
  rfl

end

/-- Settles O43: the denial has a reason exactly where a condition fails, and the end of the command touches neither LOCKSTAT
nor the counter of EV_TST_DENIED. -/
theorem testLockOpensOnlyUnderItsConditions : Obligations.TestLockOpensOnlyUnderItsConditions := by
  intro s key hfclk hkey may
  have hmay : (s.hostAccess Reg.TST_LOCK_OPEN).tstDeny key = none ↔ may := by
    rw [tstDeny_hostAccess, tstDeny_eq_none_iff, Nat.mod_eq_of_lt (show key < 65536 from hkey)]
  have hrun : (s.hostAccess Reg.TST_LOCK_OPEN).fclk = true := (fclk_hostAccess ..).trans hfclk
  refine ⟨_, exec_tstLockWrite s key true, fun h => ?opened, fun h => ?denied⟩
  case opened => rw [rd_evFlush_settle _ _ _ _ (by decide), rd_tstLock_open hrun (hmay.mpr h)]
  case denied =>
    obtain ⟨r, hr⟩ := Option.ne_none_iff_exists'.mp (mt hmay.mp h)
    have hreason := tstDeny_reason hr
    rw [rd_evFlush_settle _ _ _ _ (by decide), rd_evFlush_settle _ _ _ _ (by decide), rd_evFlush_settle _ _ _ _ (by decide),
      settle_evt, evFlush_occ, rd_tstLock_denied_open hrun hr, rd_tstLock_denied_reason hrun hr, rd_tstLock_denied_count hrun hr,
      occ_tstLock_denied hrun hr, hostAccess_rd, hostAccess_rd, hostAccess_evt]
    exact ⟨rfl, by omega, rfl, rfl⟩

end Sys2Proof.Machine
end

section
/-! PROOFS. The debug access port is served only under its grant, and the boot ROM is read only (R411, R417, R495). -/

namespace Sys2Proof.Machine

/-! ### An error response of kind DEFAULT, SIZE or READONLY -/

/-- The record of an error response, as `errResp` writes it where VALID is 0 (R418). -/
def State.errRecord (s : State) (kind master : Nat) (write : Bool) (addr : Nat) : State :=
  ((((s.wr Reg.MTX_ERRSTAT_VALID 1).wr Reg.MTX_ERRSTAT_MASTER master).wr Reg.MTX_ERRSTAT_KIND kind).wr Reg.MTX_ERRSTAT_WRITE
    (bit write)).wr Reg.MTX_ERRADDR_ADDR addr

@[simp] theorem errRecord_mem (s : State) (kind master : Nat) (write : Bool) (addr : Nat) :
    (s.errRecord kind master write addr).mem = s.mem := rfl

/-- The record is no part of the counter. -/
@[simp] theorem rd_errRecord_count (s : State) (kind master : Nat) (write : Bool) (addr : Nat) :
    (s.errRecord kind master write addr).rd Reg.MTX_ERRCNT_DEFAULT = s.rd Reg.MTX_ERRCNT_DEFAULT := by
  rw [State.errRecord, rd_wr_field _ _ _ _ _ _ (by decide), rd_wr_field _ _ _ _ _ _ (by decide), rd_wr_field _ _ _ _ _ _ (by decide),
    rd_wr_field _ _ _ _ _ _ (by decide), rd_wr_field _ _ _ _ _ _ (by decide)]

theorem rd_errRecord_kind (s : State) (kind master : Nat) (write : Bool) (addr : Nat) :
    (s.errRecord kind master write addr).rd Reg.MTX_ERRSTAT_KIND = kind % 2 ^ Reg.MTX_ERRSTAT_KIND.w := by
  rw [State.errRecord, rd_wr_field _ _ _ _ _ _ (by decide), rd_wr_field _ _ _ _ _ _ (by decide), rd_wr_same]

theorem rd_errRecord_master (s : State) (kind master : Nat) (write : Bool) (addr : Nat) :
    (s.errRecord kind master write addr).rd Reg.MTX_ERRSTAT_MASTER = master % 2 ^ Reg.MTX_ERRSTAT_MASTER.w := by
  rw [State.errRecord, rd_wr_field _ _ _ _ _ _ (by decide), rd_wr_field _ _ _ _ _ _ (by decide), rd_wr_field _ _ _ _ _ _ (by decide),
    rd_wr_same]

theorem rd_errRecord_addr (s : State) (kind master : Nat) (write : Bool) (addr : Nat) :
    (s.errRecord kind master write addr).rd Reg.MTX_ERRADDR_ADDR = addr % 2 ^ Reg.MTX_ERRADDR_ADDR.w := rd_wr_same ..

section
variable (s : State) {kind : Nat} (master : Nat) (write : Bool) (addr : Nat) (h2 : kind ≠ 2) (h3 : kind ≠ 3)
include h2 h3

/-- Kinds 2 and 3 have a counter and a source of their own; every other kind has those of DEFAULT (R417, R423). -/
theorem errResp_of_default_counter : s.errResp kind master write addr =
    (if s.rd Reg.MTX_ERRSTAT_VALID = 1 then s.incSat Reg.MTX_ERRCNT_DEFAULT
      else (s.incSat Reg.MTX_ERRCNT_DEFAULT).errRecord kind master write addr).ev (evMtx 0) := by
  have hvalid : (s.incSat Reg.MTX_ERRCNT_DEFAULT).rd Reg.MTX_ERRSTAT_VALID = s.rd Reg.MTX_ERRSTAT_VALID :=
    rd_incSat_field _ _ _ _ _ _ (by decide)
  simp only [State.errResp, State.errRecord, h2, h3, if_false, hvalid]

theorem errResp_mem : (s.errResp kind master write addr).mem = s.mem := by
  rw [errResp_of_default_counter s master write addr h2 h3, ev_mem]
  split
  · rfl
  · rw [errRecord_mem]; rfl

theorem rd_errResp_count : (s.errResp kind master write addr).rd Reg.MTX_ERRCNT_DEFAULT =
    min (s.rd Reg.MTX_ERRCNT_DEFAULT + 1) (2 ^ Reg.MTX_ERRCNT_DEFAULT.w - 1) := by
  rw [errResp_of_default_counter s master write addr h2 h3, rd_ev _ _ _ _ _ _ _ _ (by decide)]
  split
  · exact rd_incSat_same ..
  · rw [rd_errRecord_count, rd_incSat_same]

/-- A response that finds VALID at 0 is recorded (R418). -/
theorem rd_errResp_record (hvalid : s.rd Reg.MTX_ERRSTAT_VALID ≠ 1) :
    (s.errResp kind master write addr).rd Reg.MTX_ERRSTAT_KIND = kind % 2 ^ Reg.MTX_ERRSTAT_KIND.w ∧
      (s.errResp kind master write addr).rd Reg.MTX_ERRSTAT_MASTER = master % 2 ^ Reg.MTX_ERRSTAT_MASTER.w ∧
      (s.errResp kind master write addr).rd Reg.MTX_ERRADDR_ADDR = addr % 2 ^ Reg.MTX_ERRADDR_ADDR.w := by
  rw [errResp_of_default_counter s master write addr h2 h3, if_neg hvalid, rd_ev _ _ _ _ _ _ _ _ (by decide),
    rd_ev _ _ _ _ _ _ _ _ (by decide), rd_ev _ _ _ _ _ _ _ _ (by decide)]
  exact ⟨rd_errRecord_kind .., rd_errRecord_master .., rd_errRecord_addr ..⟩

end

/-! ### A request that the port does not serve -/

/-- A request of the debug port that fails: an error response, and ones for a read of `len` bytes. -/
def State.debugFail (s : State) (kind a len : Nat) (write : Bool) : State :=
  if write then s.errResp kind 14 write a else (s.errResp kind 14 write a).emit (.regData 14 (256 ^ len - 1))

theorem debugFail_mem (s : State) (kind a len : Nat) (write : Bool) :
    (s.debugFail kind a len write).mem = (s.errResp kind 14 write a).mem := by
  unfold State.debugFail
  split <;> rfl

/-- The answer to a read adds an output, and no register shows it. -/
theorem rd_debugFail (s : State) (kind a len : Nat) (write : Bool) (r : Row) (i j : Nat) :
    (s.debugFail kind a len write).rd r i j = (s.errResp kind 14 write a).rd r i j := by
  unfold State.debugFail
  split <;> rfl

/-- A failed request, at the end of its command, has changed no memory, is counted, and is recorded where no record stood. -/
theorem debugFail_end (s : State) {kind a : Nat} (len : Nat) (write : Bool) (hkind : kind = 0 ∨ kind = 4) (ha : a < 2 ^ 40) :
    let t := (s.debugFail kind a len write).evFlush.settle
    t.mem = s.mem ∧
      t.rd Reg.MTX_ERRCNT_DEFAULT = min (s.rd Reg.MTX_ERRCNT_DEFAULT + 1) (2 ^ Reg.MTX_ERRCNT_DEFAULT.w - 1) ∧
      (s.rd Reg.MTX_ERRSTAT_VALID ≠ 1 →
        t.rd Reg.MTX_ERRSTAT_KIND = kind ∧ t.rd Reg.MTX_ERRSTAT_MASTER = 14 ∧ t.rd Reg.MTX_ERRADDR_ADDR = a) := by
  have h2 : kind ≠ 2 := by omega
  have h3 : kind ≠ 3 := by omega
  have hfits : kind < 2 ^ Reg.MTX_ERRSTAT_KIND.w := by rcases hkind with rfl | rfl <;> decide
  refine ⟨?memory, ?count, fun hvalid => ?record⟩
  case memory => rw [settle_mem, evFlush_mem, debugFail_mem, errResp_mem s 14 write a h2 h3]
  case count => rw [rd_evFlush_settle _ _ _ _ (by decide), rd_debugFail, rd_errResp_count s 14 write a h2 h3]
  case record =>
    obtain ⟨hk, hm, haddr⟩ := rd_errResp_record s 14 write a h2 h3 hvalid
    rw [rd_evFlush_settle _ _ _ _ (by decide), rd_evFlush_settle _ _ _ _ (by decide), rd_evFlush_settle _ _ _ _ (by decide),
      rd_debugFail, rd_debugFail, rd_debugFail, hk, hm, haddr]
    exact ⟨Nat.mod_eq_of_lt hfits, rfl, Nat.mod_eq_of_lt ha⟩

/-! ### What a request comes to -/

theorem dapOpen_iff (s : State) : s.dapOpen = true ↔
    s.rd Reg.TST_LOCKSTAT_OPEN = 1 ∧ s.rd Reg.TST_DAP_EN = 1 ∧ (s.rd Reg.PCR_LCSTAT_STATE = 0 ∨ s.rd Reg.PCR_LCSTAT_STATE = 3) := by
  simp [State.dapOpen, and_assoc]

/-- The number of bytes of a request: at most one burst. -/
def debugLen (len : Nat) (data : Option Bytes) : Nat := min 1024 (match data with | some d => d.length | none => len)

/-- Outside the grant. -/
theorem exec_debugAccessRequest_closed {s : State} (a len : Nat) (data : Option Bytes) (hfclk : s.fclk = true) (hdap : s.dapOpen = false) :
    exec (.debugAccessRequest a len data) s =
      .next (s.debugFail 0 (a % 2 ^ 40) (debugLen len data) data.isSome).evFlush.settle := by
  change execDebugAccessRequest a len data s = _
  simp only [execDebugAccessRequest, finish, hfclk, hdap, Bool.not_true, Bool.not_false, Bool.false_eq_true, if_false, if_true]
  rfl

/-- The addresses of the boot ROM region (R410). -/
theorem region_of_bootRom (s : State) {a : Nat} (hlo : 0x10000000 ≤ a) (hhi : a < 0x10040000) : s.region a = (1, a - 0x10000000) := by
  unfold State.region
  rw [if_neg (by omega), if_pos ⟨hlo, hhi⟩]

section
variable {s : State} {a : Nat} (hfclk : s.fclk = true) (hdap : s.dapOpen = true) (hlo : 0x10000000 ≤ a)
include hfclk hdap hlo

/-- A read inside the boot ROM region, under the grant. -/
theorem exec_debugAccessRequest_romRead {len : Nat} (hhi : a + len ≤ 0x10040000) (hpos : 0 < len) (hburst : len ≤ 1024) :
    exec (.debugAccessRequest a len none) s = .next (s.emit (.regData 14 (leNat (s.debugBytes 1 (a - 0x10000000) len)))).evFlush.settle := by
  have haddr : a % 2 ^ 40 = a := Nat.mod_eq_of_lt (by omega)
  have hfirst := region_of_bootRom s hlo (by omega)
  have hlast := region_of_bootRom s (a := a + len - 1) (by omega) (by omega)
  change execDebugAccessRequest a len none s = _
  simp [-Nat.reducePow, execDebugAccessRequest, finish, hfclk, hdap, haddr, hfirst, hlast, Nat.min_eq_right hburst]

/-- A write inside the boot ROM region, under the grant. -/
theorem exec_debugAccessRequest_romWrite (len : Nat) {d : Bytes} (hhi : a + d.length ≤ 0x10040000) (hpos : 0 < d.length)
    (hburst : d.length ≤ 1024) :
    exec (.debugAccessRequest a len (some d)) s = .next (s.debugFail 4 a d.length true).evFlush.settle := by
  have haddr : a % 2 ^ 40 = a := Nat.mod_eq_of_lt (by omega)
  have hfirst := region_of_bootRom s hlo (by omega)
  have hlast := region_of_bootRom s (a := a + d.length - 1) (by omega) (by omega)
  change execDebugAccessRequest a len (some d) s = _
  simp [-Nat.reducePow, execDebugAccessRequest, finish, State.debugFail, hfclk, hdap, haddr, hfirst, hlast, Nat.min_eq_right hburst]

end

/-- Settles O59: outside the grant the request fails before its address is looked at; inside it the address lies in the region
of the boot ROM, where a read is served and a write fails. -/
theorem debugPortObeysItsGrant : Obligations.DebugPortObeysItsGrant := by
  refine ⟨fun s a len data hfclk hclosed => ?closed, fun s a len hfclk hopen hen hlife hlo hhi hpos hburst => ?romRead,
    fun s a len d hfclk hopen hen hlife hlo hhi hpos hburst => ?romWrite⟩
  case closed =>
    have hdap : s.dapOpen = false := Bool.eq_false_iff.mpr (mt (dapOpen_iff s).mp hclosed)
    exact ⟨_, exec_debugAccessRequest_closed a len data hfclk hdap,
      debugFail_end s _ _ (.inl rfl) (Nat.mod_lt _ (by decide))⟩
  case romRead => exact exec_debugAccessRequest_romRead hfclk ((dapOpen_iff s).mpr ⟨hopen, hen, hlife⟩) hlo hhi hpos hburst
  case romWrite =>
    exact ⟨_, exec_debugAccessRequest_romWrite hfclk ((dapOpen_iff s).mpr ⟨hopen, hen, hlife⟩) hlo len hhi hpos hburst,
      debugFail_end s _ _ (.inr rfl) (by omega)⟩

end Sys2Proof.Machine
end

section
/-! PROOFS. A step runs one command, every command ends in a next state, and that state shows what its registers show. -/

namespace Sys2Proof.Machine

/-! ### The registers that show other state -/

/-- The end of a command changes nothing but the registers that show other state. -/
theorem settle_shows (s : State) : s.settle.tstBits = s.tstBits ∧ s.settle.ringFull = s.ringFull :=
  ⟨tstBits_congr (settle_dmc s) (settle_tst s) (rd_settle s), ringFull_congr (settle_hif s) (rd_settle s)⟩

/-- The ring's state does not depend on TST.ACTIVE. -/
theorem ringFull_wr_active (s : State) (v : Nat) : (s.wr Reg.TST_ACTIVE_BITS v).ringFull = s.ringFull := by
  have hrd : (s.wr Reg.TST_ACTIVE_BITS v).rd Reg.HIF_QSTAT_ENABLED 0 66 = s.rd Reg.HIF_QSTAT_ENABLED 0 66 :=
    rd_wr_field _ _ _ _ _ _ (by decide)
  unfold State.ringFull
  rw [hrd]
  rfl

/-- `settle` writes each of the six fields from parts of the state that it leaves alone. -/
theorem settle_settled (s : State) : s.settle.Settled := by
  obtain ⟨htst, hfull⟩ := settle_shows s
  have hbit (b : Bool) : bit b % 2 ^ 1 = bit b := by cases b <;> rfl
  constructor
  case tst =>
    rw [htst]
    unfold State.settle
    rw [rd_wr_field _ _ _ _ _ _ (by decide), rd_wr_field _ _ _ _ _ _ (by decide), rd_wr_field _ _ _ _ _ _ (by decide),
      rd_wr_field _ _ _ _ _ _ (by decide), rd_wr_field _ _ _ _ _ _ (by decide), rd_wr_same]
  case backlog =>
    unfold State.backlogged
    rw [settle_evt]
    unfold State.settle
    rw [rd_wr_field _ _ _ _ _ _ (by decide), rd_wr_field _ _ _ _ _ _ (by decide), rd_wr_field _ _ _ _ _ _ (by decide),
      rd_wr_field _ _ _ _ _ _ (by decide), rd_wr_same]
    rfl
  case full =>
    rw [hfull]
    unfold State.settle
    rw [rd_wr_field _ _ _ _ _ _ (by decide), rd_wr_field _ _ _ _ _ _ (by decide), rd_wr_field _ _ _ _ _ _ (by decide), rd_wr_same,
      ringFull_wr_active]
    exact hbit _
  case trace =>
    rw [settle_spd]
    unfold State.settle
    rw [rd_wr_field _ _ _ _ _ _ (by decide), rd_wr_field _ _ _ _ _ _ (by decide), rd_wr_same]
    rfl
  case anyEm =>
    unfold State.anyEmSet
    rw [settle_chans]
    unfold State.settle
    rw [rd_wr_field _ _ _ _ _ _ (by decide), rd_wr_same]
    exact hbit _
  case blocks =>
    rw [settle_mgt]
    unfold State.settle
    rw [rd_wr_same]
    rfl

/-! ### The step -/

/-- Settles O1. -/
theorem stepRunsTheFrontCommand : Obligations.StepRunsTheFrontCommand := step_cons

/-- Settles O2. -/
theorem emptyQueueIdles : Obligations.EmptyQueueIdles := step_nil

/-- Settles O3: every meaning ends in `finish`. -/
theorem noCommandStopsTheBlock : Obligations.NoCommandStopsTheBlock := fun i s =>
  let ⟨u, h⟩ := exec_finish i s
  ⟨u.evFlush.settle, h⟩

/-- Settles O4: an idle step changes nothing, and a command's last act is `settle`. -/
theorem everyStepKeepsShownRegistersTrue : Obligations.EveryStepKeepsShownRegistersTrue := by
  intro s t hs hstep
  cases hp : s.pending with
  | nil =>
    rw [step_nil s hp] at hstep
    cases hstep
    exact hs
  | cons c rest =>
    obtain ⟨u, hu⟩ := exec_finish c { s with pending := rest }
    rw [step_cons s c rest hp, hu] at hstep
    cases hstep
    exact settle_settled u.evFlush

/-- Settles O5: nothing is shown, and each of the six fields resets to 0. -/
theorem resetStateIsSettled : Obligations.ResetStateIsSettled := by
  constructor <;> decide +kernel

end Sys2Proof.Machine
end

section
/-! PROOFS. A sweep refreshes every unit in exactly one of its pictures (R120, R121). -/

namespace Sys2Proof.Machine

/-- The number of a CTU column or row among the refresh units. -/
def Sweep.unitNo (w : Sweep) (u : Nat) : Nat := if w.rowMode then 2 * u + 1 else 2 * u

theorem unitNo_inj {w : Sweep} {u v : Nat} (h : w.unitNo u = w.unitNo v) : u = v := by
  unfold Sweep.unitNo at h
  split_ifs at h <;> omega

/-- Picture `f` of a sweep refreshes the `k` units from `k` times its distance from the first picture on. -/
theorem unitNo_mem_unitsIn_iff {w : Sweep} (hk : 0 < w.k) (u f : Nat) :
    w.unitNo u ∈ w.unitsIn f ↔ u < w.units ∧ u / w.k = f - w.start := by
  have hblock : (∃ i < w.k, (f - w.start) * w.k + i = u) ↔ u / w.k = f - w.start := by
    constructor
    · rintro ⟨i, hi, rfl⟩
      rw [Nat.add_comm, Nat.add_mul_div_right _ _ hk, Nat.div_eq_of_lt hi, Nat.zero_add]
    · intro h
      exact ⟨u % w.k, Nat.mod_lt _ hk, by rw [← h]; exact Nat.div_add_mod' u w.k⟩
  have hmem : w.unitNo u ∈ w.unitsIn f ↔ u < w.units ∧ ∃ i < w.k, (f - w.start) * w.k + i = u := by
    change w.unitNo u ∈ List.map w.unitNo _ ↔ _
    rw [List.mem_map]
    simp only [List.mem_filter, List.mem_map, List.mem_range, decide_eq_true_eq]
    constructor
    · rintro ⟨v, ⟨hv, hlt⟩, heq⟩
      rw [← unitNo_inj heq]
      exact ⟨hlt, hv⟩
    · rintro ⟨hlt, hu⟩
      exact ⟨u, ⟨hu, hlt⟩, rfl⟩
  rw [hmem, hblock]

/-- After the last unit a picture refreshes none. -/
theorem unitsIn_eq_nil {w : Sweep} {f : Nat} (h : w.units ≤ (f - w.start) * w.k) : w.unitsIn f = [] := by
  unfold Sweep.unitsIn
  rw [List.map_eq_nil_iff, List.filter_eq_nil_iff]
  intro v hv
  obtain ⟨i, -, rfl⟩ := List.mem_map.mp hv
  simp only [decide_eq_true_eq]
  omega

/-- A sweep that begins takes `cdiv units P` units a picture, and as many pictures as these make. -/
theorem sweepBegin_newest (st : RcSt) (rows cols frame : Nat) :
    let units := if st.set.mode = 1 then rows else cols
    (st.sweepBegin rows cols frame).newest = some { start := frame, k := cdiv units st.set.period, units, len := cdiv units (cdiv units st.set.period),
                                                    rowMode := st.set.mode = 1, conv := st.reqConv } := rfl

/-- Pictures of `cdiv a b` units make up `a` units within `b` pictures. -/
theorem cdiv_cdiv_le {a b : Nat} (ha : 0 < a) (hb : 0 < b) : 0 < cdiv a b ∧ cdiv a (cdiv a b) ≤ b := by
  obtain ⟨hle, -⟩ := cdiv_bounds a hb
  have hpos : 0 < cdiv a b := Nat.pos_of_mul_pos_left (ha.trans_le hle)
  obtain ⟨-, hlt⟩ := cdiv_bounds a hpos
  have : cdiv a b * cdiv a (cdiv a b) < cdiv a b * (b + 1) := by
    rw [Nat.mul_succ, Nat.mul_comm _ b]
    omega
  exact ⟨hpos, Nat.le_of_lt_succ (Nat.lt_of_mul_lt_mul_left this)⟩

/-- Settles O49: unit `u` falls in picture `u / k` of the sweep, and in no other. -/
theorem sweepRefreshesEveryUnitOnce : Obligations.SweepRefreshesEveryUnitOnce := by
  intro st rows cols frame w hperiod hrows hcols hw
  rw [sweepBegin_newest, Option.some_inj] at hw
  have hunits : 0 < (if st.set.mode = 1 then rows else cols) := by split <;> assumption
  generalize hn : (if st.set.mode = 1 then rows else cols) = n at hw hunits ⊢
  obtain ⟨hk, hlen⟩ := cdiv_cdiv_le hunits hperiod
  obtain ⟨hcover, -⟩ := cdiv_bounds n hk
  subst hw
  refine ⟨hlen, fun u hu => ⟨frame + u / cdiv n st.set.period, Nat.le_add_right _ _, ?inside, ?refreshed, ?once⟩, fun g hg => ?after⟩
  case inside => exact Nat.add_lt_add_left (Nat.div_lt_of_lt_mul (hu.trans_le hcover)) frame
  case refreshed => exact (unitNo_mem_unitsIn_iff hk u _).mpr ⟨hu, (Nat.add_sub_cancel_left ..).symm⟩
  case once =>
    intro g hg hmem
    obtain ⟨-, hdiv⟩ := (unitNo_mem_unitsIn_iff hk u g).mp hmem
    change u / cdiv n st.set.period = g - frame at hdiv
    omega
  case after =>
    refine unitsIn_eq_nil (hcover.trans ?_)
    change frame + cdiv n (cdiv n st.set.period) ≤ g at hg
    rw [Nat.mul_comm]
    exact Nat.mul_le_mul_right _ (Nat.le_sub_of_add_le' hg)

end Sys2Proof.Machine
end

section
/-! PROOFS. A clear of a status bit or an occurrence counter yields to an occurrence in its cycle (R444, R445). -/

namespace Sys2Proof.Machine

/-! ### Status bits after occurrences -/

theorem lt_of_evNamed {src : Nat} (h : evNamed src = true) : src < 692 := by
  unfold evNamed at h
  split_ifs at h
  · omega
  · omega
  · omega
  · simp only [Bool.or_eq_true, Bool.and_eq_true, decide_eq_true_eq] at h
    simp only [evCmp, evCst, evSpd, evTim, evPair, evPcr, evMgt, evHif, evPkt, evInp] at h
    omega

/-- An occurrence sets the bit of its source, and no other. -/
theorem testBit_stat_ev (s : State) {src w b : Nat} (ch detail aux : Nat) (hsrc : src < 692) (hw : w < 22) (hb : b < 32) :
    ((s.ev src ch detail aux).rd Reg.EVT_STAT_BITS 0 w).testBit b =
      (decide (src = 32 * w + b) || (s.rd Reg.EVT_STAT_BITS 0 w).testBit b) := by
  by_cases hword : w = src / 32
  · subst hword
    have hbit : decide (src % 32 = b) = decide (src = 32 * (src / 32) + b) := decide_eq_decide.mpr (by omega)
    rw [rd_ev_stat_same, Nat.testBit_or, Nat.testBit_mod_two_pow, Nat.testBit_two_pow, hbit, decide_eq_true hb, Bool.true_and,
      Bool.or_comm]
  · have hother : ¬ src = 32 * w + b := by omega
    rw [rd_ev_stat_other s ch detail aux hsrc hw hword, decide_eq_false hother, Bool.false_or]

theorem evAll_nil (s : State) : s.evAll [] = s := rfl

/-- The sources of a list occur one after another, the reserved ones not at all. -/
theorem evAll_cons (s : State) (e : Nat × Nat × Nat × Nat) (l : List (Nat × Nat × Nat × Nat)) :
    s.evAll (e :: l) = (if evNamed e.1 then s.ev e.1 e.2.1 e.2.2.1 e.2.2.2 else s).evAll l := by
  unfold State.evAll
  split <;> simp [*]

/-- The bits that a list of occurrences leaves set. -/
theorem testBit_stat_evAll (l : List (Nat × Nat × Nat × Nat)) {w b : Nat} (hw : w < 22) (hb : b < 32) : ∀ s : State,
    ((s.evAll l).rd Reg.EVT_STAT_BITS 0 w).testBit b =
      ((l.any fun e => evNamed e.1 && e.1 = 32 * w + b) || (s.rd Reg.EVT_STAT_BITS 0 w).testBit b) := by
  induction l with
  | nil => exact fun s => by simp [evAll_nil]
  | cons e l ih =>
    intro s
    rw [evAll_cons, ih, List.any_cons]
    cases hnamed : evNamed e.1 with
    | false => simp
    | true =>
      rw [if_pos rfl, testBit_stat_ev s _ _ _ (lt_of_evNamed hnamed) hw hb, Bool.true_and]
      ac_rfl

/-- A word none of whose sources occurs. -/
theorem rd_stat_evAll_other {w : Nat} (hw : w < 22) (l : List (Nat × Nat × Nat × Nat)) : ∀ s : State, (∀ e ∈ l, e.1 / 32 ≠ w) →
    (s.evAll l).rd Reg.EVT_STAT_BITS 0 w = s.rd Reg.EVT_STAT_BITS 0 w := by
  induction l with
  | nil => exact fun s _ => rfl
  | cons e l ih =>
    intro s h
    obtain ⟨he, hl⟩ := List.forall_mem_cons.mp h
    rw [evAll_cons, ih _ hl]
    split
    · next hnamed => exact rd_ev_stat_other s _ _ _ (lt_of_evNamed hnamed) hw he.symm
    · rfl

/-- The sources of one word that occur are all that a look at that word's bits needs. -/
theorem any_filter_word (l : List (Nat × Nat × Nat × Nat)) {w b : Nat} (hb : b < 32) :
    ((l.filter fun e => e.1 / 32 = w).any fun e => evNamed e.1 && e.1 = 32 * w + b) =
      l.any fun e => evNamed e.1 && e.1 = 32 * w + b := by
  rw [List.any_filter]
  congr 1
  funext e
  by_cases h : e.1 = 32 * w + b
  · have hword : e.1 / 32 = w := by omega
    simp [hword]
  · simp [h]

theorem testBit_xor_and (a c b : Nat) : (a ^^^ (a &&& c)).testBit b = (a.testBit b && !c.testBit b) := by
  rw [Nat.testBit_xor, Nat.testBit_and]
  cases a.testBit b <;> cases c.testBit b <;> rfl

/-! ### EVT.STAT -/

/-- The state in which a write of ones to a status word leaves the block, before its events are processed. -/
def State.statCleared (s : State) (w : Fin 22) (bits : Nat) (hw : List (Nat × Nat × Nat × Nat)) : State :=
  ((s.hostAccess Reg.EVT_STAT_BITS 0 w).wr Reg.EVT_STAT_BITS
    (s.rd Reg.EVT_STAT_BITS 0 w ^^^ (s.rd Reg.EVT_STAT_BITS 0 w &&& bits)) 0 w).evAll (hw.filter fun e => e.1 / 32 = w.val)

theorem exec_evtStatClear (w : Fin 22) (bits : Nat) (hw : List (Nat × Nat × Nat × Nat)) (s : State) :
    exec (.evtStatClear w bits hw) s = .next (s.statCleared w bits hw).evFlush.settle := by
  change finish (((s.hostAccess Reg.EVT_STAT_BITS 0 w).wr Reg.EVT_STAT_BITS _ 0 w).evAll _) = _
  rw [hostAccess_rd]
  rfl

theorem testBit_statCleared (s : State) (w : Fin 22) (bits : Nat) (hw : List (Nat × Nat × Nat × Nat)) {b : Nat} (hb : b < 32) :
    ((s.statCleared w bits hw).rd Reg.EVT_STAT_BITS 0 w).testBit b =
      ((hw.any fun e => evNamed e.1 && e.1 = 32 * w.val + b) || ((s.rd Reg.EVT_STAT_BITS 0 w).testBit b && !bits.testBit b)) := by
  have hwidth : decide (b < Reg.EVT_STAT_BITS.w) = true := decide_eq_true hb
  rw [State.statCleared, testBit_stat_evAll _ w.isLt hb, any_filter_word _ hb, rd_wr_same, Nat.testBit_mod_two_pow, testBit_xor_and, hwidth,
    Bool.true_and]

theorem rd_statCleared_other (s : State) {w v : Fin 22} (bits : Nat) (hw : List (Nat × Nat × Nat × Nat)) (h : v ≠ w) :
    (s.statCleared w bits hw).rd Reg.EVT_STAT_BITS 0 v = s.rd Reg.EVT_STAT_BITS 0 v := by
  have hne : v.val ≠ w.val := Fin.val_ne_of_ne h
  have hword : ∀ e ∈ hw.filter fun e => e.1 / 32 = w.val, e.1 / 32 ≠ v.val := fun e he => by
    have := of_decide_eq_true (List.mem_filter.mp he).2
    omega
  rw [State.statCleared, rd_stat_evAll_other v.isLt _ _ hword, rd_wr_inst _ _ _ _ _ _ _ (by omega), hostAccess_rd]

/-! ### EVT.OCCCLR -/

theorem evAll_occ_single (s : State) (src ch detail aux : Nat) :
    (s.evAll [(src, ch, detail, aux)]).evt.occ =
      if evNamed src then tset 0 s.evt.occ src (min (tget 0 s.evt.occ src + 1) (2 ^ 32 - 1)) else s.evt.occ := by
  rw [evAll_cons, evAll_nil]
  split
  · exact ev_occ ..
  · rfl

/-- A write of OCCCLR with a named source selected empties that source's counter. -/
theorem occClear_occ {s : State} (h : s.rd Reg.EVT_OCCSEL_SRC ≤ 691) :
    s.occClear.evt.occ = tset 0 s.evt.occ (s.rd Reg.EVT_OCCSEL_SRC) 0 := by
  unfold State.occClear
  rw [if_neg (Nat.not_lt.mpr h)]

@[simp] theorem rd_occClear (s : State) (r : Row) (i j : Nat) : s.occClear.rd r i j = s.rd r i j := by
  unfold State.occClear
  split <;> rfl

@[simp] theorem occClear_out (s : State) : s.occClear.out = s.out := by
  unfold State.occClear
  split <;> rfl

@[simp] theorem occClear_burst (s : State) : s.occClear.evt.burst = s.evt.burst := by
  unfold State.occClear
  split <;> rfl

/-- The state in which a write of OCCCLR leaves the block, before its events are processed. -/
def State.occCleared (s : State) (occ : Option (Nat × Nat × Nat)) : State :=
  match occ with
  | none => (s.hostAccess Reg.EVT_OCCCLR_CLEAR).occClear
  | some (c, d, a) => (s.hostAccess Reg.EVT_OCCCLR_CLEAR).occClear.evAll [(s.rd Reg.EVT_OCCSEL_SRC, c, d, a)]

theorem exec_occclr (occ : Option (Nat × Nat × Nat)) (s : State) :
    exec (.occclr occ) s = .next (s.occCleared occ).evFlush.settle := by
  cases occ with
  | none => rfl
  | some o =>
    change finish ((s.hostAccess Reg.EVT_OCCCLR_CLEAR).occClear.evAll [(State.rd (State.occClear _) _, o)]) = _
    rw [rd_occClear, hostAccess_rd]
    rfl

/-- The counters after the write: the selected one counts what occurs in its cycle, the others are as before. -/
theorem occCleared_occ {s : State} (occ : Option (Nat × Nat × Nat)) (h : s.rd Reg.EVT_OCCSEL_SRC ≤ 691) :
    tget 0 (s.occCleared occ).evt.occ (s.rd Reg.EVT_OCCSEL_SRC) = bit (occ.isSome && evNamed (s.rd Reg.EVT_OCCSEL_SRC)) ∧
      ∀ x, x ≠ s.rd Reg.EVT_OCCSEL_SRC → tget 0 (s.occCleared occ).evt.occ x = tget 0 s.evt.occ x := by
  have hclear : ((s.hostAccess Reg.EVT_OCCCLR_CLEAR).occClear).evt.occ = tset 0 s.evt.occ (s.rd Reg.EVT_OCCSEL_SRC) 0 := by
    have hsel : (s.hostAccess Reg.EVT_OCCCLR_CLEAR).rd Reg.EVT_OCCSEL_SRC ≤ 691 := by rwa [hostAccess_rd]
    rw [occClear_occ hsel, hostAccess_evt, hostAccess_rd]
  cases occ with
  | none =>
    change tget 0 (State.occClear _).evt.occ _ = _ ∧ ∀ x, _ → tget 0 (State.occClear _).evt.occ x = _
    rw [hclear]
    exact ⟨tget_tset_same .., fun x hx => tget_tset_other _ _ _ _ hx⟩
  | some o =>
    change tget 0 (State.evAll _ [(_, o)]).evt.occ _ = _ ∧ ∀ x, _ → tget 0 (State.evAll _ [(_, o)]).evt.occ x = _
    rw [evAll_occ_single, hclear, tget_tset_same]
    split
    · next hnamed =>
      rw [hnamed]
      exact ⟨tget_tset_same .., fun x hx => (tget_tset_other _ _ _ _ hx).trans (tget_tset_other _ _ _ _ hx)⟩
    · next hnamed =>
      rw [Bool.eq_false_of_not_eq_true hnamed]
      exact ⟨tget_tset_same .., fun x hx => tget_tset_other _ _ _ _ hx⟩

/-- The processing of events touches neither the status bits nor the counters, and where no event waits it does nothing. -/
theorem evFlush_settle_stat_occ (u : State) :
    (∀ w, u.evFlush.settle.rd Reg.EVT_STAT_BITS 0 w = u.rd Reg.EVT_STAT_BITS 0 w) ∧ u.evFlush.settle.evt.occ = u.evt.occ ∧
      (u.evt.burst = [] → u.evFlush.settle.evt = u.evt ∧ u.evFlush.settle.out = u.out) := by
  refine ⟨fun w => rd_evFlush_settle _ _ _ _ (by decide), ?_, fun h => ?_⟩
  · rw [settle_evt, evFlush_occ]
  · rw [settle_evt, settle_out, evFlush_none u h]
    exact ⟨rfl, rfl⟩

/-- Settles O42: the clear is done first, and what occurs in the cycle of the write occurs after it. -/
theorem eventClearsLetTheSetWin : Obligations.EventClearsLetTheSetWin := by
  refine ⟨fun s w bits hw => ⟨_, exec_evtStatClear w bits hw s, ?_⟩, fun s occ hsel => ⟨_, exec_occclr occ s, ?_⟩,
    fun s w bits hw => exec_evtStatClear w bits hw s, fun s => exec_occclr none s, fun s c d a => exec_occclr (some (c, d, a)) s⟩
  · obtain ⟨hstat, -, hquiet⟩ := evFlush_settle_stat_occ (s.statCleared w bits hw)
    refine ⟨fun b hb => ?bits, fun v hv => ?others, ?idle⟩
    case bits => rw [hstat, testBit_statCleared s w bits hw hb]
    case others => rw [hstat, rd_statCleared_other s bits hw hv]
    case idle =>
      rintro rfl hburst
      have hevt : (s.statCleared w bits []).evt = s.evt := hostAccess_evt ..
      have hout : (s.statCleared w bits []).out = s.out := hostAccess_out ..
      rw [hevt, hout] at hquiet
      exact hquiet hburst
  · obtain ⟨hstat, hocc, hquiet⟩ := evFlush_settle_stat_occ (s.occCleared occ)
    obtain ⟨hsame, hother⟩ := occCleared_occ occ hsel
    refine ⟨?selected, fun x hx => ?others, ?idle⟩
    case selected => rw [hocc, hsame]
    case others => rw [hocc, hother x hx]
    case idle =>
      rintro rfl
      refine ⟨fun x => ?_, fun hburst => ?_⟩
      · rw [hstat, State.occCleared, rd_occClear, hostAccess_rd]
      · have hnone : (s.occCleared none).evt.burst = [] := by rw [State.occCleared, occClear_burst, hostAccess_evt, hburst]
        rw [(hquiet hnone).2, State.occCleared, occClear_out, hostAccess_out]

end Sys2Proof.Machine
end

section
/-! PROOFS. Bytes stored at internal addresses are read back, and no other byte changes (R410). -/

namespace Sys2Proof.Machine

/-- An internal address of the store or of DRAM has a place of its own. -/
theorem space_inj {s : State} {a x : Nat} (h : s.space x = s.space a) (ha : (s.space a).1 ≠ 2) : x = a := by
  unfold State.space at h ha
  split_ifs at h ha <;> simp only [Prod.mk.injEq, ne_eq, not_true_eq_false, Nat.reduceEqDiff, zero_ne_one, one_ne_zero, OfNat.zero_ne_ofNat,
    OfNat.ofNat_ne_zero, false_and, true_and] at h ha
  all_goals omega

/-- The three kinds of places (R410). -/
theorem space_cases (s : State) (a : Nat) : (∃ o, s.space a = (0, o)) ∨ (∃ o, s.space a = (1, o)) ∨ s.space a = (2, a) := by
  unfold State.space
  split_ifs
  · exact .inl ⟨_, rfl⟩
  · exact .inr (.inl ⟨_, rfl⟩)
  · exact .inr (.inr rfl)

theorem byte_of_store {s : State} {a o : Nat} (h : s.space a = (0, o)) : s.byte a = csRead s.mem o := by
  simp only [State.byte, h]

theorem byte_of_dram {s : State} {a o : Nat} (h : s.space a = (1, o)) : s.byte a = dramRead s.mem o := by
  simp only [State.byte, h]

theorem byte_of_nowhere {s : State} {a : Nat} (h : s.space a = (2, a)) : s.byte a = 0 := by
  simp only [State.byte, h]

theorem setByte_of_store {s : State} {a o : Nat} (b : Byte) (h : s.space a = (0, o)) :
    s.setByte a b = { s with mem := csWrite s.mem o b } := by
  simp only [State.setByte, h]

theorem setByte_of_dram {s : State} {a o : Nat} (b : Byte) (h : s.space a = (1, o)) :
    s.setByte a b = { s with mem := dramWrite s.mem o b } := by
  simp only [State.setByte, h]

theorem setByte_of_nowhere {s : State} {a : Nat} (b : Byte) (h : s.space a = (2, a)) : s.setByte a b = s := by
  simp only [State.setByte, h]

theorem byte_setByte_same {s : State} {a : Nat} (b : Byte) (h : (s.space a).1 ≠ 2) : (s.setByte a b).byte a = b := by
  rcases space_cases s a with ⟨o, ho⟩ | ⟨o, ho⟩ | ho
  · rw [byte_of_store ((space_setByte s a b a).trans ho), setByte_of_store b ho, csRead_csWrite_same]
  · rw [byte_of_dram ((space_setByte s a b a).trans ho), setByte_of_dram b ho, dramRead_dramWrite_same]
  · exact absurd (congrArg Prod.fst ho) h

theorem byte_setByte_other {s : State} {a x : Nat} (b : Byte) (hne : x ≠ a) : (s.setByte a b).byte x = s.byte x := by
  have hplace {k o : Nat} (hk : k ≠ 2) (ha : s.space a = (k, o)) : s.space x ≠ (k, o) := fun hx =>
    hne (space_inj (hx.trans ha.symm) (by rwa [ha]))
  rcases space_cases s x with ⟨o', hx⟩ | ⟨o', hx⟩ | hx
  · rw [byte_of_store ((space_setByte s a b x).trans hx), byte_of_store hx]
    rcases space_cases s a with ⟨o, ha⟩ | ⟨o, ha⟩ | ha
    · have hoff : o' ≠ o := by rintro rfl; exact hplace (by decide) ha hx
      rw [setByte_of_store b ha, csRead_csWrite_other _ _ hoff]
    · rw [setByte_of_dram b ha]
      rfl
    · rw [setByte_of_nowhere b ha]
  · rw [byte_of_dram ((space_setByte s a b x).trans hx), byte_of_dram hx]
    rcases space_cases s a with ⟨o, ha⟩ | ⟨o, ha⟩ | ha
    · rw [setByte_of_store b ha]
      rfl
    · have hoff : o' ≠ o := by rintro rfl; exact hplace (by decide) ha hx
      rw [setByte_of_dram b ha, dramRead_dramWrite_other _ _ hoff]
    · rw [setByte_of_nowhere b ha]
  · rw [byte_of_nowhere ((space_setByte s a b x).trans hx), byte_of_nowhere hx]

theorem setByte_flash (s : State) (a : Nat) (b : Byte) : (s.setByte a b).mem.flash = s.mem.flash := by
  rcases space_cases s a with ⟨o, ha⟩ | ⟨o, ha⟩ | ha
  · rw [setByte_of_store b ha]; rfl
  · rw [setByte_of_dram b ha]; rfl
  · rw [setByte_of_nowhere b ha]

theorem setBytes_cons (s : State) (a : Nat) (b : Byte) (p : Bytes) : s.setBytes a (b :: p) = (s.setByte a b).setBytes (a + 1) p := rfl

/-- A byte outside the stored range. -/
theorem byte_setBytes_outside (p : Bytes) : ∀ (s : State) (a x : Nat), x < a ∨ a + p.length ≤ x → (s.setBytes a p).byte x = s.byte x := by
  induction p with
  | nil => exact fun _ _ _ _ => rfl
  | cons b p ih =>
    intro s a x h
    rw [List.length_cons] at h
    rw [setBytes_cons, ih _ _ _ (by omega), byte_setByte_other b (by omega)]

/-- A byte of the stored range. -/
theorem byte_setBytes_inside (p : Bytes) : ∀ (s : State) (a i : Nat), i < p.length → (s.space (a + i)).1 ≠ 2 →
    (s.setBytes a p).byte (a + i) = p.getD i 0 := by
  induction p with
  | nil => exact fun _ _ i hi => absurd hi (Nat.not_lt_zero i)
  | cons b p ih =>
    intro s a i hi hplace
    rw [setBytes_cons]
    cases i with
    | zero => rw [byte_setBytes_outside p _ _ _ (by omega)]; exact byte_setByte_same b hplace
    | succ i =>
      have hnext : a + (i + 1) = a + 1 + i := by omega
      rw [hnext] at hplace ⊢
      rw [ih _ _ _ (Nat.lt_of_succ_lt_succ hi) (by rwa [space_setByte])]
      rfl

@[simp] theorem setBytes_regs (p : Bytes) : ∀ (s : State) (a : Nat), (s.setBytes a p).regs = s.regs := by
  induction p with
  | nil => exact fun _ _ => rfl
  | cons b p ih => exact fun s a => (ih _ _).trans (setByte_regs s a b)

theorem setBytes_flash (p : Bytes) : ∀ (s : State) (a : Nat), (s.setBytes a p).mem.flash = s.mem.flash := by
  induction p with
  | nil => exact fun _ _ => rfl
  | cons b p ih => exact fun s a => (ih _ _).trans (setByte_flash s a b)

/-- Settles O53. -/
theorem storedBytesReadBack : Obligations.StoredBytesReadBack := fun s a p hplace =>
  ⟨fun i hi => byte_setBytes_inside p s a i hi (hplace i hi), fun x hx => byte_setBytes_outside p s a x hx, wf_setBytes s a p,
    setBytes_regs p s a, setBytes_flash p s a⟩

end Sys2Proof.Machine
end

section
/-! PROOFS. A BAR2 write reaches only the lines that the rules let it perform (R202). -/

namespace Sys2Proof.Machine

/-! ### What leaves bytes alone -/

/-- `t` is `s` but for the bytes at the addresses `A`, as far as a BAR2 write and its counter can tell. -/
structure WritesWithin (A : Nat → Prop) (s t : State) : Prop where
  byte : ∀ a, ¬A a → t.byte a = s.byte a
  deny : t.rd Reg.CST_BAR2DENY_COUNT = s.rd Reg.CST_BAR2DENY_COUNT

theorem WritesWithin.refl (A : Nat → Prop) (s : State) : WritesWithin A s s := ⟨fun _ _ => rfl, rfl⟩

theorem WritesWithin.trans {A : Nat → Prop} {s t u : State} (h : WritesWithin A s t) (k : WritesWithin A t u) : WritesWithin A s u :=
  ⟨fun a ha => (k.byte a ha).trans (h.byte a ha), k.deny.trans h.deny⟩

/-- A byte depends on the store, DRAM and the size of DRAM. -/
theorem byte_congr {s t : State} (hcs : t.mem.cs = s.mem.cs) (hdram : t.mem.dram = s.mem.dram)
    (hsize : t.rd Reg.MTX_DRAMSIZE_BYTES = s.rd Reg.MTX_DRAMSIZE_BYTES) (a : Nat) : t.byte a = s.byte a := by
  have hspace : t.space a = s.space a := by
    unfold State.space
    rw [hsize]
  rcases space_cases s a with ⟨o, ho⟩ | ⟨o, ho⟩ | ho
  · rw [byte_of_store ho, byte_of_store (hspace.trans ho), csRead, csRead, hcs]
  · rw [byte_of_dram ho, byte_of_dram (hspace.trans ho), dramRead, dramRead, hdram]
  · rw [byte_of_nowhere ho, byte_of_nowhere (hspace.trans ho)]

/-- Bookkeeping about the wrong bits of lines leaves the bytes alone. -/
theorem writesWithin_of_marks (A : Nat → Prop) {s t : State} (hcs : t.mem.cs = s.mem.cs) (hdram : t.mem.dram = s.mem.dram)
    (hregs : t.regs = s.regs) : WritesWithin A s t :=
  ⟨fun a _ => byte_congr hcs hdram (rd_congr hregs ..) a, rd_congr hregs ..⟩

theorem writesWithin_of_told (A : Nat → Prop) {ids : List Nat} {s t : State} (h : Told ids s t) (hsize : Reg.MTX_DRAMSIZE_BYTES.id ∉ ids)
    (hdeny : Reg.CST_BAR2DENY_COUNT.id ∉ ids) : WritesWithin A s t :=
  ⟨fun a _ => byte_congr (by rw [h.mem]) (by rw [h.mem]) (h.reg _ _ _ hsize) a, h.reg _ _ _ hdeny⟩

theorem byte_wr (s : State) {r : Row} (v i j : Nat) (hsize : Reg.MTX_DRAMSIZE_BYTES.id ≠ r.id) (a : Nat) :
    (s.wr r v i j).byte a = s.byte a := byte_congr (s := s) (t := s.wr r v i j) rfl rfl (rd_wr_field _ _ _ _ _ _ hsize) a

theorem writesWithin_wr (A : Nat → Prop) (s : State) {r : Row} (v i j : Nat) (hsize : Reg.MTX_DRAMSIZE_BYTES.id ≠ r.id)
    (hdeny : Reg.CST_BAR2DENY_COUNT.id ≠ r.id) : WritesWithin A s (s.wr r v i j) :=
  ⟨fun a _ => byte_wr s v i j hsize a, rd_wr_field _ _ _ _ _ _ hdeny⟩

theorem byte_ev (s : State) (src ch detail aux a : Nat) : (s.ev src ch detail aux).byte a = s.byte a :=
  byte_congr (s := s) (t := s.ev src ch detail aux) rfl rfl (rd_ev _ _ _ _ _ _ _ _ (by decide)) a

theorem writesWithin_ev (A : Nat → Prop) (s : State) (src ch detail aux : Nat) : WritesWithin A s (s.ev src ch detail aux) :=
  ⟨fun a _ => byte_ev s src ch detail aux a, rd_ev _ _ _ _ _ _ _ _ (by decide)⟩

theorem writesWithin_foldl {α : Type} {A : Nat → Prop} {f : State → α → State} : ∀ (l : List α) (s : State),
    (∀ x ∈ l, ∀ t : State, WritesWithin A t (f t x)) → WritesWithin A s (l.foldl f s)
  | [], s, _ => .refl A s
  | x :: l, s, h =>
    (h x List.mem_cons_self s).trans (writesWithin_foldl l (f s x) fun y hy => h y (List.mem_cons_of_mem x hy))

/-! ### One line of a write -/

theorem posted_cvuOpaque (s : State) (u n : Nat) : Posted s (s.cvuOpaque u n) := by
  unfold State.cvuOpaque
  refine (posted_cvuTurn s u).trans ?_
  dsimp only
  split
  · exact .refl _
  split
  · exact posted_setCvuU _ _ _
  · exact (posted_free _).trans (posted_setCvuU _ _ _)

/-- Lines that pass a check value unit. -/
theorem posted_cvuLines (s : State) (u : Nat) (lines : List Nat) : Posted s (s.cvuLines u lines) := by
  have hitems (l : List Nat) : ∀ t : State, Posted t (l.foldl (fun s a => s.cvuItem u (s.lineBytes a) (some a) none) t) := by
    induction l with
    | nil => exact .refl
    | cons a l ih => exact fun t => (posted_cvuItem t u _ _ _).trans (ih _)
  unfold State.cvuLines
  split
  · exact hitems lines s
  · exact posted_cvuOpaque s u _

/-- A write into the emergency partition clears VALID bits alone. -/
theorem writesWithin_emTouched (A : Nat → Prop) (s : State) (off len : Nat) : WritesWithin A s (s.emTouched off len) := by
  refine writesWithin_foldl _ s fun c _ t => ?_
  dsimp only
  split
  · exact writesWithin_wr A t _ _ _ (by decide) (by decide)
  · exact .refl A t

theorem writesWithin_setBytes (s : State) (a : Nat) (d : Bytes) : WritesWithin (fun x => a ≤ x ∧ x < a + d.length) s (s.setBytes a d) :=
  ⟨fun x hx => byte_setBytes_outside d s a x (by omega), rd_congr (setBytes_regs d s a) ..⟩

/-- A line written in whole carries good checks again, which changes no byte. -/
theorem writesWithin_bar2Put (s : State) (a : Nat) (d : Bytes) : WritesWithin (fun x => a ≤ x ∧ x < a + d.length) s (s.bar2Put a d) := by
  refine (writesWithin_setBytes s a d).trans ?_
  have hmend (t : State) (l : Nat) : WritesWithin (fun x => a ≤ x ∧ x < a + d.length) t (if d.length = 64 then t.csMend l else t) := by
    split
    · exact writesWithin_of_marks _ rfl rfl rfl
    · exact .refl _ t
  have htouch (t : State) (o : Nat) : WritesWithin (fun x => a ≤ x ∧ x < a + d.length) t (if t.emBase ≤ o then t.emTouched o d.length else t) := by
    split
    · exact writesWithin_emTouched _ t _ _
    · exact .refl _ t
  have hdram (t : State) (o : Nat) : WritesWithin (fun x => a ≤ x ∧ x < a + d.length) t
      (if d.length = 64 then { t with mem := { t.mem with dramBad := tset 0 t.mem.dramBad (o / 64) 0 } } else t) := by
    split
    · exact writesWithin_of_marks _ rfl rfl rfl
    · exact .refl _ t
  have hspace : (s.setBytes a d).space a = s.space a := by
    unfold State.space
    rw [rd_congr (setBytes_regs d s a)]
  unfold State.bar2Put
  dsimp only
  rw [hspace]
  rcases space_cases s a with ⟨o, ho⟩ | ⟨o, ho⟩ | ho <;> simp only [ho]
  · exact (hmend _ (o / 64)).trans (htouch _ o)
  · exact hdram _ o
  · exact hdram _ a

/-- A line that the rule performs: stored, counted, and passed by unit 958. -/
def State.bar2Perform (s : State) (a : Nat) (d : Bytes) : State :=
  ((s.bar2Put a d).incWrap Reg.CST_PORT_BYTES d.length 0 47).cvuLines 958 [a / 64 * 64]

theorem writesWithin_bar2Perform (s : State) (a : Nat) (d : Bytes) :
    WritesWithin (fun x => a ≤ x ∧ x < a + d.length) s (s.bar2Perform a d) :=
  ((writesWithin_bar2Put s a d).trans (writesWithin_wr _ _ _ _ _ (by decide) (by decide))).trans
    (writesWithin_of_told _ (posted_cvuLines _ _ _).toTold (by decide) (by decide))

/-! ### The whole write -/

/-- The lines of a write request, each with what becomes of it. -/
def State.bar2Lines (s : State) (off : Nat) (data : Bytes) : List (Nat × Nat × Bytes) :=
  (linePieces (data.length + 1) (off % 2 ^ 30) data).map fun e => (s.bar2Verdict (s.bar2Addr e.1), s.bar2Addr e.1, e.2)

/-- The lines that the rule performs. -/
def State.bar2Performed (s : State) (off : Nat) (data : Bytes) : State :=
  ((s.bar2Lines off data).filter fun v => v.1 = 0).foldl (fun s v => s.bar2Perform v.2.1 v.2.2) s

/-- What is said of lines of the locked partition and of those with no target. -/
def State.bar2Tell (t : State) (l : List (Nat × Nat × Bytes)) : State :=
  let u := if l.any fun v => v.1 = 2 then (t.incSat Reg.CMP_EMWRDROP_COUNT).ev (evCmp 7) else t
  match l.find? fun v => v.1 = 3 with
  | some v => u.errResp 0 1 true v.2.1
  | none => u

/-- A write performs its lines, counts the request if one is refused, and reports. -/
theorem bar2Write_eq (s : State) (off : Nat) (data : Bytes) :
    s.bar2Write off data = State.bar2Tell
      (if (s.bar2Lines off data).any fun v => v.1 = 1 then ((s.bar2Performed off data).incSat Reg.CST_BAR2DENY_COUNT).ev (evCst 5)
        else s.bar2Performed off data) (s.bar2Lines off data) := by
  simp only [State.bar2Write, State.bar2Performed, State.bar2Lines, State.bar2Perform, State.bar2Tell, List.map_map]
  rfl

/-- The bytes of the lines that the rule performs. -/
def State.Bar2Reaches (s : State) (off : Nat) (data : Bytes) (a : Nat) : Prop :=
  ∃ e ∈ linePieces (data.length + 1) (off % 2 ^ 30) data, s.bar2Verdict (s.bar2Addr e.1) = 0 ∧
    s.bar2Addr e.1 ≤ a ∧ a < s.bar2Addr e.1 + e.2.length

theorem WritesWithin.mono {A B : Nat → Prop} {s t : State} (h : WritesWithin A s t) (hsub : ∀ a, A a → B a) : WritesWithin B s t :=
  ⟨fun a ha => h.byte a fun hA => ha (hsub a hA), h.deny⟩

theorem writesWithin_bar2Performed (s : State) (off : Nat) (data : Bytes) :
    WritesWithin (s.Bar2Reaches off data) s (s.bar2Performed off data) := by
  refine writesWithin_foldl _ s fun v hv t => (writesWithin_bar2Perform t v.2.1 v.2.2).mono fun a ha => ?_
  obtain ⟨hmem, hzero⟩ := List.mem_filter.mp hv
  obtain ⟨e, he, rfl⟩ := List.mem_map.mp hmem
  exact ⟨e, he, of_decide_eq_true hzero, ha⟩

theorem writesWithin_errResp (A : Nat → Prop) (s : State) {kind : Nat} (master : Nat) (write : Bool) (addr : Nat) (h2 : kind ≠ 2)
    (h3 : kind ≠ 3) : WritesWithin A s (s.errResp kind master write addr) := by
  have hwr (t : State) {r : Row} (v : Nat) (hr : r.id ∈ [Reg.MTX_ERRCNT_DEFAULT.id, Reg.MTX_ERRSTAT_VALID.id, Reg.MTX_ERRSTAT_MASTER.id,
      Reg.MTX_ERRSTAT_KIND.id, Reg.MTX_ERRSTAT_WRITE.id, Reg.MTX_ERRADDR_ADDR.id]) : WritesWithin A t (t.wr r v) :=
    writesWithin_wr A t v 0 0 (fun e => absurd (e ▸ hr) (by decide)) (fun e => absurd (e ▸ hr) (by decide))
  rw [errResp_of_default_counter s master write addr h2 h3]
  refine WritesWithin.trans ?_ (writesWithin_ev A _ _ _ _ _)
  split
  · exact hwr s _ (by decide)
  · exact (((((hwr s _ (by decide)).trans (hwr _ _ (by decide))).trans (hwr _ _ (by decide))).trans (hwr _ _ (by decide))).trans
      (hwr _ _ (by decide))).trans (hwr _ _ (by decide))

theorem writesWithin_bar2Tell (A : Nat → Prop) (t : State) (l : List (Nat × Nat × Bytes)) : WritesWithin A t (t.bar2Tell l) := by
  have hlocked : WritesWithin A t (if l.any fun v => v.1 = 2 then (t.incSat Reg.CMP_EMWRDROP_COUNT).ev (evCmp 7) else t) := by
    split
    · exact (writesWithin_wr A t _ _ _ (by decide) (by decide)).trans (writesWithin_ev A _ _ _ _ _)
    · exact .refl A t
  unfold State.bar2Tell
  dsimp only
  split
  · exact hlocked.trans (writesWithin_errResp A _ _ _ _ (by decide) (by decide))
  · exact hlocked

/-- What a write does to the bytes, and its counter of refused requests. -/
theorem bar2Write_reaches (s : State) (off : Nat) (data : Bytes) :
    (∀ a, ¬s.Bar2Reaches off data a → (s.bar2Write off data).byte a = s.byte a) ∧
      (s.bar2Write off data).rd Reg.CST_BAR2DENY_COUNT =
        if (linePieces (data.length + 1) (off % 2 ^ 30) data).any (fun e => s.bar2Verdict (s.bar2Addr e.1) = 1)
        then min (s.rd Reg.CST_BAR2DENY_COUNT + 1) (2 ^ Reg.CST_BAR2DENY_COUNT.w - 1) else s.rd Reg.CST_BAR2DENY_COUNT := by
  have hperf := writesWithin_bar2Performed s off data
  have hany : (s.bar2Lines off data).any (fun v => v.1 = 1) =
      (linePieces (data.length + 1) (off % 2 ^ 30) data).any (fun e => s.bar2Verdict (s.bar2Addr e.1) = 1) := List.any_map
  rw [bar2Write_eq, hany]
  split
  · obtain ⟨hbyte, hdeny⟩ := writesWithin_bar2Tell (s.Bar2Reaches off data)
      (((s.bar2Performed off data).incSat Reg.CST_BAR2DENY_COUNT).ev (evCst 5)) (s.bar2Lines off data)
    refine ⟨fun a ha => (hbyte a ha).trans ?_, hdeny.trans ?_⟩
    · rw [byte_ev, State.incSat, byte_wr _ _ _ _ (by decide), hperf.byte a ha]
    · rw [rd_ev _ _ _ _ _ _ _ _ (by decide), rd_incSat_same, hperf.deny]
  · obtain ⟨hbyte, hdeny⟩ := hperf.trans (writesWithin_bar2Tell _ _ (s.bar2Lines off data))
    exact ⟨hbyte, hdeny⟩

/-- The end of a command changes no byte, and no counter of the store. -/
theorem byte_evFlush_settle (s : State) (a : Nat) : s.evFlush.settle.byte a = s.byte a :=
  byte_congr (by rw [settle_mem, evFlush_mem]) (by rw [settle_mem, evFlush_mem]) (rd_evFlush_settle _ _ _ _ (by decide)) a

/-- Settles O44: the lines that the rule performs are written first; what follows only counts and reports. -/
theorem hostWritesReachOnlyTheirPages : Obligations.HostWritesReachOnlyTheirPages := by
  intro s off data hdev
  have hexec : exec (.bar2Write off data) s = .next (s.request (.write off data)).evFlush.settle := by
    change finish (if s.dev = 0 then s else s.request (.write off data)) = _
    rw [if_neg hdev]
    rfl
  have hdeny (t : State) : t.evFlush.settle.rd Reg.CST_BAR2DENY_COUNT = t.rd Reg.CST_BAR2DENY_COUNT :=
    rd_evFlush_settle _ _ _ _ (by decide)
  refine ⟨fun hfree => ⟨_, hexec, ?_⟩, fun hheld => ⟨_, hexec, ?_⟩⟩
  · have hrun : s.request (.write off data) = s.bar2Write off data := if_neg (by rw [State.reqHeld, hfree]; decide)
    obtain ⟨hbyte, hcount⟩ := bar2Write_reaches s off data
    rw [hrun]
    refine ⟨fun a ha => (byte_evFlush_settle _ a).trans (hbyte a ?_), (hdeny _).trans hcount⟩
    rintro ⟨e, he, hverdict, hin⟩
    exact ha e he hverdict hin
  · have hwait : s.request (.write off data) = s.stall (.write off data) := if_pos hheld
    rw [hwait]
    refine ⟨fun a => byte_evFlush_settle _ a, hdeny _, ?_⟩
    rw [settle_stalled, (evFlush_told _).stalled]
    rfl

end Sys2Proof.Machine
end

section
/-! PROOFS. Bad doorbells are discarded and reported; a tail equal to the present one does nothing (R232). -/

namespace Sys2Proof.Machine

/-- The ring size that bounds a tail; QID 66 has no submission ring. -/
def State.sqSize (s : State) (q : Nat) : Nat := if q = 66 then 0 else 2 ^ (s.que q).sqlog2

section
variable {s : State} {q v : Nat} (hdev : s.dev ≠ 0) (hq : q ≤ 66) (hv : v < 2 ^ 32)
include hdev hq hv

/-- A tail that no ring can take. -/
theorem exec_tailDoorbell_bad (h : s.qExists q = false ∨ (s.que q).deleting.isSome = true ∨ s.sqSize q ≤ v) :
    exec (.submissionTailDoorbell q v) s = .next s.badBell.evFlush.settle := by
  have hserved : ¬(s.dev = 0 ∨ 66 < q) := by omega
  have hbad : (!s.qExists q) = true ∨ (s.que q).deleting.isSome = true ∨ s.sqSize q ≤ v % 2 ^ 32 := by
    rwa [Nat.mod_eq_of_lt hv, Bool.not_eq_true']
  exact congrArg finish ((if_neg hserved).trans (if_pos hbad))

omit hq in
/-- A tail of a ring that can take it does nothing where it does not move, and is bad where it overfills the ring. -/
theorem exec_tailDoorbell_good (hq : q < 66) (hex : s.qExists q = true) (hdel : (s.que q).deleting = none) (hlt : v < 2 ^ (s.que q).sqlog2) :
    let size := 2 ^ (s.que q).sqlog2
    let adv := (v + size - s.rd Reg.HIF_QSTAT_TAIL 0 q) % size
    (adv = 0 → exec (.submissionTailDoorbell q v) s = .next s.evFlush.settle) ∧
      (adv ≠ 0 → size - 1 < (s.rd Reg.HIF_QSTAT_TAIL 0 q + size - s.rd Reg.HIF_QSTAT_HEAD 0 q) % size + adv →
        exec (.submissionTailDoorbell q v) s = .next s.badBell.evFlush.settle) := by
  intro size adv
  have hserved : ¬(s.dev = 0 ∨ 66 < q) := by omega
  have hsize : s.sqSize q = size := if_neg (by omega)
  have hgood : ¬((!s.qExists q) = true ∨ (s.que q).deleting.isSome = true ∨ s.sqSize q ≤ v % 2 ^ 32) := by
    rw [Nat.mod_eq_of_lt hv, hsize, hex, hdel]
    simpa using hlt
  have hadv : (v % 2 ^ 32 + s.sqSize q - s.rd Reg.HIF_QSTAT_TAIL 0 q) % s.sqSize q = adv := by rw [Nat.mod_eq_of_lt hv, hsize]
  refine ⟨fun hzero => congrArg finish ((if_neg hserved).trans ((if_neg hgood).trans (if_pos (hadv.trans hzero)))), fun hmoves hover => ?_⟩
  have hover' : s.sqSize q - 1 < (s.rd Reg.HIF_QSTAT_TAIL 0 q + s.sqSize q - s.rd Reg.HIF_QSTAT_HEAD 0 q) % s.sqSize q +
      (v % 2 ^ 32 + s.sqSize q - s.rd Reg.HIF_QSTAT_TAIL 0 q) % s.sqSize q := by rwa [hadv, hsize]
  have hmoves' : (v % 2 ^ 32 + s.sqSize q - s.rd Reg.HIF_QSTAT_TAIL 0 q) % s.sqSize q ≠ 0 := by rwa [hadv]
  exact congrArg finish ((if_neg hserved).trans ((if_neg hgood).trans ((if_neg hmoves').trans (if_pos hover'))))

/-- A head of no queue, or outside its ring. -/
theorem exec_headDoorbell_bad (h : s.qExists q = false ∨ 2 ^ (s.que q).cqlog2 ≤ v) :
    exec (.completionHeadDoorbell q v) s = .next s.badBell.evFlush.settle := by
  have hserved : ¬(s.dev = 0 ∨ 66 < q) := by omega
  have hbad : (!s.qExists q) = true ∨ 2 ^ (s.que q).cqlog2 ≤ v % 2 ^ 32 := by rwa [Nat.mod_eq_of_lt hv, Bool.not_eq_true']
  exact congrArg finish ((if_neg hserved).trans (if_pos hbad))

end

/-- Settles O45: a tail equal to the present one moves a ring of `size` by `size % size`. -/
theorem badDoorbellsAreDiscarded : Obligations.BadDoorbellsAreDiscarded := by
  refine ⟨fun s q v hdev hq hv h => exec_tailDoorbell_bad hdev hq hv h, fun s q v hdev hq hv h => exec_headDoorbell_bad hdev hq hv h,
    fun s q v hdev hq hv hex hdel hlt heq => ?equal,
    fun s q v hdev hq hv hex hdel hlt => (exec_tailDoorbell_good hdev hv hq hex hdel hlt).2⟩
  case equal =>
    refine (exec_tailDoorbell_good hdev hv hq hex hdel hlt).1 ?_
    rw [← heq, Nat.add_sub_cancel_left, Nat.mod_self]

end Sys2Proof.Machine
end

section
/-! PROOFS. Wipes of the store leave zeroes: of one page, and of the whole store (R195, R201). -/

namespace Sys2Proof

/-- Entries taken out by their keys. -/
theorem tget_filter_key {α : Type} (d : α) (t : Tab α) (p : Nat → Bool) (k : Nat) :
    tget d (t.filter fun e => p e.1) k = if p k then tget d t k else d := by
  induction t with
  | nil => split <;> rfl
  | cons e r ih =>
    obtain ⟨k', v⟩ := e
    by_cases hkey : k' = k
    · subst hkey
      cases hp : p k' with
      | true => simp [hp, tget]
      | false => simp [hp, ih]
    · cases hp : p k' <;> simp [hp, tget, hkey, ih]

namespace Machine

/-! ### One page (R195) -/

/-- Offsets in the range read zero, others as before. -/
theorem csRead_csZero (m : Mem) (lo hi o : Nat) : csRead (csZero m lo hi) o = if lo ≤ o ∧ o < hi then 0 else csRead m o := by
  refine (tget_filter_key 0 m.cs (fun k => k < lo || hi ≤ k) o).trans ?_
  by_cases h : lo ≤ o ∧ o < hi
  · have hkey : ¬(o < lo ∨ hi ≤ o) := by omega
    rw [if_pos h]
    simp [hkey]
  · have hkey : o < lo ∨ hi ≤ o := by omega
    rw [if_neg h]
    simp [hkey, csRead]

/-- The counts of free pages are three registers. -/
theorem pageCounts_eq (s : State) : ∃ free run cpb, s.pageCounts =
    ((s.wr Reg.CST_SHAREDFREE_PAGES free).wr Reg.CST_SHAREDRUN_PAGES run).wr Reg.CST_CPBFREE_PAGES cpb := ⟨_, _, _, rfl⟩

theorem pageCounts_keeps (s : State) : s.pageCounts.mem = s.mem ∧ s.pageCounts.cst = s.cst ∧ s.pageCounts.stalled = s.stalled := by
  obtain ⟨_, _, _, h⟩ := pageCounts_eq s
  rw [h]
  exact ⟨rfl, rfl, rfl⟩

theorem rd_pageCounts (s : State) {r : Row} (i j : Nat) (h1 : r.id ≠ Reg.CST_SHAREDFREE_PAGES.id) (h2 : r.id ≠ Reg.CST_SHAREDRUN_PAGES.id)
    (h3 : r.id ≠ Reg.CST_CPBFREE_PAGES.id) : s.pageCounts.rd r i j = s.rd r i j := by
  obtain ⟨_, _, _, h⟩ := pageCounts_eq s
  rw [h, rd_wr_field _ _ _ _ _ _ h3, rd_wr_field _ _ _ _ _ _ h2, rd_wr_field _ _ _ _ _ _ h1]

theorem page_congr {s t : State} (h : t.cst.pages = s.cst.pages) (p : Nat) : t.page p = s.page p := by
  unfold State.page
  rw [h]

theorem page_setPage_same (s : State) (p : Nat) (v : Page) : (s.setPage p v).page p = v := tget_tset_same ..

/-- The page, zero-filled and free. -/
def State.pageZeroed (s : State) (p : Nat) : State :=
  (({ s with mem := csZero s.mem (4096 * p) (4096 * p + 4096) } : State).setPage p (pageDefault p)).pageCounts

/-- What waits for a page, without that page. -/
def State.freesWithout (s : State) (p : Nat) : List (Nat × List Nat × List Nat) :=
  s.cst.frees.map fun e => (e.1, e.2.1.filter (· ≠ p), e.2.2)

def State.withFrees (s : State) (l : List (Nat × List Nat × List Nat)) : State := { s with cst := { s.cst with frees := l } }

theorem withFrees_keeps (s : State) (l : List (Nat × List Nat × List Nat)) :
    (s.withFrees l).mem = s.mem ∧ (s.withFrees l).cst.pages = s.cst.pages := ⟨rfl, rfl⟩

/-- The commands that wait for other pages go on waiting, and those whose last page it was complete. -/
def State.freesDone (s : State) (p : Nat) : State :=
  ((s.freesWithout p).filter fun e => e.2.1.isEmpty).foldl (fun s e => s.complete e.1 stOk)
    (s.withFrees ((s.freesWithout p).filter fun e => !e.2.1.isEmpty))

theorem pageZeroed_mem (s : State) (p : Nat) : (s.pageZeroed p).mem = csZero s.mem (4096 * p) (4096 * p + 4096) := by
  rw [State.pageZeroed, (pageCounts_keeps _).1]
  rfl

theorem page_pageZeroed (s : State) (p : Nat) : (s.pageZeroed p).page p = pageDefault p := by
  rw [State.pageZeroed, page_congr (congrArg Cst.pages (pageCounts_keeps _).2.1), page_setPage_same]

/-- Completions touch neither the memories nor the pages. -/
theorem freesDone_keeps (s : State) (p : Nat) : (s.freesDone p).mem = s.mem ∧ (s.freesDone p).cst.pages = s.cst.pages := by
  obtain ⟨hmem, hpages⟩ := withFrees_keeps s ((s.freesWithout p).filter fun e => !e.2.1.isEmpty)
  obtain ⟨hmem', hcst⟩ := sameStore_foldl _ (fun t (e : Nat × List Nat × List Nat) => sameStore_complete t e.1 stOk 0 0 0)
    ((s.freesWithout p).filter fun e => e.2.1.isEmpty) (s.withFrees ((s.freesWithout p).filter fun e => !e.2.1.isEmpty))
  exact ⟨hmem'.trans hmem, (congrArg Cst.pages hcst).trans hpages⟩

theorem exec_pageWipeDone {s : State} {page : Fin 131072} (howner : (s.page page).owner = 6)
    (hheld : (s.cst.frees.any fun e => e.2.1.contains page.val && !s.blitsDone e.2.2) = false) :
    exec (.pageWipeDone page) s = .next ((s.pageZeroed page).freesDone page).evFlush.settle := by
  have hwipes : ¬((s.page page).owner ≠ 6 ∨ (s.cst.frees.any fun e => e.2.1.contains page.val && !s.blitsDone e.2.2) = true) := by
    rw [howner, hheld]
    decide
  exact congrArg finish (if_neg hwipes)

/-- Settles O46: what follows the zero-fill touches neither the memories nor the pages. -/
theorem wipedPagesReadZero : Obligations.WipedPagesReadZero := by
  intro s page howner hheld
  obtain ⟨hmem, hpages⟩ := freesDone_keeps (s.pageZeroed page) page
  have hzeroed : ((s.pageZeroed page).freesDone page).evFlush.settle.mem = csZero s.mem (4096 * page.val) (4096 * page.val + 4096) := by
    rw [settle_mem, evFlush_mem, hmem, pageZeroed_mem]
  have hfree : ((s.pageZeroed page).freesDone page).evFlush.settle.cst.pages = (s.pageZeroed page).cst.pages := by
    rw [settle_cst, evFlush_cst, hpages]
  refine ⟨_, exec_pageWipeDone howner hheld, ?free, fun o hlo hhi => ?zero, fun o hout => ?kept, ?_, ?_, ?_⟩
  case free => rw [page_congr hfree, page_pageZeroed]
  case zero => rw [hzeroed, csRead_csZero, if_pos ⟨hlo, hhi⟩]
  case kept => rw [hzeroed, csRead_csZero, if_neg (by omega)]
  all_goals rw [hzeroed]; rfl

/-! ### The whole store (R201) -/

/-- The store, wiped and ready; the requests that waited still wait. -/
def State.storeWiped (s : State) : State :=
  let t : State := { s with mem := { s.mem with cs := [], csFlip := [] }, cst := { s.cst with pages := [], runs := [], frees := [] } }
  (((t.wr Reg.CST_CSTSTAT_WIPING 0).wr Reg.CST_CSTSTAT_READY 1).pageCounts).ev (evCst 6)

theorem exec_csWipeDone {s : State} (h : s.rd Reg.CST_CSTSTAT_WIPING = 1) :
    exec .csWipeDone s = .next s.storeWiped.serveStalled.evFlush.settle := by
  have hwipes : ¬s.rd Reg.CST_CSTSTAT_WIPING = 0 := by omega
  exact congrArg finish (if_neg hwipes)

theorem rd_storeWiped_ready (s : State) : s.storeWiped.rd Reg.CST_CSTSTAT_READY = 1 := by
  rw [State.storeWiped, rd_ev _ _ _ _ _ _ _ _ (by decide), rd_pageCounts _ _ _ (by decide) (by decide) (by decide), rd_wr_same]
  rfl

theorem rd_storeWiped_wiping (s : State) : s.storeWiped.rd Reg.CST_CSTSTAT_WIPING = 0 := by
  rw [State.storeWiped, rd_ev _ _ _ _ _ _ _ _ (by decide), rd_pageCounts _ _ _ (by decide) (by decide) (by decide),
    rd_wr_field _ _ _ _ _ _ (by decide), rd_wr_same]
  rfl

/-- Where no request waited, none is served. -/
theorem serveStalled_mem_of_nil {s : State} (h : s.stalled = []) : s.serveStalled.mem = s.mem := by
  unfold State.serveStalled
  rw [h]
  rfl

theorem storeWiped_mem (s : State) : s.storeWiped.mem = { s.mem with cs := [], csFlip := [] } := by
  rw [State.storeWiped, ev_mem, (pageCounts_keeps _).1, wr_mem, wr_mem]

theorem storeWiped_pages (s : State) : s.storeWiped.cst.pages = [] := by
  rw [State.storeWiped, ev_cst, (pageCounts_keeps _).2.1, wr_cst, wr_cst]

theorem storeWiped_stalled (s : State) : s.storeWiped.stalled = s.stalled := by
  rw [State.storeWiped, (ev_told ..).stalled, (pageCounts_keeps _).2.2, wr_stalled, wr_stalled]

/-- Settles O47. -/
theorem storeWipeLeavesZeroes : Obligations.StoreWipeLeavesZeroes := by
  intro s hwiping
  refine ⟨s.storeWiped, exec_csWipeDone hwiping, storeWiped_stalled s, fun o => ?zero, fun l => ?codes, rd_storeWiped_ready s,
    rd_storeWiped_wiping s, fun p => ?free, ?_, ?_, fun hnone => ?idle⟩
  case zero => rw [storeWiped_mem]; rfl
  case codes => rw [State.csBad, State.csFound, storeWiped_mem]; rfl
  case free => rw [State.page, storeWiped_pages]; rfl
  case idle => rw [settle_mem, evFlush_mem, serveStalled_mem_of_nil ((storeWiped_stalled s).trans hnone)]
  all_goals rw [storeWiped_mem]

end Machine
end Sys2Proof
end

section
/-! PROOFS. The rate step keeps the QP and the cap of a row within their bounds (R115). -/

namespace Sys2Proof.Machine

/-- The QP rises from where it starts, and no further than QP_MAX. -/
theorem qpFuel_bounds (n qmax bits pq : Nat) (share : Int) : ∀ qp, qp ≤ qmax →
    qp ≤ qpFuel n qp qmax bits pq share ∧ qpFuel n qp qmax bits pq share ≤ qmax := by
  induction n with
  | zero => exact fun qp h => ⟨le_rfl, h⟩
  | succ n ih =>
    intro qp h
    unfold qpFuel
    split
    · next hrise =>
      obtain ⟨hlo, hhi⟩ := ih (qp + 1) hrise.1
      exact ⟨(Nat.le_succ qp).trans hlo, hhi⟩
    · exact ⟨le_rfl, h⟩

/-- A row has one floor form for every CTU column. -/
theorem formsOf_length (st : RcSt) (cols codec frame row : Nat) (allIntra : Bool) (ref0 : Option Nat) :
    (st.formsOf cols codec frame row allIntra ref0).length = cols := by
  unfold RcSt.formsOf
  split
  · exact List.length_replicate
  · rw [List.length_map, List.length_range]

/-- A row's QP rises from TARGET_QP where the row of the picture before, `(frame, BITS, QP)`, is known. -/
theorem qp_of_history (last : Nat × Nat × Nat) (frame start tq qmax : Nat) (share : Int) :
    let qp := if last.1 + 1 = frame ∧ start < last.1 then qpFuel 64 tq qmax last.2.1 last.2.2 share else tq
    qp = tq ∨ ∃ bits pq share, qp = qpFuel 64 tq qmax bits pq share := by
  dsimp only
  split
  · exact .inr ⟨_, _, _, rfl⟩
  · exact .inl rfl

/-- What the step gives: `u` is the state with the budget of a picture that begins. -/
theorem plan_shape (st : RcSt) (c : Chan) (slack frame row pfx : Nat) (allIntra : Bool) (ref0 : Option Nat) :
    let r := st.plan c slack frame row pfx allIntra ref0
    ∃ (u : RcSt) (most : Int), r.2.forms = u.formsOf c.cols c.coding.codec frame row allIntra ref0 ∧
      u.set = st.set ∧ r.1.set = u.set ∧ r.1.lastQp = r.2.qp ∧ r.1.lastCap = r.2.cap ∧
      r.2.cap = (max (floorRow c.coding.codec (sliceCols c.raster) r.2.forms : Int) most).toNat ∧
      (r.2.qp = u.set.tq ∨ ∃ bits pq share, r.2.qp = qpFuel 64 u.set.tq u.set.qmax bits pq share) := by
  intro r
  refine ⟨_, _, rfl, ?budget, rfl, rfl, rfl, rfl, ?qp⟩
  case budget => split <;> rfl
  case qp =>
    exact qp_of_history _ _ _ _ _ _

/-- Settles O48: the cap is the larger of the floor and what the budget allows, and the QP is TARGET_QP or raised from it. -/
theorem rateStepKeepsItsBounds : Obligations.RateStepKeepsItsBounds := by
  intro st c slack frame row pfx allIntra ref0 r
  obtain ⟨u, most, hforms, hbudget, hset, hqp, hcap, hmax, hraised⟩ := plan_shape st c slack frame row pfx allIntra ref0
  rw [hbudget] at hset hraised
  refine ⟨hset, fun hordered => ?qp, ?cap, ?forms, hqp, hcap⟩
  case qp =>
    rcases hraised with h | ⟨bits, pq, share, h⟩
    · exact ⟨h.ge, h.trans_le hordered⟩
    · obtain ⟨hlo, hhi⟩ := qpFuel_bounds 64 _ bits pq share _ hordered
      exact ⟨hlo.trans h.ge, h.trans_le hhi⟩
  case cap =>
    rw [hmax]
    exact (Int.toNat_natCast _).ge.trans (Int.toNat_le_toNat (le_max_left _ _))
  case forms => exact (congrArg List.length hforms).trans (formsOf_length ..)

end Sys2Proof.Machine
end

section
/-! PROOFS. Layout of completion entries and event records (R240, R446). -/

namespace Sys2Proof

/-- Little-endian fields one after another, as (bytes, value). -/
def leFields (fs : List (Nat × Nat)) : Bytes := fs.flatMap fun f => toLe f.1 f.2

theorem toLe_length (n v : Nat) : (toLe n v).length = n := by
  induction n generalizing v with
  | zero => rfl
  | succ n ih => rw [toLe, List.length_cons, ih]

theorem leNat_toLe (n v : Nat) : leNat (toLe n v) = v % 256 ^ n := by
  induction n generalizing v with
  | zero => rw [toLe, leNat, pow_zero, Nat.mod_one]
  | succ n ih =>
    rw [toLe, leNat, ih, Nat.pow_succ', Nat.mod_mul]
    rfl

/-- The same by bits. -/
theorem leNat_toLe_bits (n v : Nat) : leNat (toLe n v) = v % 2 ^ (8 * n) := by
  rw [leNat_toLe, pow_mul]
  norm_num

theorem leFields_length (fs : List (Nat × Nat)) : (leFields fs).length = (fs.map Prod.fst).sum := by
  rw [leFields, List.length_flatMap]
  simp only [toLe_length]

/-- The bytes that stand between two others. -/
theorem bytesAt_append (a b c : Bytes) : bytesAt (a ++ (b ++ c)) a.length b.length = b := by
  unfold bytesAt
  refine List.ext_getElem (by rw [List.length_map, List.length_range]) fun i hi hb => ?_
  rw [List.getElem_map, List.getElem_range, List.getD_append_right _ _ _ _ (Nat.le_add_right _ _), Nat.add_sub_cancel_left,
    List.getD_append _ _ _ _ hb, List.getD_eq_getElem _ _ hb]

/-- A field reads its value, cut to its bytes, where the fields before it end. -/
theorem fld_leFields (fs : List (Nat × Nat)) (n v : Nat) (gs : List (Nat × Nat)) :
    fld (leFields (fs ++ (n, v) :: gs)) (fs.map Prod.fst).sum n = v % 2 ^ (8 * n) := by
  have hsplit : leFields (fs ++ (n, v) :: gs) = leFields fs ++ (toLe n v ++ leFields gs) := by
    rw [leFields, List.flatMap_append, List.flatMap_cons]
    rfl
  have hbytes := bytesAt_append (leFields fs) (toLe n v) (leFields gs)
  rw [leFields_length, toLe_length] at hbytes
  rw [fld, hsplit, hbytes, leNat_toLe_bits]

/-- The same by the number of the field. -/
theorem fld_leFields_at (fs : List (Nat × Nat)) (k : Nat) :
    fld (leFields fs) ((fs.take k).map Prod.fst).sum (fs.getD k (0, 0)).1 = (fs.getD k (0, 0)).2 % 2 ^ (8 * (fs.getD k (0, 0)).1) := by
  by_cases hk : k < fs.length
  · have hsplit : fs = fs.take k ++ fs[k] :: fs.drop (k + 1) := by rw [← List.drop_eq_getElem_cons hk, List.take_append_drop]
    have hfield := fld_leFields (fs.take k) fs[k].1 fs[k].2 (fs.drop (k + 1))
    rw [Prod.mk.eta, ← hsplit] at hfield
    rwa [List.getD_eq_getElem _ _ hk]
  · rw [List.getD_eq_default _ _ (Nat.not_lt.mp hk)]
    rfl

namespace Machine

theorem entryBytes_eq (tag status st fl detail hd op r0 r1 : Nat) : entryBytes tag status st fl detail hd op r0 r1 =
    leFields [(2, tag), (2, status), (1, st), (1, fl), (2, detail), (2, hd), (2, op), (4, 0), (8, r0), (8, r1)] := rfl

theorem recBytes_eq (r : Rec) (fl : Nat) : recBytes r fl =
    leFields [(2, r.src), (1, fl), (1, r.channel), (4, r.detail), (8, r.ns / 1000000000), (4, r.ns % 1000000000), (4, r.occ), (8, r.aux)] := rfl

/-- Settles O51: both are little-endian fields one after another. -/
theorem entriesHaveTheirLayout : Obligations.EntriesHaveTheirLayout := by
  refine ⟨fun tag status st fl detail hd op r0 r1 => ?_, fun r fl => ?_⟩
  · rw [entryBytes_eq]
    exact ⟨leFields_length _, fld_leFields_at _ 0, fld_leFields_at _ 1, fld_leFields_at _ 2, fld_leFields_at _ 3, fld_leFields_at _ 4,
      fld_leFields_at _ 5, fld_leFields_at _ 6, fld_leFields_at _ 7, fld_leFields_at _ 8, fld_leFields_at _ 9⟩
  · rw [recBytes_eq]
    exact ⟨leFields_length _, fld_leFields_at _ 0, fld_leFields_at _ 1, fld_leFields_at _ 2, fld_leFields_at _ 3, fld_leFields_at _ 4,
      fld_leFields_at _ 5, fld_leFields_at _ 6, fld_leFields_at _ 7⟩

end Machine
end Sys2Proof
end

section
/-! PROOFS. The guard table counts an activate and replaces the smallest count (R401). -/

namespace Sys2Proof.Machine

/-- The smallest count of a table, from a bound down. -/
theorem foldl_min_spec (t : List (Nat × Nat)) : ∀ m : Nat,
    let least := t.foldl (fun m e => min m e.2) m
    least ≤ m ∧ (∀ e ∈ t, least ≤ e.2) ∧ (least = m ∨ ∃ e ∈ t, least = e.2) := by
  induction t with
  | nil => exact fun m => ⟨le_rfl, nofun, .inl rfl⟩
  | cons x t ih =>
    intro m
    obtain ⟨hbound, hall, hsome⟩ := ih (min m x.2)
    rw [List.foldl_cons]
    refine ⟨hbound.trans (min_le_left _ _), ?_, ?_⟩
    · rintro e (_ | ⟨_, he⟩)
      · exact hbound.trans (min_le_right _ _)
      · exact hall e he
    · rcases hsome with h | ⟨e, he, h⟩
      · rcases min_choice m x.2 with hm | hx
        · exact .inl (h.trans hm)
        · exact .inr ⟨x, List.mem_cons_self, h.trans hx⟩
      · exact .inr ⟨e, List.mem_cons_of_mem x he, h⟩

/-- The smallest count of a table that holds a row. -/
def leastCount (t : List (Nat × Nat)) : Nat := t.foldl (fun m e => min m e.2) (t.headD (0, 0)).2

theorem leastCount_spec {t : List (Nat × Nat)} (h : t ≠ []) : (∃ e ∈ t, leastCount t = e.2) ∧ ∀ e ∈ t, leastCount t ≤ e.2 := by
  obtain ⟨x, t, rfl⟩ := List.exists_cons_of_ne_nil h
  obtain ⟨-, hall, hsome⟩ := foldl_min_spec (x :: t) x.2
  refine ⟨?_, hall⟩
  rcases hsome with hx | he
  · exact ⟨x, List.mem_cons_self, hx⟩
  · exact he

/-- Two counts of one row in a table that lists it once. -/
theorem count_unique {t : List (Nat × Nat)} (hnodup : (t.map Prod.fst).Nodup) {row n m : Nat} (hn : (row, n) ∈ t) (hm : (row, m) ∈ t) :
    n = m := (Prod.mk.inj (List.inj_on_of_nodup_map hnodup hn hm rfl)).2

/-! ### The three cases of an activate -/

/-- A listed row. -/
theorem guardHit_listed {t : List (Nat × Nat)} {row n : Nat} (hnodup : (t.map Prod.fst).Nodup) (h : (row, n) ∈ t) :
    guardHit t row = (n + 1, t.map fun x => if x.1 = row then (row, x.2 + 1) else x) := by
  obtain ⟨e, he⟩ := Option.isSome_iff_exists.mp ((List.find?_isSome (p := fun e : Nat × Nat => e.1 = row)).mpr ⟨_, h, by simp⟩)
  have hkey : e.1 = row := by simpa using List.find?_some he
  have hcount : e.2 = n := count_unique hnodup (hkey ▸ List.mem_of_find?_eq_some he) h
  simp only [guardHit, he, hcount]

theorem find?_unlisted {t : List (Nat × Nat)} {row : Nat} (h : row ∉ t.map Prod.fst) : (t.find? fun e => e.1 = row) = none :=
  List.find?_eq_none.mpr fun e he heq => h (List.mem_map.mpr ⟨e, he, of_decide_eq_true heq⟩)

/-- An unlisted row while there is room. -/
theorem guardHit_room {t : List (Nat × Nat)} {row : Nat} (h : row ∉ t.map Prod.fst) (hroom : t.length < 16) :
    guardHit t row = (1, t ++ [(row, 1)]) := by
  simp only [guardHit, find?_unlisted h, if_pos hroom]

/-- An unlisted row takes over an entry of a full table. -/
theorem guardHit_full {t : List (Nat × Nat)} {row : Nat} (h : row ∉ t.map Prod.fst) (hfull : t.length = 16) :
    ∃ i < t.length, guardHit t row = (leastCount t + 1, t.set i (row, leastCount t + 1)) := by
  refine ⟨(t.findIdx? fun e => e.2 = leastCount t).getD 0, ?_, ?_⟩
  · cases hi : t.findIdx? fun e => e.2 = leastCount t with
    | none => exact hfull ▸ Nat.zero_lt_succ 15
    | some i => exact (List.findIdx?_eq_some_iff_getElem.mp hi).1
  · simp only [guardHit, find?_unlisted h, if_neg (show ¬t.length < 16 by omega)]
    rfl

/-- The rows of a table in which one count rises. -/
theorem map_fst_count (t : List (Nat × Nat)) (row : Nat) :
    (t.map fun x => if x.1 = row then (row, x.2 + 1) else x).map Prod.fst = t.map Prod.fst := by
  rw [List.map_map]
  refine List.map_congr_left fun x _ => ?_
  by_cases h : x.1 = row <;> simp [h]

/-- Settles O56. -/
theorem guardTableCountsActivates : Obligations.GuardTableCountsActivates := by
  intro t row hlen hnodup
  by_cases hrow : row ∈ t.map Prod.fst
  · obtain ⟨⟨key, n⟩, hmem, hkey⟩ := List.mem_map.mp hrow
    obtain rfl : key = row := hkey
    rw [guardHit_listed hnodup hmem]
    refine ⟨by rwa [List.length_map], by rwa [map_fst_count], List.mem_map.mpr ⟨_, hmem, if_pos rfl⟩,
      fun m hm => congrArg (· + 1) (count_unique hnodup hmem hm), fun h => absurd hrow h, fun h => absurd hrow h, fun e he hne => ?_⟩
    obtain ⟨x, hx, rfl⟩ := List.mem_map.mp he
    by_cases hxrow : x.1 = key
    · simp [hxrow] at hne
    · rwa [if_neg hxrow]
  · have hunlisted : ∀ n, (row, n) ∉ t := fun n hn => hrow (List.mem_map.mpr ⟨_, hn, rfl⟩)
    by_cases hroom : t.length < 16
    · rw [guardHit_room hrow hroom]
      refine ⟨?_, ?_, List.mem_append_right t (List.mem_singleton_self _), fun n hn => absurd hn (hunlisted n),
        fun _ _ => ⟨rfl, fun e he => List.mem_append_left _ he⟩, fun _ hfull => by omega, fun e he hne => ?_⟩
      · rw [List.length_append, List.length_singleton]
        exact hroom
      · rw [List.map_append]
        exact hnodup.append (List.nodup_singleton row) (by simpa using hunlisted)
      · rcases List.mem_append.mp he with h | h
        · exact h
        · exact absurd (congrArg Prod.fst (List.mem_singleton.mp h)) hne
    · have hfull : t.length = 16 := by omega
      obtain ⟨i, hi, heq⟩ := guardHit_full hrow hfull
      obtain ⟨⟨e, he, hleast⟩, hmin⟩ := leastCount_spec (List.ne_nil_of_length_pos (by omega : 0 < t.length))
      rw [heq]
      refine ⟨by rwa [List.length_set], ?_, List.mem_set hi _, fun n hn => absurd hn (hunlisted n),
        fun _ h => absurd h hroom, fun _ _ => ⟨⟨e, he, congrArg (· + 1) hleast⟩, fun e he => Nat.succ_le_succ (hmin e he)⟩, fun e he hne => ?_⟩
      · rw [List.map_set]
        exact hnodup.set hrow
      · rcases List.mem_or_eq_of_mem_set he with h | rfl
        · exact h
        · exact absurd rfl hne

end Sys2Proof.Machine
end

section
/-! PROOFS. A register write reaches one field (R10); the commits of a command are numbered in order (R239). -/

namespace Sys2Proof.Machine

/-- Settles O54: fields and instances have places of their own. -/
theorem registerWritesReachOneField : Obligations.RegisterWritesReachOneField := by
  intro s r r' v i j i' j' hi hj hi' hj'
  refine ⟨rd_wr_same s r v i j, fun hne => rd_wr_other s v i j i' j' fun hkey => hne ?_⟩
  obtain ⟨hid, hinst, hindex⟩ := rowKey_eq_iff.mp hkey
  rw [Nat.mod_eq_of_lt hi', Nat.mod_eq_of_lt hi] at hinst
  rw [Nat.mod_eq_of_lt hj', Nat.mod_eq_of_lt hj] at hindex
  rw [hid, hinst, hindex]

/-! ### Numbering -/

@[simp] theorem flow_setFlow_same (s : State) (f : Nat) (v : Flow) : (s.setFlow f v).flow f = v := tget_tset_same ..
theorem flow_setFlow_other (s : State) {f g : Nat} (v : Flow) (h : g ≠ f) : (s.setFlow f v).flow g = s.flow g := tget_tset_other _ _ _ _ h

/-- The commit flow of a channel; that of device commits. -/
def commitFlow (n : Nat) : Nat := if n < 64 then 0x100 + n else 0x140

/-- One commit takes the next number of its flow. -/
def numberOne (acc : List Commit × State) (c : Commit) : List Commit × State :=
  (acc.1 ++ [{ c with fseq := (acc.2.flow (commitFlow c.ch)).next }],
    acc.2.setFlow (commitFlow c.ch) { acc.2.flow (commitFlow c.ch) with next := (acc.2.flow (commitFlow c.ch)).next + 1 })

theorem number_eq (s : State) (cs : List Commit) : s.number cs = cs.foldl numberOne ([], s) := rfl

/-- Numbering from any list of commits already numbered. -/
theorem foldl_numberOne (n : Nat) (cs : List Commit) : ∀ (done : List Commit) (s : State), (∀ c ∈ cs, c.ch = n) →
    ∃ (l : List Commit) (t : State), cs.foldl numberOne (done, s) = (done ++ l, t) ∧
      l.map (·.fseq) = (List.range cs.length).map ((s.flow (commitFlow n)).next + ·) ∧ l.map (·.kind) = cs.map (·.kind) ∧
      (t.flow (commitFlow n)).next = (s.flow (commitFlow n)).next + cs.length ∧ ∀ g, g ≠ commitFlow n → t.flow g = s.flow g := by
  induction cs with
  | nil => exact fun done s _ => ⟨[], s, by simp⟩
  | cons c cs ih =>
    intro done s h
    obtain ⟨rfl, hcs⟩ := List.forall_mem_cons.mp h
    obtain ⟨l, t, hfold, hseq, hkind, hnext, hother⟩ := ih (numberOne (done, s) c).1 (numberOne (done, s) c).2 hcs
    have hstep : ((numberOne (done, s) c).2.flow (commitFlow c.ch)).next = (s.flow (commitFlow c.ch)).next + 1 := by
      rw [numberOne, flow_setFlow_same]
    refine ⟨{ c with fseq := (s.flow (commitFlow c.ch)).next } :: l, t, ?_, ?_, ?_, ?_, fun g hg => ?_⟩
    · rw [List.foldl_cons, hfold, numberOne, List.append_assoc, List.singleton_append]
    · rw [List.map_cons, hseq, hstep, List.length_cons, List.range_succ_eq_map, List.map_cons, List.map_map]
      refine congrArg _ (List.map_congr_left fun i _ => ?_)
      simp only [Function.comp_apply]
      omega
    · rw [List.map_cons, List.map_cons, hkind]
    · rw [hnext, hstep, List.length_cons]
      omega
    · rw [hother g hg, numberOne, flow_setFlow_other _ _ hg]

/-- Settles O50. -/
theorem commitsAreNumberedInOrder : Obligations.CommitsAreNumberedInOrder := by
  intro s n cs h
  obtain ⟨l, t, hfold, hseq, hkind, hnext, hother⟩ := foldl_numberOne n cs [] s h
  rw [number_eq, hfold]
  exact ⟨hseq, hkind, hnext, hother⟩

end Sys2Proof.Machine
end

section
/-! PROOFS. An error response is counted, and recorded only while VALID is 0 (R418). The reply of the command that a core was interpreting (R419) touches no
register of the control matrix. -/

namespace Sys2Proof.Machine

/-! ### Registers that a reply touches -/

/-- Only fields of `ids` differ. -/
def RegsKept (ids : List Nat) (s t : State) : Prop := ∀ (r : Row) (i j : Nat), r.id ∉ ids → t.rd r i j = s.rd r i j

section
variable {ids : List Nat}

theorem RegsKept.refl (s : State) : RegsKept ids s s := fun _ _ _ _ => rfl
theorem RegsKept.trans {s t u : State} (h : RegsKept ids s t) (k : RegsKept ids t u) : RegsKept ids s u :=
  fun r i j hr => (k r i j hr).trans (h r i j hr)
theorem regsKept_of_regs {s t : State} (h : t.regs = s.regs) : RegsKept ids s t := fun r i j _ => rd_congr h r i j
theorem regsKept_wr (s : State) {r : Row} (v i j : Nat) (h : r.id ∈ ids) : RegsKept ids s (s.wr r v i j) :=
  fun _ _ _ hr => rd_wr_field s _ _ _ _ _ fun e => hr (e ▸ h)
theorem regsKept_ev (s : State) (src ch detail aux : Nat) (h : Reg.EVT_STAT_BITS.id ∈ ids) : RegsKept ids s (s.ev src ch detail aux) :=
  fun r i j hr => rd_ev s src ch detail aux r i j fun e => hr (e ▸ h)
theorem regsKept_foldl {α : Type} {f : State → α → State} (h : ∀ (s : State) (a : α), RegsKept ids s (f s a)) :
    ∀ (l : List α) (s : State), RegsKept ids s (l.foldl f s)
  | [], s => .refl s
  | a :: l, s => (h s a).trans (regsKept_foldl h l (f s a))

end

/-- The fields that a reply can touch: those of its queue, of the check value unit 956, of the Spindle's pool, stall and log, and the status bits. -/
def replyIds : List Nat :=
  [Reg.HIF_QSTAT_CQTAIL.id, Reg.HIF_QSTAT_PHASE.id, Reg.HIF_QSTAT_CQFULL.id, Reg.HIF_QSTAT_HALTED.id, Reg.EVT_STAT_BITS.id,
   Reg.SPD_POOL_FREE.id, Reg.SPD_POOLMAX_USED.id, Reg.SPD_GSEQ_NEXT.id, Reg.SPD_SPDSTAT_STALL.id, Reg.SPD_TRACESTAT_STOPPED.id,
   Reg.SPD_TRACESTAT_COUNT.id, Reg.SPD_TRACESTAT_WRAPPED.id, Reg.SPD_TRACEHEAD_INDEX.id] ++ postIds

theorem regsKept_cvuItem (s : State) (u : Nat) (p : Bytes) (addr seq : Option Nat) : RegsKept replyIds s (s.cvuItem u p addr seq) :=
  fun r i j hr => (posted_cvuItem s u p addr seq).reg r i j fun h => hr (List.mem_append_right _ h)

theorem regsKept_signal (s : State) (q : Nat) (u : Bool) : RegsKept replyIds s (s.signal q u) := by
  unfold State.signal
  dsimp only
  split <;> exact regsKept_of_regs rfl

theorem regsKept_ringSlot (s : State) (q : Nat) : RegsKept replyIds s (s.ringSlot q).2 := by
  unfold State.ringSlot
  dsimp only
  generalize hu : s.setQue q _ = u
  have hque : RegsKept replyIds s u := regsKept_of_regs (hu ▸ rfl)
  split
  · exact (hque.trans (regsKept_wr _ _ _ _ (by decide))).trans (regsKept_wr _ _ _ _ (by decide))
  · exact hque.trans (regsKept_wr _ _ _ _ (by decide))

theorem regsKept_poolNote (s : State) (n : Nat) : RegsKept replyIds s (s.poolNote n) := by
  unfold State.poolNote
  generalize s.genCount = k
  have hcounts : RegsKept replyIds s ((s.wr Reg.SPD_POOL_FREE k).wrMax Reg.SPD_POOLMAX_USED (14336 - k)) :=
    (regsKept_wr _ _ _ _ (by decide)).trans (regsKept_wr _ _ _ _ (by decide))
  dsimp only
  split
  · exact hcounts.trans (regsKept_ev _ _ _ _ _ (by decide))
  · exact hcounts

theorem regsKept_putTask (s : State) (d : Nat) (t : Task) : RegsKept replyIds s (s.putTask d t) := by
  have hseq (v : Task) : RegsKept replyIds s ((s.wr Reg.SPD_GSEQ_NEXT (s.rd Reg.SPD_GSEQ_NEXT + 1)).setTask d v) :=
    RegsKept.trans (regsKept_wr s _ _ _ (by decide)) (regsKept_of_regs rfl)
  unfold State.putTask
  dsimp only
  split
  · exact hseq _
  · exact (hseq _).trans (regsKept_poolNote _ _)

theorem regsKept_commitTask (s : State) (c : Commit) : RegsKept replyIds s (s.commitTask c).2 := by
  unfold State.commitTask
  split
  · exact .refl s
  · exact regsKept_putTask _ _ _

theorem regsKept_handCommit (s : State) (c : Commit) : RegsKept replyIds s (s.handCommit c) := by
  have h := regsKept_commitTask s c
  unfold State.handCommit
  generalize s.commitTask c = x at h
  obtain ⟨d, t⟩ := x
  dsimp only at h ⊢
  split
  · exact .refl s
  split
  · exact h.trans (regsKept_of_regs rfl)
  split
  · exact h.trans (RegsKept.trans (t := t.setChan _ _) (regsKept_of_regs rfl) (regsKept_ev _ _ _ _ _ (by decide)))
  · exact h.trans (regsKept_of_regs rfl)

theorem regsKept_postEntry (s : State) (q : Nat) (r : Rply) : RegsKept replyIds s (s.postEntry q r) := by
  have hentry (v : Bytes) (a b : Option Nat) (o : Out) : RegsKept replyIds s (((s.ringSlot q).2.cvuItem 956 v a b).emit o) :=
    ((regsKept_ringSlot s q).trans (regsKept_cvuItem _ _ _ _ _)).trans (regsKept_of_regs rfl)
  have hfull (t : State) : RegsKept replyIds t ((t.wr Reg.HIF_QSTAT_CQFULL 1 0 q).ev (evHif 6)) :=
    (regsKept_wr _ _ _ _ (by decide)).trans (regsKept_ev _ _ _ _ _ (by decide))
  unfold State.postEntry
  dsimp only
  refine RegsKept.trans ?_ (regsKept_foldl regsKept_handCommit _ _)
  generalize hx : State.emit _ _ = x
  have hposted : RegsKept replyIds s x := hx ▸ hentry _ _ _ _
  have hque (v : Que) : RegsKept replyIds s (x.setQue q v) := hposted.trans (regsKept_of_regs rfl)
  split <;> split
  · exact (hque _).trans (regsKept_signal _ _ _)
  · exact ((hque _).trans (regsKept_signal _ _ _)).trans (hfull _)
  · exact hposted.trans (regsKept_signal _ _ _)
  · exact (hposted.trans (regsKept_signal _ _ _)).trans (hfull _)

theorem regsKept_traceStop (s : State) : RegsKept replyIds s s.traceStop :=
  (regsKept_wr _ _ _ _ (by decide)).trans (regsKept_ev _ _ _ _ _ (by decide))

theorem regsKept_traceAdd (s : State) (r : Trace) : RegsKept replyIds s (s.traceAdd r) := by
  unfold State.traceAdd
  dsimp only
  generalize hlog : ({ s with spd := _ } : State) = u
  have hu : RegsKept replyIds s u := regsKept_of_regs (hlog ▸ rfl)
  have hcount (v : Nat) := hu.trans (regsKept_wr u (r := Reg.SPD_TRACESTAT_COUNT) v 0 0 (by decide))
  split
  · exact ((hcount _).trans (regsKept_wr _ _ _ _ (by decide))).trans (regsKept_wr _ _ _ _ (by decide))
  · exact hcount _

theorem regsKept_traceTrig (s : State) (r : Trace) : RegsKept replyIds s (s.traceTrig r) := by
  have hev := regsKept_ev (ids := replyIds) s (evSpd 8) 255 0 0 (by decide)
  unfold State.traceTrig
  split
  · split
    · exact .refl s
    split
    · exact hev.trans (regsKept_traceStop _)
    · exact hev.trans (regsKept_of_regs rfl)
  · split
    · exact RegsKept.trans (t := { s with spd := { s.spd with trigLeft := none } }) (regsKept_of_regs rfl) (regsKept_traceStop _)
    · exact regsKept_of_regs rfl

theorem regsKept_traceRec (s : State) (r : Trace) : RegsKept replyIds s (s.traceRec r) := by
  have hadd := regsKept_traceAdd s r
  unfold State.traceRec
  dsimp only
  split
  · exact .refl s
  split
  · exact regsKept_traceStop s
  split
  · exact hadd.trans (regsKept_traceStop _)
  split
  · exact hadd.trans (regsKept_traceTrig _ _)
  · exact hadd

theorem regsKept_stallBegin (s : State) : RegsKept replyIds s s.stallBegin := by
  unfold State.stallBegin
  split
  · exact .refl s
  · exact ((RegsKept.trans (t := { s with spd := { s.spd with stallFrom := some s.ns } }) (regsKept_of_regs rfl)
      (regsKept_wr _ _ _ _ (by decide))).trans (regsKept_ev _ _ _ _ _ (by decide))).trans (regsKept_traceRec _ _)

theorem regsKept_postFuel (n q : Nat) : ∀ s : State, RegsKept replyIds s (postFuel n q s) := by
  induction n with
  | zero => exact .refl
  | succ n ih =>
    intro s
    unfold postFuel
    split
    · exact .refl s
    split
    · exact .refl s
    split
    · exact regsKept_stallBegin s
    · exact (RegsKept.trans (t := s.setQue q _) (regsKept_of_regs rfl) (regsKept_postEntry _ _ _)).trans (ih _)

theorem regsKept_reply (s : State) (q : Nat) (r : Rply) : RegsKept replyIds s (s.reply q r) := by
  unfold State.reply
  split
  · exact regsKept_foldl regsKept_handCommit _ _
  · exact RegsKept.trans (t := s.setQue q _) (regsKept_of_regs rfl) (regsKept_postFuel _ _ _)

theorem regsKept_halt (s : State) (q : Nat) : RegsKept replyIds s (s.halt q) :=
  (regsKept_wr _ _ _ _ (by decide)).trans (regsKept_ev _ _ _ _ _ (by decide))

/-- The answer to the command that a core was interpreting. -/
theorem regsKept_coreError (s : State) (c : Nat) : RegsKept replyIds s (s.coreError c) := by
  unfold State.coreError
  split
  · unfold State.coreAnswer
    split
    · exact .refl s
    · dsimp only
      refine RegsKept.trans ?_ (regsKept_reply _ _ _)
      split
      · exact RegsKept.trans (t := s.setQue _ _) (regsKept_of_regs rfl) (regsKept_halt _ _)
      · exact regsKept_of_regs rfl
  · exact .refl s

/-! ### A broken locked sequence -/

/-- What a transfer's master learns of the error leaves every other register alone. -/
theorem regsKept_transferFails (s : State) (kind master addr : Nat) (write : Bool) :
    RegsKept replyIds (s.errResp kind master write (addr % 2 ^ 40)) (s.transferFails kind master addr write) := by
  unfold State.transferFails
  dsimp only
  generalize hu : (if write then _ else _ : State) = u
  have htold : RegsKept replyIds (s.errResp kind master write (addr % 2 ^ 40)) u := by
    rw [← hu]
    split
    · exact .refl _
    · split <;> exact regsKept_of_regs rfl
  split
  · exact htold.trans (regsKept_coreError _ _)
  · exact htold

/-- Kind 2 has a counter and a source of its own (R417). -/
theorem errResp_lockBreak (s : State) (master : Nat) (write : Bool) (addr : Nat) : s.errResp 2 master write addr =
    (if s.rd Reg.MTX_ERRSTAT_VALID = 1 then s.incSat Reg.MTX_ERRCNT_LOCKBRK
      else (s.incSat Reg.MTX_ERRCNT_LOCKBRK).errRecord 2 master write addr).ev (evMtx 1) := by
  have hvalid : (s.incSat Reg.MTX_ERRCNT_LOCKBRK).rd Reg.MTX_ERRSTAT_VALID = s.rd Reg.MTX_ERRSTAT_VALID :=
    rd_incSat_field _ _ _ _ _ _ (by decide)
  simp only [State.errResp, State.errRecord, if_pos, hvalid]

/-- The fields of ERRSTAT, ERRADDR and ERRCNT at the end of a command that only failed a transfer. -/
theorem rd_transferFails_end {s : State} (kind master addr : Nat) (write : Bool) {r : Row} (h : r.id ∉ replyIds ++ (flushIds ++ settledIds)) :
    (s.transferFails kind master addr write).evFlush.settle.rd r = (s.errResp kind master write (addr % 2 ^ 40)).rd r := by
  rw [List.mem_append, not_or] at h
  rw [rd_evFlush_settle _ _ _ _ h.2, regsKept_transferFails _ _ _ _ _ _ _ _ h.1]

theorem rd_errRecord_valid (s : State) (kind master : Nat) (write : Bool) (addr : Nat) :
    (s.errRecord kind master write addr).rd Reg.MTX_ERRSTAT_VALID = 1 := by
  rw [State.errRecord, rd_wr_field _ _ _ _ _ _ (by decide), rd_wr_field _ _ _ _ _ _ (by decide), rd_wr_field _ _ _ _ _ _ (by decide),
    rd_wr_field _ _ _ _ _ _ (by decide), rd_wr_same]
  rfl

theorem rd_errRecord_write (s : State) (kind master : Nat) (write : Bool) (addr : Nat) :
    (s.errRecord kind master write addr).rd Reg.MTX_ERRSTAT_WRITE = bit write := by
  rw [State.errRecord, rd_wr_field _ _ _ _ _ _ (by decide), rd_wr_same]
  cases write <;> rfl

theorem rd_errRecord_lockBreak (s : State) (kind master : Nat) (write : Bool) (addr : Nat) :
    (s.errRecord kind master write addr).rd Reg.MTX_ERRCNT_LOCKBRK = s.rd Reg.MTX_ERRCNT_LOCKBRK := by
  rw [State.errRecord, rd_wr_field _ _ _ _ _ _ (by decide), rd_wr_field _ _ _ _ _ _ (by decide), rd_wr_field _ _ _ _ _ _ (by decide),
    rd_wr_field _ _ _ _ _ _ (by decide), rd_wr_field _ _ _ _ _ _ (by decide)]

/-- A broken sequence that finds VALID at 1 only counts. -/
theorem rd_errResp_lockBreak_valid {s : State} (h : s.rd Reg.MTX_ERRSTAT_VALID = 1) (master : Nat) (write : Bool) (addr : Nat) {r : Row}
    (hr : r.id ≠ Reg.EVT_STAT_BITS.id) :
    (s.errResp 2 master write addr).rd r = (s.incSat Reg.MTX_ERRCNT_LOCKBRK).rd r := by
  rw [errResp_lockBreak, if_pos h, rd_ev _ _ _ _ _ _ _ _ hr]

/-- One that finds VALID at 0 is recorded as well. -/
theorem rd_errResp_lockBreak_clear {s : State} (h : s.rd Reg.MTX_ERRSTAT_VALID ≠ 1) (master : Nat) (write : Bool) (addr : Nat) {r : Row}
    (hr : r.id ≠ Reg.EVT_STAT_BITS.id) :
    (s.errResp 2 master write addr).rd r = ((s.incSat Reg.MTX_ERRCNT_LOCKBRK).errRecord 2 master write addr).rd r := by
  rw [errResp_lockBreak, if_neg h, rd_ev _ _ _ _ _ _ _ _ hr]

theorem exec_lockSequenceBreak {s : State} (m : Fin 15) (a : Nat) (w : Bool) (hfclk : s.fclk = true) :
    exec (.lockSequenceBreak m a w) s = .next (s.transferFails 2 m a w).evFlush.settle := congrArg finish (if_pos hfclk)

/-- Settles O55. -/
theorem errorResponsesAreRecordedOnce : Obligations.ErrorResponsesAreRecordedOnce := by
  intro s m a w hfclk
  refine ⟨_, exec_lockSequenceBreak m a w hfclk, ?_⟩
  rw [rd_transferFails_end _ _ _ _ (by decide), rd_transferFails_end _ _ _ _ (by decide), rd_transferFails_end _ _ _ _ (by decide),
    rd_transferFails_end _ _ _ _ (by decide), rd_transferFails_end _ _ _ _ (by decide), rd_transferFails_end _ _ _ _ (by decide)]
  have hfits : m.val % 2 ^ Reg.MTX_ERRSTAT_MASTER.w = m.val := Nat.mod_eq_of_lt (m.isLt.trans (by decide))
  by_cases hvalid : s.rd Reg.MTX_ERRSTAT_VALID = 1
  · refine ⟨?_, ?_, fun _ => ⟨?_, ?_, ?_, ?_⟩, fun h => absurd hvalid h⟩ <;> rw [rd_errResp_lockBreak_valid hvalid _ _ _ (by decide)]
    · rw [rd_incSat_field _ _ _ _ _ _ (by decide), hvalid]
    · exact rd_incSat_same ..
    all_goals exact rd_incSat_field _ _ _ _ _ _ (by decide)
  · refine ⟨?_, ?_, fun h => absurd h hvalid, fun _ => ⟨?_, ?_, ?_, ?_⟩⟩ <;> rw [rd_errResp_lockBreak_clear hvalid _ _ _ (by decide)]
    · exact rd_errRecord_valid ..
    · rw [rd_errRecord_lockBreak, rd_incSat_same]
    · rw [rd_errRecord_addr]
      exact Nat.mod_mod _ _
    · rw [rd_errRecord_master, hfits]
    · exact rd_errRecord_kind ..
    · exact rd_errRecord_write ..

end Sys2Proof.Machine
end

section
/-! PROOFS. Host commands complete: a command that its queue takes has its effect and its answer (R235 to R244). -/

namespace Sys2Proof.Machine

/-- A command whose meaning is the shared path of host commands completes. -/
theorem completes_of_hostCmd {mk : Hdr → Bytes → Instr} {op : Nat} {chk : OpChk} {run : OpRun}
    (h : ∀ hd p s, exec (mk hd p) s = finish (s.hostCmd (mk hd p) op hd p chk run)) : Completes mk op chk run := fun s hd p ht => by
  rw [h, hostCmd_takes s _ op hd p chk run ht]
  rfl

/-! ### The commands with an effect of their own -/

/-- Settles O6. -/
theorem deviceCommandsComplete : Obligations.DeviceCommandsComplete := by
  refine ⟨?_, ?_, ?_, ?_, ?_, ?_, ?_, ?_⟩ <;> exact completes_of_hostCmd fun _ _ _ => rfl

/-- Settles O8. -/
theorem queueCommandsComplete : Obligations.QueueCommandsComplete := by
  refine ⟨?_, ?_, ?_, ?_⟩ <;> exact completes_of_hostCmd fun _ _ _ => rfl

/-- Settles O9. -/
theorem channelStateCommandsComplete : Obligations.ChannelStateCommandsComplete := by
  refine ⟨?_, ?_, ?_, ?_, ?_, ?_, ?_, ?_, ?_, ?_⟩ <;> exact completes_of_hostCmd fun _ _ _ => rfl

/-- Settles O10. -/
theorem channelSettingCommandsComplete : Obligations.ChannelSettingCommandsComplete := by
  refine ⟨?_, ?_, ?_, ?_, ?_, ?_, ?_⟩ <;> exact completes_of_hostCmd fun _ _ _ => rfl

/-- Settles O11. -/
theorem inputOutputAudioCommandsComplete : Obligations.InputOutputAudioCommandsComplete := by
  refine ⟨?_, ?_, ?_, ?_, ?_, ?_, ?_, ?_, ?_, ?_⟩ <;> exact completes_of_hostCmd fun _ _ _ => rfl

/-- Settles O12. -/
theorem compositionCommandsComplete : Obligations.CompositionCommandsComplete := by
  refine ⟨?_, ?_, ?_, ?_, ?_, ?_, ?_, ?_, ?_⟩ <;> exact completes_of_hostCmd fun _ _ _ => rfl

/-- Settles O13. -/
theorem timePairStoreDramCommandsComplete : Obligations.TimePairStoreDramCommandsComplete := by
  refine ⟨?_, ?_, ?_, ?_, ?_, ?_, ?_, ?_, ?_, ?_, ?_, ?_, ?_⟩ <;> exact completes_of_hostCmd fun _ _ _ => rfl

/-! ### The confirmation of a trial image (R484) -/

/-- Only what a command does in the state that its queue interprets it in counts. -/
theorem carried_congr (s : State) (i : Instr) (op : Nat) (h : Hdr) (p : Bytes) {run run' : OpRun}
    (heq : ∀ c, run c p (s.front h.qid.val) = run' c p (s.front h.qid.val)) : s.carried i op h p run = s.carried i op h p run' := by
  have hperform (q ch tag eff key : Nat) : (s.front h.qid.val).perform false op q ch tag eff p key run =
      (s.front h.qid.val).perform false op q ch tag eff p key run' := by
    simp only [State.perform, heq]
  simp only [State.carried, hperform]

/-- Settles O7. -/
theorem updateConfirmCompletes : Obligations.UpdateConfirmCompletes := by
  intro s h p ht hcan
  have hrun : ∀ c, runUpdateConfirm c p (s.front h.qid.val) =
      ({ s.front h.qid.val with mgt := { (s.front h.qid.val).mgt with confirming := true, confKeys := (s.front h.qid.val).mgt.confKeys ++ [c.key] } },
        .later false) := fun c => if_neg (by rw [hcan]; decide)
  change finish (s.hostCmd (.opUpdateConfirm h p) 0x0A02 h p noChk runUpdateConfirm) = _
  rw [hostCmd_takes s _ _ h p _ _ ht, carried_congr s _ _ h p (run' := fun c _ s =>
    ({ s with mgt := { s.mgt with confirming := true, confKeys := s.mgt.confKeys ++ [c.key] } }, .later false)) hrun]
  rfl

/-! ### Reserved opcodes (R15) -/

/-- A command that nothing holds up is interpreted. -/
theorem hostCmd_interprets {s : State} {h : Hdr} (i : Instr) (op : Nat) (p : Bytes) (chk : OpChk) (run : OpRun)
    (hserved : s.served h.qid.val = true) (hcopied : (s.popFetched h.qid.val).2.1 = false)
    (hkept : ∀ f, ((s.popFetched h.qid.val).2.2.que h.qid.val).flush = some f → f ≤ (s.popFetched h.qid.val).1)
    (hordered : h.flags.toNat.testBit 1 = true → ((s.popFetched h.qid.val).2.2.que h.qid.val).owes = false)
    (hfree : ((s.popFetched h.qid.val).2.2.que h.qid.val).stopWait = none)
    (hsound : 2 ≤ h.qid.val → ((s.popFetched h.qid.val).2.2.chan (h.qid.val - 2)).intDue = false) :
    s.hostCmd i op h p chk run = (s.popFetched h.qid.val).2.2.interpAt i (s.popFetched h.qid.val).1 op h p chk run := by
  have hflush : ¬((s.popFetched h.qid.val).2.2.que h.qid.val).flushes (s.popFetched h.qid.val).1 = true := by
    unfold Que.flushes
    split
    · next f hf => simpa using hkept f hf
    · decide
  have hwait : ¬((h.flags.toNat.testBit 1 && ((s.popFetched h.qid.val).2.2.que h.qid.val).owes) ||
      ((s.popFetched h.qid.val).2.2.que h.qid.val).stopWait.isSome) = true := by
    rw [hfree]
    cases hb : h.flags.toNat.testBit 1 with
    | false => exact Bool.false_ne_true
    | true => rw [hordered hb]; exact Bool.false_ne_true
  have hfault : ¬(h.qid.val ≥ 2 ∧ ((s.popFetched h.qid.val).2.2.chan (h.qid.val - 2)).intDue = true) := by
    rintro ⟨hq, hdue⟩
    rw [hsound hq] at hdue
    exact Bool.false_ne_true hdue
  have hsounds : ¬(s.popFetched h.qid.val).2.1 = true := by rw [hcopied]; decide
  have hserves : ¬(!s.served h.qid.val) = true := by rw [hserved]; decide
  exact (if_neg hserves).trans ((if_neg hflush).trans ((if_neg hwait).trans ((if_neg hsounds).trans (if_neg hfault))))

/-- Check 1 refuses an opcode that no table defines. -/
theorem interpAt_reserved {op : Nat} (hop : opDef op = none) (s : State) (i : Instr) (pos : Nat) (h : Hdr) (p : Bytes) (chk : OpChk) (run : OpRun) :
    s.interpAt i pos op h p chk run = (((s.newKey h.qid.val).2.incWrap Reg.HIF_CMDCNT_COUNT).answer h.qid.val pos op h p h.effpt.toNat
      (s.newKey h.qid.val).1 (.final stUnsupported 1 0 0 [])) := by
  simp only [State.interpAt, State.judge, preCheck, hop, State.conclude, Ref4.ans, Option.map_none, Option.getD_none]
  rfl

theorem exec_reservedOpcodeCommand {op : Nat} (hop : opDef op = none) (h : Hdr) (p : Bytes) (s : State) :
    exec (.reservedOpcodeCommand op h p) s = finish (s.hostCmd (.reservedOpcodeCommand op h p) op h p noChk runNop) :=
  congrArg finish (if_neg (by rw [hop]; decide))

/-- Settles O14: with no fetched command ahead, the command is the one at the head of the ring. -/
theorem reservedOpcodesAreRefused : Obligations.ReservedOpcodesAreRefused := by
  have hnext : ∀ (s : State) (op : Nat) (h : Hdr) (p : Bytes), opDef op = none → s.served h.qid.val = true →
      (s.popFetched h.qid.val).2.1 = false →
      (∀ f, ((s.popFetched h.qid.val).2.2.que h.qid.val).flush = some f → f ≤ (s.popFetched h.qid.val).1) →
      (h.flags.toNat.testBit 1 = true → ((s.popFetched h.qid.val).2.2.que h.qid.val).owes = false) →
      ((s.popFetched h.qid.val).2.2.que h.qid.val).stopWait = none →
      (2 ≤ h.qid.val → ((s.popFetched h.qid.val).2.2.chan (h.qid.val - 2)).intDue = false) →
      exec (.reservedOpcodeCommand op h p) s =
        .next ((((s.front h.qid.val).incWrap Reg.HIF_CMDCNT_COUNT).answer h.qid.val (s.popFetched h.qid.val).1 op h p h.effpt.toNat
          ((s.popFetched h.qid.val).2.2.newKey h.qid.val).1 (.final stUnsupported 1 0 0 []))).evFlush.settle := by
    intro s op h p hop hserved hcopied hkept hordered hfree hsound
    rw [exec_reservedOpcodeCommand hop, hostCmd_interprets _ op p _ _ hserved hcopied hkept hordered hfree hsound, interpAt_reserved hop]
    rfl
  refine ⟨fun s op h p hop hserved hnone hflush hfree hflag hsound => ?_, hnext⟩
  have hpop : s.popFetched h.qid.val = ((s.que h.qid.val).headAbs, false, s) := by simp only [State.popFetched, hnone]
  have hempty := hnext s op h p hop hserved
  unfold State.front at hempty
  rw [hpop] at hempty
  refine hempty rfl (fun f hf => absurd (hflush.symm.trans hf) nofun) (fun hset => absurd (hflag.symm.trans hset) Bool.false_ne_true) hfree hsound

end Sys2Proof.Machine
end

section
/-! PROOFS. Doorbells, fetching, parameter copies, room in the rings and signalling complete (R231 to R235, R243, R247, R252). -/

namespace Sys2Proof.Machine

@[simp] theorem que_setQue_same (s : State) (q : Nat) (v : Que) : (s.setQue q v).que q = v := tget_tset_same ..

/-- The end of a command leaves every queue but the event ring as it is. -/
theorem que_evFlush_settle (s : State) {q : Nat} (h : q ≠ 66) : s.evFlush.settle.que q = s.que q := by
  have hflush := (evFlush_told s).que q h
  rwa [State.que, settle_hif]

/-! ### Doorbells -/

/-- The state after a tail doorbell that moves the tail by `adv`: the tails of all queues at it are kept for barriers (R248). -/
def State.tailMoved (s : State) (q v adv : Nat) : State :=
  let u := (s.wr Reg.HIF_QSTAT_TAIL v 0 q).setQue q { s.que q with tailAbs := (s.que q).tailAbs + adv }
  u.setQue q { u.que q with snaps := (u.que q).snaps ++ [((s.que q).tailAbs + adv, u.hif.ques.map fun e => (e.1, e.2.tailAbs))] }

theorem rd_tailMoved (s : State) (q v adv : Nat) : (s.tailMoved q v adv).rd Reg.HIF_QSTAT_TAIL 0 q = v % 2 ^ Reg.HIF_QSTAT_TAIL.w :=
  rd_wr_same s Reg.HIF_QSTAT_TAIL v 0 q

theorem tailAbs_tailMoved (s : State) (q v adv : Nat) : ((s.tailMoved q v adv).que q).tailAbs = (s.que q).tailAbs + adv := by
  rw [State.tailMoved, que_setQue_same, que_setQue_same]

/-- A tail that its ring can take moves it. -/
theorem exec_tailDoorbell_moves {s : State} {q v : Nat} (hdev : s.dev ≠ 0) (hq : q < 66) (hex : s.qExists q = true)
    (hdel : (s.que q).deleting = none) (hlt : v < 2 ^ (s.que q).sqlog2) (hv : v < 2 ^ 32) :
    let size := 2 ^ (s.que q).sqlog2
    let adv := (v + size - s.rd Reg.HIF_QSTAT_TAIL 0 q) % size
    adv ≠ 0 → (s.rd Reg.HIF_QSTAT_TAIL 0 q + size - s.rd Reg.HIF_QSTAT_HEAD 0 q) % size + adv ≤ size - 1 →
      exec (.submissionTailDoorbell q v) s = .next (s.tailMoved q v adv).evFlush.settle := by
  intro size adv hmoves hroom
  have hserved : ¬(s.dev = 0 ∨ 66 < q) := by omega
  have hsize : s.sqSize q = size := if_neg (by omega)
  have hmod : v % 2 ^ 32 = v := Nat.mod_eq_of_lt hv
  have hgood : ¬((!s.qExists q) = true ∨ (s.que q).deleting.isSome = true ∨ s.sqSize q ≤ v % 2 ^ 32) := by
    rw [hmod, hsize, hex, hdel]
    simpa using hlt
  have hadv : (v % 2 ^ 32 + s.sqSize q - s.rd Reg.HIF_QSTAT_TAIL 0 q) % s.sqSize q = adv := by rw [hmod, hsize]
  have hmoves' : (v % 2 ^ 32 + s.sqSize q - s.rd Reg.HIF_QSTAT_TAIL 0 q) % s.sqSize q ≠ 0 := by rwa [hadv]
  have hfits : ¬s.sqSize q - 1 < (s.rd Reg.HIF_QSTAT_TAIL 0 q + s.sqSize q - s.rd Reg.HIF_QSTAT_HEAD 0 q) % s.sqSize q +
      (v % 2 ^ 32 + s.sqSize q - s.rd Reg.HIF_QSTAT_TAIL 0 q) % s.sqSize q := by rwa [hadv, hsize, Nat.not_lt]
  have hexec : exec (.submissionTailDoorbell q v) s =
      finish (s.tailMoved q (v % 2 ^ 32) ((v % 2 ^ 32 + s.sqSize q - s.rd Reg.HIF_QSTAT_TAIL 0 q) % s.sqSize q)) :=
    congrArg finish ((if_neg hserved).trans ((if_neg hgood).trans ((if_neg hmoves').trans (if_neg hfits))))
  rw [hexec, hadv, hmod]
  rfl

theorem exec_headDoorbell_good {s : State} {q v : Nat} (hdev : s.dev ≠ 0) (hq : q ≤ 66) (hex : s.qExists q = true)
    (hlt : v < 2 ^ (s.que q).cqlog2) (hv : v < 2 ^ 32) :
    exec (.completionHeadDoorbell q v) s = .next (s.setQue q { s.que q with
      cqHead := v, cqUsed := (s.rd Reg.HIF_QSTAT_CQTAIL 0 q + 2 ^ (s.que q).cqlog2 - v) % 2 ^ (s.que q).cqlog2 }).evFlush.settle := by
  have hserved : ¬(s.dev = 0 ∨ 66 < q) := by omega
  have hmod : v % 2 ^ 32 = v := Nat.mod_eq_of_lt hv
  have hgood : ¬((!s.qExists q) = true ∨ 2 ^ (s.que q).cqlog2 ≤ v % 2 ^ 32) := by
    rw [hmod, hex]
    simpa using hlt
  have hexec : exec (.completionHeadDoorbell q v) s = finish (s.setQue q { s.que q with cqHead := v % 2 ^ 32, cqUsed :=
      (s.rd Reg.HIF_QSTAT_CQTAIL 0 q + 2 ^ (s.que q).cqlog2 - v % 2 ^ 32) % 2 ^ (s.que q).cqlog2 }) :=
    congrArg finish ((if_neg hserved).trans (if_neg hgood))
  rw [hexec, hmod]
  rfl

/-! ### Fetching -/

/-- A command that its limit covers, with room for its reply and a descriptor for its copy, is fetched. -/
theorem exec_commandFetch {s : State} {q : Fin 66} {slot : Bytes} (hcan : s.canFetch q = true)
    (hlimit : (s.que q).headAbs + slotsOf (fld slot 6 2) ≤ (s.que q).limit) (hheld : (s.que q).eqHeld = false)
    (hroom : q.val = 1 → s.eqRoom = true) (hdma : needsDma q (fld slot 6 2) = true → s.genCount ≠ 0) :
    exec (.commandFetch q slot) s = .next (s.fetchSlot q slot).evFlush.settle := by
  have hmay : ¬((!s.canFetch q) = true ∨ (s.que q).limit < (s.que q).headAbs + slotsOf (fld slot 6 2) ∨ (s.que q).eqHeld = true) := by
    rw [hcan, hheld]
    simpa using hlimit
  have hanswer : ¬(q.val = 1 ∧ (!s.eqRoom) = true) := fun ⟨h1, h2⟩ => by
    rw [hroom h1] at h2
    exact absurd h2 (by decide)
  have hpool : ¬(needsDma q (fld slot 6 2) = true ∧ s.genCount = 0) := fun ⟨h1, h2⟩ => hdma h1 h2
  exact congrArg finish ((if_neg hmay).trans ((if_neg hanswer).trans (if_neg hpool)))

theorem poolNote_hif (s : State) (n : Nat) : (s.poolNote n).hif = s.hif := by
  unfold State.poolNote
  dsimp only
  split <;> rfl

theorem putTask_hif (s : State) (d : Nat) (t : Task) : (s.putTask d t).hif = s.hif := by
  have hseq (v : Task) (before : Nat) : (((s.wr Reg.SPD_GSEQ_NEXT (s.rd Reg.SPD_GSEQ_NEXT + 1)).setTask d v).poolNote before).hif = s.hif :=
    poolNote_hif _ _
  unfold State.putTask
  dsimp only
  split
  · rfl
  · exact hseq _ _

/-- A task in the pool is no part of a queue or of its registers. -/
theorem poolPut_keeps (s : State) (t : Task) : (s.poolPut t).2.hif = s.hif ∧ RegsKept replyIds s (s.poolPut t).2 := by
  unfold State.poolPut
  split
  · exact ⟨rfl, .refl s⟩
  · next d _ =>
    exact ⟨putTask_hif _ d _, RegsKept.trans (t := (s.setFlow t.flow _).setFlow t.flow _) (regsKept_of_regs rfl) (regsKept_putTask _ d _)⟩

/-- A fetched command, without the task that copies its parameters. -/
def State.fetchedHead (s : State) (q : Nat) (slot : Bytes) (u : Que) : State :=
  let t := (s.setQue q u).cvuItem 957 slot (some ((s.que q).sqbase + 64 * (s.setQue q u).rd Reg.HIF_QSTAT_HEAD 0 q)) none
  t.wr Reg.HIF_QSTAT_HEAD ((t.rd Reg.HIF_QSTAT_HEAD 0 q + slotsOf (fld slot 6 2)) % 2 ^ (s.que q).sqlog2) 0 q

theorem fetchedHead_queue (s : State) {q : Nat} (slot : Bytes) (u : Que) (hq : q ≠ 66) :
    (s.fetchedHead q slot u).que q = u ∧ (s.fetchedHead q slot u).rd Reg.HIF_QSTAT_HEAD 0 q =
      (s.rd Reg.HIF_QSTAT_HEAD 0 q + slotsOf (fld slot 6 2)) % 2 ^ (s.que q).sqlog2 % 2 ^ Reg.HIF_QSTAT_HEAD.w := by
  have hitem := posted_cvuItem (s.setQue q u) 957 slot (some ((s.que q).sqbase + 64 * (s.setQue q u).rd Reg.HIF_QSTAT_HEAD 0 q)) none
  constructor
  · exact (hitem.que q hq).trans (que_setQue_same s q u)
  · rw [State.fetchedHead, rd_wr_same, hitem.reg _ _ _ (by decide)]
    rfl

theorem fetchSlot_queue (s : State) {q : Nat} (slot : Bytes) (hq : q ≠ 66) :
    ((s.fetchSlot q slot).que q).headAbs = (s.que q).headAbs + slotsOf (fld slot 6 2) ∧
      (s.fetchSlot q slot).rd Reg.HIF_QSTAT_HEAD 0 q =
        (s.rd Reg.HIF_QSTAT_HEAD 0 q + slotsOf (fld slot 6 2)) % 2 ^ (s.que q).sqlog2 % 2 ^ Reg.HIF_QSTAT_HEAD.w := by
  obtain ⟨u, copy, habs, heq⟩ : ∃ (u : Que) (copy : Task), u.headAbs = (s.que q).headAbs + slotsOf (fld slot 6 2) ∧
      s.fetchSlot q slot = if needsDma q (fld slot 6 2) then ((s.fetchedHead q slot u).poolPut copy).2 else s.fetchedHead q slot u :=
    ⟨{ s.que q with headAbs := _, fetched := _, openPos := _, snaps := _ }, _, rfl, rfl⟩
  obtain ⟨hque, hhead⟩ := fetchedHead_queue s slot u hq
  rw [heq]
  split
  · obtain ⟨hhif, hregs⟩ := poolPut_keeps (s.fetchedHead q slot u) copy
    rw [State.que, hhif, hregs _ _ _ (by decide)]
    exact ⟨(congrArg Que.headAbs hque).trans habs, hhead⟩
  · exact ⟨(congrArg Que.headAbs hque).trans habs, hhead⟩

theorem fetchFailure_acts {s : State} {q : Nat} (hcan : s.canFetch q = true) (hlimit : (s.que q).headAbs < (s.que q).limit) :
    ¬((!s.canFetch q) = true ∨ (s.que q).limit ≤ (s.que q).headAbs) := by
  rw [hcan]
  simpa using hlimit

/-- Settles O15. -/
theorem queueFetchCommandsComplete : Obligations.QueueFetchCommandsComplete := by
  refine ⟨fun s q v hdev _ hex hdel hne hlt hv hmoves hroom => ?tail, fun s q v hdev hq hex hlt hv => exec_headDoorbell_good hdev hq hex hlt hv,
    fun s q slot hcan hlimit hheld hroom hdma => ?fetch, fun s q hcan hlimit => congrArg finish (if_neg (fetchFailure_acts hcan hlimit)),
    fun s d bad q pos huse hq => ?copied, fun s q hfull hroom => congrArg finish (if_pos ⟨hfull, hroom⟩),
    fun s hheld hroom => congrArg finish (if_pos ⟨hheld, hroom⟩), fun s q hdue => congrArg finish (if_pos hdue)⟩
  case tail =>
    refine ⟨_, exec_tailDoorbell_moves hdev (by omega) hex hdel hlt hv hmoves hroom, ?_, ?_⟩
    · rw [rd_evFlush_settle _ _ _ _ (by decide), rd_tailMoved]
    · rw [que_evFlush_settle _ hne, tailAbs_tailMoved]
  case fetch =>
    have hne : q.val ≠ 66 := by omega
    obtain ⟨habs, hhead⟩ := fetchSlot_queue s slot hne
    refine ⟨_, exec_commandFetch hcan hlimit hheld hroom hdma, ?_, ?_⟩
    · rw [que_evFlush_settle _ hne, habs]
    · rw [rd_evFlush_settle _ _ _ _ (by decide), hhead]
  case copied =>
    change execParamDmaDone d bad s = _
    unfold execParamDmaDone
    rw [huse]
    exact congrArg finish (if_neg hq)

end Sys2Proof.Machine
end

section
/-! PROOFS. Queue control completes: barriers, deletions, held commands, cores, mirrors and the control registers (R229, R246, R248, R251, R256, R496). -/

namespace Sys2Proof.Machine

theorem dev_hostAccess (s : State) (r : Row) (i j : Nat) : (s.hostAccess r i j).dev = s.dev := hostAccess_rd ..

/-! ### Barriers, deletions, held commands, delayed replies -/

/-- A queue has nothing left to answer, but for the event queue, which answers nothing. -/
theorem delete_ends {u : Que} {q tail : Nat} (hdone : q ≠ 66 → tail ≤ u.headAbs ∧ u.openPos = [] ∧ u.replies = [] ∧ u.outst = []) :
    ¬(q ≠ 66 ∧ (u.headAbs < tail ∨ u.openPos ≠ [] ∨ u.replies ≠ [] ∨ u.outst ≠ [])) := by
  rintro ⟨hq, hopen⟩
  obtain ⟨htail, hpos, hrep, hout⟩ := hdone hq
  rcases hopen with h | h | h | h
  exacts [Nat.not_lt.mpr htail h, h hpos, h hrep, h hout]

/-! ### Command cores -/

/-- A core that stops before the third restart within 60 s. -/
theorem exec_commandCoreWatchdog {s : State} {c : Fin 4} (hup : tget false s.hif.coreDown c = false)
    (hfew : ((s.hif.restarts ++ [(s.ns, c.val)]).filter fun e => decide (s.ns ≤ e.1 + 60000000000)).length < 3) :
    ∃ u : State, exec (.commandCoreWatchdog c none) s = .next u.evFlush.settle ∧ u.hif.coreDown = tset false s.hif.coreDown c true ∧
      u.rd Reg.HIF_CORECNT_RESTARTS = min (s.rd Reg.HIF_CORECNT_RESTARTS + 1) (2 ^ Reg.HIF_CORECNT_RESTARTS.w - 1) := by
  have hruns : ¬tget false s.hif.coreDown c = true := by rw [hup]; decide
  refine ⟨_, congrArg finish ((if_neg hruns).trans (if_neg (Nat.not_le.mpr hfew))), rfl, ?_⟩
  let t : State := { s with hif := { s.hif with coreDown := tset false s.hif.coreDown c true } }
  exact (rd_ev (t.incSat Reg.HIF_CORECNT_RESTARTS) (evHif 8) 255 0 0 Reg.HIF_CORECNT_RESTARTS 0 0 (by decide)).trans (rd_incSat_same t _ 1 0 0)

theorem coreDown_evFlush_settle (s : State) : s.evFlush.settle.hif.coreDown = s.hif.coreDown := by
  rw [settle_hif]
  exact congrArg (fun t : State => t.hif.coreDown) (a₁ := s.evFlush.quiet) (a₂ := s.quiet) (evFlush_told s).rest

/-! ### The control registers of AQ and EQ -/

theorem ctlEnable_aq {s : State} (hdev : s.dev ≠ 0) (hoff : s.rd Reg.HIF_AQCTL_ENABLE = 0) (hsq : 4 ≤ s.rd Reg.HIF_AQSIZE_SQLOG2)
    (hsq' : s.rd Reg.HIF_AQSIZE_SQLOG2 ≤ 16) (hcq : 4 ≤ s.rd Reg.HIF_AQSIZE_CQLOG2) (hcq' : s.rd Reg.HIF_AQSIZE_CQLOG2 ≤ 16) :
    s.ctlEnable 0 true = (s.wr Reg.HIF_AQCTL_ENABLE 1).openQue 0
      { sqlog2 := s.rd Reg.HIF_AQSIZE_SQLOG2, cqlog2 := s.rd Reg.HIF_AQSIZE_CQLOG2, vector := s.rd Reg.HIF_AQSIZE_VECTOR,
        order := s.rd Reg.HIF_AQSIZE_ORDER = 1, sqbase := s.rd Reg.HIF_AQSQBASE_ADDR, cqbase := s.rd Reg.HIF_AQCQBASE_ADDR } := by
  have hgood : ¬(s.rd Reg.HIF_AQCTL_ENABLE = 1 ∨ s.rd Reg.HIF_AQSIZE_SQLOG2 < 4 ∨ 16 < s.rd Reg.HIF_AQSIZE_SQLOG2 ∨
      s.rd Reg.HIF_AQSIZE_CQLOG2 < 4 ∨ 16 < s.rd Reg.HIF_AQSIZE_CQLOG2) := by omega
  exact (if_neg hdev).trans ((if_neg (by decide)).trans (if_neg hgood))

theorem ctlEnable_eq {s : State} (hdev : s.dev ≠ 0) (hoff : s.rd Reg.HIF_EQCTL_ENABLE = 0) (hsq : 4 ≤ s.rd Reg.HIF_EQSIZE_SQLOG2)
    (hsq' : s.rd Reg.HIF_EQSIZE_SQLOG2 ≤ 8) (hcq : 4 ≤ s.rd Reg.HIF_EQSIZE_CQLOG2) (hcq' : s.rd Reg.HIF_EQSIZE_CQLOG2 ≤ 8) :
    s.ctlEnable 1 true = (s.wr Reg.HIF_EQCTL_ENABLE 1).openQue 1
      { sqlog2 := s.rd Reg.HIF_EQSIZE_SQLOG2, cqlog2 := s.rd Reg.HIF_EQSIZE_CQLOG2, vector := s.rd Reg.HIF_EQSIZE_VECTOR,
        sqbase := s.rd Reg.HIF_EQSQBASE_ADDR, cqbase := s.rd Reg.HIF_EQCQBASE_ADDR } := by
  have hgood : ¬(s.rd Reg.HIF_EQCTL_ENABLE = 1 ∨ s.rd Reg.HIF_EQSIZE_SQLOG2 < 4 ∨ 8 < s.rd Reg.HIF_EQSIZE_SQLOG2 ∨
      s.rd Reg.HIF_EQSIZE_CQLOG2 < 4 ∨ 8 < s.rd Reg.HIF_EQSIZE_CQLOG2) := by omega
  exact (if_neg hdev).trans ((if_neg (by decide)).trans (if_neg hgood))

/-- A queue that its control register disables stops. -/
theorem ctlEnable_off {s : State} (hdev : s.dev ≠ 0) (q : Nat)
    (hon : s.rd (if q = 0 then Reg.HIF_AQCTL_ENABLE else Reg.HIF_EQCTL_ENABLE) = 1) :
    s.ctlEnable q false = (s.wr (if q = 0 then Reg.HIF_AQCTL_ENABLE else Reg.HIF_EQCTL_ENABLE) 0).stopQue q :=
  (if_neg hdev).trans ((if_pos rfl).trans (if_pos hon))

/-- Settles O16. -/
theorem queueControlCommandsComplete : Obligations.QueueControlCommandsComplete := by
  refine ⟨fun s q b hb hdue => ?barrierTimeout, fun s q b hb hall => ?barrierMet, fun s q key tail hdel hdone => ?deleted,
    fun s q i pos op h p hheld hparts hkept hmay => ?released, fun s c hup hfew => ?watchdog, fun s c => ?restart, fun s seq st => rfl,
    fun s seq hlate => congrArg finish (if_pos hlate), ?aqOn, ?eqOn, ?off, fun s flush hdev hhalt => ?resume, fun s q r rest t hrep hhold => ?delayed⟩
  case barrierTimeout =>
    change execBarrierTimeout q s = _
    simp only [execBarrierTimeout, hb, if_neg (Nat.not_lt.mpr hdue)]
    rfl
  case barrierMet =>
    change execBarrierSatisfied q s = _
    simp only [execBarrierSatisfied, hb, if_pos hall]
    rfl
  case deleted =>
    change execQueueDeleteDone q s = _
    simp only [execQueueDeleteDone, hdel, if_neg (delete_ends hdone)]
    rfl
  case released =>
    change finish (s.resumeQ q) = _
    simp only [State.resumeQ, hheld, hparts, hkept, hmay, Bool.false_eq_true, Bool.not_true, if_false]
    rfl
  case delayed =>
    change execReplyDelayExpiry q s = _
    simp only [execReplyDelayExpiry, hrep, hhold]
    rfl
  case watchdog =>
    obtain ⟨u, hexec, hdown, hcount⟩ := exec_commandCoreWatchdog hup hfew
    refine ⟨_, hexec, ?_, (rd_evFlush_settle _ _ _ _ (by decide)).trans hcount⟩
    rw [coreDown_evFlush_settle, hdown, tget_tset_same]
  case restart =>
    refine ⟨_, rfl, ?_, fun c' hc' => ?_⟩
    · rw [coreDown_evFlush_settle, tget_tset_same]
    · rw [coreDown_evFlush_settle, tget_tset_other _ _ _ _ hc']
  case aqOn =>
    intro s
    have h := ctlEnable_aq (s := s.hostAccess Reg.HIF_AQCTL_ENABLE)
    simp only [dev_hostAccess, hostAccess_rd] at h
    exact fun hdev hoff hsq hsq' hcq hcq' => congrArg finish (h hdev hoff hsq hsq' hcq hcq')
  case eqOn =>
    intro s
    have h := ctlEnable_eq (s := s.hostAccess Reg.HIF_EQCTL_ENABLE)
    simp only [dev_hostAccess, hostAccess_rd] at h
    exact fun hdev hoff hsq hsq' hcq hcq' => congrArg finish (h hdev hoff hsq hsq' hcq hcq')
  case off =>
    intro s hdev
    have hdev' (r : Row) : (s.hostAccess r).dev ≠ 0 := by rwa [dev_hostAccess]
    exact ⟨fun hon => congrArg finish (ctlEnable_off (hdev' _) 0 ((hostAccess_rd ..).trans hon)),
      fun hon => congrArg finish (ctlEnable_off (hdev' _) 1 ((hostAccess_rd ..).trans hon))⟩
  case resume =>
    have hrun : ¬(s.hostAccess Reg.HIF_AQCTL_RESUME).dev = 0 := by rwa [dev_hostAccess]
    have hhalted : ¬(s.hostAccess Reg.HIF_AQCTL_RESUME).rd Reg.HIF_QSTAT_HALTED 0 0 = 0 := by rw [hostAccess_rd, hhalt]; decide
    exact congrArg finish ((if_neg hrun).trans (if_neg hhalted))

end Sys2Proof.Machine
end

section
/-! PROOFS. The Spindle's commands as the obligation writes them: its clause of the tick leaves out the end of a mute (R386). -/

namespace Sys2Proof.Machine

/-- What the obligation's clause takes a tick to do. -/
def State.tickSteps (s : State) : State :=
  (((((s.tickTime.txDue.moveDue s.tick).devDue).forEach (List.range 64) State.startDue).claimTick).pairLift).joinSweeps

/-- A tick ends with what ends a mute: convergence may be complete (R386). -/
theorem exec_spindleTick {s : State} (h : s.fclk = true) : exec .spindleTick s = .next s.tickSteps.tryUnmute.evFlush.settle :=
  congrArg finish (if_neg (by rw [h]; decide))

/-- A TAILSTOCK in RESYNC, its image in place and no channel running: nothing is left to converge. -/
def mutedDevice : State := ((State.reset.wr Reg.PCR_DEVSTAT_PSTATE 2).wr Reg.PAIR_PAIRSTAT_ROLE 3).wr Reg.PAIR_PAIRSTAT_IMAGE 1

theorem mutedDevice_fclk : mutedDevice.fclk = true := by decide
theorem mutedDevice_tickSteps_role : mutedDevice.tickSteps.role = 3 := by decide +kernel
theorem mutedDevice_tick_unmutes : mutedDevice.tickSteps.tryUnmute.role = 2 := by decide +kernel

theorem role_evFlush_settle (s : State) : s.evFlush.settle.role = s.role := rd_evFlush_settle _ _ _ _ (by decide)

/-- Refutes O17: at a tick the device of `mutedDevice` returns from RESYNC to TAILSTOCK, and the clause of SPINDLE_TICK keeps it in RESYNC. -/
theorem not_spindleCommandsComplete : ¬ Obligations.SpindleCommandsComplete := by
  rintro ⟨htick, -⟩
  have hstep : mutedDevice.tickSteps.tryUnmute.evFlush.settle = mutedDevice.tickSteps.evFlush.settle :=
    Host.Outcome.next.inj ((exec_spindleTick mutedDevice_fclk).symm.trans (htick mutedDevice mutedDevice_fclk))
  have hrole := congrArg State.role hstep
  rw [role_evFlush_settle, role_evFlush_settle, mutedDevice_tick_unmutes, mutedDevice_tickSteps_role] at hrole
  exact absurd hrole (by decide)

end Sys2Proof.Machine
end

section
/-! PROOFS. Engines, sweeps and reference descriptors complete (R76, R81, R121, R125, R129). -/

namespace Sys2Proof.Machine

/-! ### The engines -/

theorem kinds_of_slice {k : Nat} (h : k = kSlice ∨ k = kReencode) : k ≠ kFlatten ∧ k ≠ kBlit := by
  rcases h with h | h <;> rw [h] <;> decide

theorem isSlice {k : Nat} (h : k = kSlice ∨ k = kReencode) : ¬(k ≠ kSlice ∧ k ≠ kReencode) := fun ⟨hslice, hre⟩ => h.elim hslice hre

/-- A running task of a channel that is neither a flatten nor a blit is completed. -/
theorem taskComplete_acts {s : State} {d : Nat} (hrun : (s.task d).state = 4) (hclk : s.fclk = true) (hch : (s.task d).ch < 64)
    (hk : (s.task d).kind ≠ kFlatten ∧ (s.task d).kind ≠ kBlit) :
    ¬((s.task d).state ≠ 4 ∨ (!s.fclk) = true ∨ 64 ≤ (s.task d).ch ∨ (s.task d).kind = kFlatten ∨ (s.task d).kind = kBlit) := by
  simp [hrun, hclk, hk, hch]

/-- Settles O18. -/
theorem engineCommandsComplete : Obligations.EngineCommandsComplete := by
  refine ⟨fun s d maxCtu winCorr hrun hclk hch hk =>
      congrArg finish ((if_neg (taskComplete_acts hrun hclk hch (kinds_of_slice hk))).trans (if_pos hk)),
    fun s d hlate hk => congrArg finish (if_neg (not_or.mpr ⟨by rw [hlate]; decide, isSlice hk⟩)),
    fun s d why addr kind e hrun hk heng => ?failure, fun s e d t htask hst hdue hlate => ?watchdog,
    fun s e cause hclk hst hcause => congrArg finish (if_pos ⟨hclk, hst, hcause⟩), fun s e stage d hst htest => ?selftest⟩
  case failure =>
    change execSliceFailure d why addr kind s = _
    unfold execSliceFailure
    rw [heng]
    exact congrArg finish (if_neg (not_or.mpr ⟨not_not_intro hrun, isSlice hk⟩))
  case watchdog =>
    change execSliceWatchdog e s = _
    simp only [execSliceWatchdog, htask, hdue, if_pos (And.intro hlate hst)]
    rfl
  case selftest =>
    change execEngineSelftestEnd e stage s = _
    unfold execEngineSelftestEnd
    rw [htest]
    exact congrArg (fun t => finish (State.taskDone t d)) (if_neg (not_not_intro hst))

/-! ### Rate control and reference descriptors -/

/-- A step of rate control at the start of a picture that is due and not the channel's first two. -/
theorem atPicture_due {s : State} {n : Nat} (f : RcSt → Nat → RcSt) (hdue : s.rowDue n = true) (hrow : (s.chan n).nextRow = 0)
    (hlater : (s.chan n).startFrame + 1 < (s.chan n).nextFrame) (hown : (s.chan n).follow = false) :
    s.atPicture n f = s.setRc n { f { (s.chan n).rc with set := s.setAt n (s.chan n).nextFrame } (s.chan n).nextFrame with set := (s.chan n).rc.set } := by
  have hmay : ¬((!s.rowDue n) = true ∨ (s.chan n).nextRow ≠ 0 ∨ (s.chan n).nextFrame ≤ (s.chan n).startFrame + 1 ∨ (s.chan n).follow = true) := by
    simp [hdue, hrow, hlater, hown]
  exact if_neg hmay

/-- Settles O19. -/
theorem rateAndReferenceCommandsComplete : Obligations.RateAndReferenceCommandsComplete := by
  refine ⟨fun s n hdue hrow hlater hown => ⟨fun hreq => ?periodic, fun hheld => ?held, ?emergency⟩, fun s idx hclk => ?descsel⟩
  case periodic =>
    refine congrArg finish ((atPicture_due _ hdue hrow hlater hown).trans ?_)
    rw [if_neg (by rw [hreq]; decide)]
  case held =>
    refine congrArg finish ((atPicture_due _ hdue hrow hlater hown).trans ?_)
    rw [if_pos hheld]
  case emergency => exact congrArg finish (atPicture_due _ hdue hrow hlater hown)
  case descsel =>
    have hrun : ¬(!(s.hostAccess Reg.REF_DESCSEL_INDEX).fclk) = true := by rw [fclk_hostAccess, hclk]; decide
    exact congrArg finish (if_neg hrun)

end Sys2Proof.Machine
end

section
/-! PROOFS. Layers, the flattened overlay and the blitters complete (R140, R153, R154, R165 to R176). -/

namespace Sys2Proof.Machine

/-! ### The flattened overlay -/

/-- Settles O20. -/
theorem layerCommandsComplete : Obligations.LayerCommandsComplete := by
  refine ⟨fun s n k hmay => congrArg finish (if_pos (hmay.imp_right fun h => by rw [h]; rfl)),
    fun s n bad d hflat hrun => ⟨fun hhit => ?failed, fun hnone hstale => ?again, fun hnone hstale => ⟨fun hfew => ?retry, fun hroom => ?fresh⟩⟩,
    fun s n hretry hdue hidle hact hpool => congrArg finish (if_pos ⟨hretry, hdue, hidle, hact, hpool⟩)⟩
  all_goals
    change execFlattenDone n bad s = _
    unfold execFlattenDone
    dsimp only
    rw [hflat]
    refine congrArg finish ((if_neg (not_not_intro hrun)).trans ?_)
  case failed => exact if_pos hhit
  case again => exact (if_neg (not_not_intro hnone)).trans (if_pos hstale)
  case retry => exact (if_neg (not_not_intro hnone)).trans ((if_neg (by rw [hstale]; decide)).trans (if_pos hfew))
  case fresh => exact (if_neg (not_not_intro hnone)).trans ((if_neg (by rw [hstale]; decide)).trans (if_neg (Nat.not_lt.mpr hroom)))

/-! ### The blitters -/

/-- Settles O21. -/
theorem blitterCommandsComplete : Obligations.BlitterCommandsComplete := by
  refine ⟨fun s u addr part d htask hdead hst hinj hbad => ?burst, fun s u c hdead => ?deadTime,
    fun s u part hst htask => ?idle, fun s u part d hst htask hdead => ?busy, fun s u pass d hst htest => ?test⟩
  case burst =>
    have hruns : ¬((s.bltU u).dead ≠ none ∨ s.rd Reg.BLT_UNITSTAT_STATE u ≠ 1) := by simp [hdead, hst]
    have hsize : (if (0 : Fin 3) = 2 then min part 4095 else 4096) = 4096 := rfl
    change execBlitBurstEnd u 0 addr part s = _
    simp only [execBlitBurstEnd, htask, if_neg hruns, hsize, hinj, hbad]
    rfl
  case deadTime =>
    change execBlitDeadTimeEnd u s = _
    unfold execBlitDeadTimeEnd
    rw [hdead]
    rfl
  case idle =>
    refine congrArg finish ((if_neg (Nat.not_lt.mpr hst)).trans ?_)
    rw [htask]
    rfl
  case busy =>
    refine congrArg finish ((if_neg (Nat.not_lt.mpr hst)).trans ?_)
    rw [htask, hdead]
    rfl
  case test =>
    change execBlitSelftestEnd u pass s = _
    unfold execBlitSelftestEnd
    rw [htest]
    exact congrArg (fun t => finish (State.taskDone t d)) (if_neg (not_not_intro hst))

end Sys2Proof.Machine
end

section
/-! PROOFS. The store's commands complete: scrubbing, the wipe, the host window and accesses of a wrong size (R198 to R202, R411). -/

namespace Sys2Proof.Machine

/-! ### What a read of the host window leaves in the memories -/

/-- The bytes of the store and of DRAM are as before. -/
def State.SameBytes (s t : State) : Prop := t.mem.cs = s.mem.cs ∧ t.mem.dram = s.mem.dram

theorem sameBytes_of_mem {s t : State} (h : t.mem = s.mem) : s.SameBytes t := ⟨by rw [h], by rw [h]⟩
theorem State.SameBytes.trans {s t u : State} (h : s.SameBytes t) (k : t.SameBytes u) : s.SameBytes u := ⟨k.1.trans h.1, k.2.trans h.2⟩

theorem sameBytes_csReread (s : State) (checkOnly : Bool) : s.SameBytes (s.csReread checkOnly) := by
  unfold State.csReread
  split <;> exact sameBytes_of_mem rfl

theorem sameBytes_inject (s : State) (kind target : Nat) : s.SameBytes (s.inject kind target).2 := by
  unfold State.inject
  dsimp only
  split
  · exact sameBytes_of_mem rfl
  · split <;> exact sameBytes_of_mem rfl

theorem sameBytes_csInject (s : State) (port : Nat) : s.SameBytes (s.csInject port).2 := by
  have htwo := (sameBytes_inject s 1 port).trans (sameBytes_inject (s.inject 1 port).2 2 port)
  have hthree (k : Nat) := htwo.trans (sameBytes_inject ((s.inject 1 port).2.inject 2 port).2 k port)
  unfold State.csInject
  dsimp only
  generalize (if (s.inject 1 port).1 = true then 1 else 2) = k
  split
  · exact htwo
  · split
    · exact hthree _
    · exact (hthree _).trans (sameBytes_csReread _ _)

theorem sameBytes_csCorrected (s : State) (n : Nat) : s.SameBytes (s.csCorrected n) := by
  unfold State.csCorrected
  extract_lets
  split <;> exact sameBytes_of_mem rfl

theorem sameBytes_csUncorr (s : State) (addr port kind : Nat) : s.SameBytes (s.csUncorr addr port kind) :=
  sameBytes_of_mem (by simp [State.csUncorr, State.incSat])

theorem sameBytes_lineDamage (s : State) (a kind : Nat) : s.SameBytes (s.lineDamage a kind) := by
  unfold State.lineDamage
  split
  · exact sameBytes_of_mem rfl
  split
  · split
    · exact sameBytes_csCorrected _ _
    split
    · exact sameBytes_csReread _ _
    · exact ⟨rfl, rfl⟩
  · exact ⟨rfl, rfl⟩
  · exact sameBytes_of_mem rfl

theorem sameBytes_dramUncorr (s : State) (l : Nat) (codeLine scrub : Bool) : s.SameBytes (s.dramUncorr l codeLine scrub) := by
  unfold State.dramUncorr
  extract_lets p a b c x recent
  have ha : s.SameBytes a := by cases scrub <;> exact sameBytes_of_mem rfl
  have hc : s.SameBytes c := ha.trans (sameBytes_of_mem rfl)
  split
  · exact hc.trans (sameBytes_of_mem rfl)
  split
  · exact hc
  · exact hc.trans (sameBytes_of_mem rfl)

theorem sameBytes_lineRead (s : State) (a port : Nat) : s.SameBytes (s.lineRead a port) := by
  unfold State.lineRead
  split
  · split
    · exact sameBytes_csUncorr _ _ _ _
    · exact sameBytes_of_mem rfl
  · split
    · exact sameBytes_of_mem rfl
    · exact sameBytes_dramUncorr _ _ _ _
  · exact sameBytes_of_mem rfl

theorem sameBytes_bar2Line (s : State) (o code : Nat) : s.SameBytes (s.bar2Line o code).2 := by
  have hinj := sameBytes_csInject s 47
  unfold State.bar2Line
  dsimp only
  split
  · exact sameBytes_csUncorr _ _ _ _
  split
  · split
    · exact hinj.trans (sameBytes_csUncorr _ _ _ _)
    · exact hinj
  split
  · exact sameBytes_csReread _ _
  split
  · exact sameBytes_csCorrected _ _
  split
  · exact sameBytes_csReread _ _
  · exact ⟨rfl, rfl⟩

theorem sameBytes_bar2Dram (s : State) (a code : Nat) : s.SameBytes (s.bar2Dram a code).2 := by
  unfold State.bar2Dram
  dsimp only
  split
  · exact sameBytes_lineRead _ _ _
  split
  · exact sameBytes_of_mem rfl
  split
  · exact sameBytes_of_mem rfl
  · exact (sameBytes_lineDamage _ _ _).trans (sameBytes_lineRead _ _ _)

/-- The lines of a read, one after another: whether one is poisoned, and what their errors leave. -/
def readLines (errs : List (Nat × Nat)) (acc : Bool × State) (l : Nat) : Bool × State :=
  let (bad, s) := acc
  let code := (errs.find? fun e => e.1 / 64 = l).map (·.2)
  match s.space (64 * l) with
  | (0, o) => let (b, s) := s.bar2Line o (code.getD 6); (bad || b, s)
  | _ => let (b, s) := s.bar2Dram (64 * l) (code.getD 0); (bad || b, s)

theorem sameBytes_readLines (errs : List (Nat × Nat)) (acc : Bool × State) (l : Nat) : acc.2.SameBytes (readLines errs acc l).2 := by
  unfold readLines
  dsimp only
  split
  · exact sameBytes_bar2Line _ _ _
  · exact sameBytes_bar2Dram _ _ _

theorem sameBytes_foldl_readLines (errs : List (Nat × Nat)) : ∀ (l : List Nat) (acc : Bool × State), acc.2.SameBytes (l.foldl (readLines errs) acc).2
  | [], _ => sameBytes_of_mem rfl
  | a :: l, acc => (sameBytes_readLines errs acc a).trans (sameBytes_foldl_readLines errs l _)

theorem bar2Read_data {s : State} {off len : Nat} (errs : List (Nat × Nat)) (hmem : (s.space (s.bar2Addr ((off % 2 ^ 30) + (max 1 len - 1)))).1 ≠ 2) :
    ∃ (u : State) (bad : Bool), s.bar2Read off len errs = u.emit (.bar2Data ((List.range len).map fun i =>
      s.byte (s.bar2Addr (off % 2 ^ 30 + i))) bad) ∧ s.SameBytes u := by
  let lines := (linesAt (off % 2 ^ 30) (max 1 len)).map fun o => s.bar2Addr o / 64
  let x := lines.foldl (readLines errs) (false, s)
  have hlines := sameBytes_foldl_readLines errs lines (false, s)
  refine ⟨(x.2.incWrap Reg.CST_PORT_BYTES len 0 47).cvuLines 959 (lines.map (64 * ·)), x.1, if_neg hmem, hlines.trans ?_⟩
  exact State.SameBytes.trans (t := x.2.incWrap Reg.CST_PORT_BYTES len 0 47) (sameBytes_of_mem rfl) (sameBytes_of_mem (posted_cvuLines _ _ _).mem)

/-! ### Writes that every line of which is performed -/

theorem bar2Write_allowed {s : State} {off : Nat} {data : Bytes}
    (hall : ∀ e ∈ linePieces (data.length + 1) (off % 2 ^ 30) data, s.bar2Verdict (s.bar2Addr e.1) = 0) :
    s.bar2Write off data = (linePieces (data.length + 1) (off % 2 ^ 30) data).foldl
      (fun (t : State) e => ((t.bar2Put (s.bar2Addr e.1) e.2).incWrap Reg.CST_PORT_BYTES e.2.length 0 47).cvuLines 958 [s.bar2Addr e.1 / 64 * 64]) s := by
  unfold State.bar2Write
  generalize linePieces (data.length + 1) (off % 2 ^ 30) data = ps at hall
  have hverdict : (ps.map fun e => (s.bar2Addr e.1, e.2)).map (fun e => (s.bar2Verdict e.1, e)) = ps.map fun e => (0, s.bar2Addr e.1, e.2) := by
    rw [List.map_map]
    exact List.map_congr_left fun e he => by simp [hall e he]
  have hfind : ps.find? (fun _ => false) = none := List.find?_eq_none.mpr (by simp)
  simp [hverdict, hfind, List.filter_map, List.any_map, List.foldl_map, Function.comp_def]

/-! ### The commands -/

theorem csScrubLine_due {s : State} (hclk : s.fclk = true) (hready : s.rd Reg.CST_CSTSTAT_READY = 1)
    (hdue : ∀ t, s.cst.scrubAt = some t → t + s.rd Reg.CST_SCRUBCTL_INTERVAL * 2 / 3 ≤ s.ns) :
    ¬((!s.fclk) = true ∨ s.rd Reg.CST_CSTSTAT_READY = 0 ∨
      (match s.cst.scrubAt with | some t => decide (s.ns < t + s.rd Reg.CST_SCRUBCTL_INTERVAL * 2 / 3) | none => false) = true) := by
  cases hat : s.cst.scrubAt with
  | none => simp [hclk, hready]
  | some t => simpa [hclk, hready] using hdue t hat

/-- Settles O22. -/
theorem storeCommandsComplete : Obligations.StoreCommandsComplete := by
  refine ⟨fun s data check hclk hready hdue => congrArg finish (if_neg (csScrubLine_due hclk hready hdue)), fun s hwipe => exec_csWipeDone hwipe,
    fun s hwipe hlate => congrArg finish (if_pos ⟨hwipe, hlate⟩), fun s off data hdev hfree hall => ?write, fun s off data hdev hheld => ?waits,
    fun s off len errs hdev hfree hmem => ?read, fun s off len errs hdev hheld => ?readWaits, fun s off write hdev => ?size⟩
  case write =>
    exact congrArg finish ((if_neg hdev).trans ((if_neg (fun h => absurd (hfree.symm.trans h) (by decide))).trans (bar2Write_allowed hall)))
  case waits => exact congrArg finish ((if_neg hdev).trans (if_pos hheld))
  case read =>
    obtain ⟨u, bad, hread, hcs, hdram⟩ := bar2Read_data errs hmem
    exact ⟨u, bad, congrArg finish ((if_neg hdev).trans ((if_neg (fun h => absurd (hfree.symm.trans h) (by decide))).trans hread)), hcs, hdram⟩
  case readWaits => exact congrArg finish ((if_neg hdev).trans (if_pos hheld))
  case size =>
    change execBar0SizeError off write s = _
    unfold execBar0SizeError
    rw [if_neg hdev]
    rfl

end Sys2Proof.Machine
end

section
/-! PROOFS. Register accesses complete (R10 to R14, R405, R406, R411 to R419, R495). -/

namespace Sys2Proof.Machine

theorem lanePasses_hostAccess (s : State) (r : Row) (i j l : Nat) : (s.hostAccess r i j).lanePasses l = s.lanePasses l := by
  unfold State.lanePasses State.laneSt
  rw [hostAccess_rd]

/-- A register write of four bytes through the debug port, under the grant. -/
theorem exec_debugAccessRequest_register {s : State} {a : Nat} {d : Bytes} (hclk : s.fclk = true) (hdap : s.dapOpen = true) (hlen : d.length = 4)
    (hfirst : (s.region (a % 2 ^ 40)).1 = 3) :
    exec (.debugAccessRequest a 4 (some d)) s = .next (s.regWrite 14 (s.region (a % 2 ^ 40)).2 false (leNat (d.take 4))).evFlush.settle := by
  obtain ⟨o, ho⟩ : ∃ o, s.region (a % 2 ^ 40) = (3, o) := ⟨_, Prod.ext hfirst rfl⟩
  change execDebugAccessRequest a 4 (some d) s = _
  simp [-Nat.reducePow, execDebugAccessRequest, finish, hclk, hdap, ho, hlen]

/-- Settles O23. -/
theorem registerAccessCommandsComplete : Obligations.RegisterAccessCommandsComplete := by
  refine ⟨fun _ _ _ _ _ => rfl, fun _ _ _ _ => rfl, fun _ _ _ => rfl, fun _ _ => rfl, fun _ _ _ _ hclk => congrArg finish (if_pos hclk),
    fun _ _ _ _ hclk => congrArg finish (if_pos hclk),
    fun s v hclk hboot hnew => congrArg finish ((if_pos ((fclk_hostAccess ..).trans hclk)).trans (if_neg ?remap)),
    fun s err hclk => congrArg finish (if_neg ?clear),
    fun s v hclk hdev => congrArg finish (if_pos ⟨(fclk_hostAccess ..).trans hclk, (dev_hostAccess ..).trans_ne hdev⟩),
    fun s speed width hclk hdev hup =>
      congrArg finish ((if_pos ⟨(fclk_hostAccess ..).trans hclk, (dev_hostAccess ..).trans_ne hdev⟩).trans (if_pos ?retrain)),
    fun s a d hclk hdap hlen hfirst _ => exec_debugAccessRequest_register hclk hdap hlen hfirst,
    fun s hup => congrArg finish (if_neg (by rw [hup]; decide))⟩
  case remap =>
    rw [dev_hostAccess, hostAccess_rd]
    exact not_or.mpr ⟨not_not_intro hboot, hnew⟩
  case clear =>
    rw [fclk_hostAccess, hclk]
    decide
  case retrain =>
    rw [hostAccess_rd, hostAccess_pcr, lanePasses_hostAccess]
    exact hup

end Sys2Proof.Machine
end

section
/-! PROOFS. Network input completes (R262 to R279, R381). -/

namespace Sys2Proof.Machine

/-! ### What a frame and a loss need -/

theorem frameReceive_runs {s : State} {m : Nat} (hup : s.macUp m = true) (hclk : s.fclk = true) : ¬((!s.macUp m) = true ∨ (!s.fclk) = true) := by
  simp [hup, hclk]

theorem frame_sound {fr : Bytes} (hlo : 64 ≤ fr.length) (hhi : fr.length ≤ 9216) (hcrc : crc32 (fr.take (fr.length - 4)) = fld fr (fr.length - 4) 4) :
    ¬(fr.length < 64 ∨ 9216 < fr.length ∨ crc32 (fr.take (fr.length - 4)) ≠ fld fr (fr.length - 4) 4) := by
  rintro (h | h | h)
  exacts [Nat.not_lt.mpr hlo h, Nat.not_lt.mpr hhi h, h hcrc]

/-- A sequence number that is due and came over no path is lost. -/
theorem lossDeclare_acts {s : State} {x : InFlow} {q : Nat} (hset : tget 0 x.due q ≠ 0) (hdue : tget 0 x.due q ≤ s.ns)
    (ha : (tget ({} : SeqSt) x.win q).a = false) (hb : (tget ({} : SeqSt) x.win q).b = false) (hrep : (tget ({} : SeqSt) x.win q).rep = false)
    (hdecl : (tget ({} : SeqSt) x.win q).decl = false) :
    ¬(tget 0 x.due q = 0 ∨ s.ns < tget 0 x.due q ∨ (tget ({} : SeqSt) x.win q).a = true ∨ (tget ({} : SeqSt) x.win q).b = true ∨
      (tget ({} : SeqSt) x.win q).rep = true ∨ (tget ({} : SeqSt) x.win q).decl = true) := by
  simp [hset, hdue, ha, hb, hrep, hdecl]

/-! ### The second of the FEC rates -/

/-- The counters of the ports in a list, after each was counted up once. -/
theorem rd_foldl_incWrap {r r' : Row} (hne : r.id ≠ r'.id) (p : Nat) (g g' : Nat → Nat) {m : Nat} (hm : m < 4096) :
    ∀ (l : List Nat) (s : State), l.Nodup → (∀ k ∈ l, k < 4096) →
      let t := l.foldl (fun (t : State) k => (t.incWrap r (g k) p k).incWrap r' (g' k) p k) s
      t.rd r p m = (if m ∈ l then (s.rd r p m + g m) % 2 ^ r.w else s.rd r p m) ∧
        t.rd r' p m = (if m ∈ l then (s.rd r' p m + g' m) % 2 ^ r'.w else s.rd r' p m)
  | [], s, _, _ => ⟨rfl, rfl⟩
  | k :: l, s, hnd, hlt => by
    obtain ⟨hkl, hnd'⟩ := List.nodup_cons.mp hnd
    obtain ⟨hr, hr'⟩ := rd_foldl_incWrap hne p g g' hm l ((s.incWrap r (g k) p k).incWrap r' (g' k) p k) hnd'
      fun a ha => hlt a (List.mem_cons_of_mem k ha)
    have hk := hlt k List.mem_cons_self
    simp only [List.foldl_cons, hr, hr', List.mem_cons]
    rw [rd_incWrap_field _ _ _ _ _ _ hne]
    by_cases hmk : m = k
    · subst hmk
      rw [rd_incWrap_same, rd_incWrap_same, rd_incWrap_field _ _ _ _ _ _ hne.symm]
      simp [hkl]
    · have hplace : p % 4096 ≠ p % 4096 ∨ m % 4096 ≠ k % 4096 := Or.inr (by omega)
      rw [State.incWrap, State.incWrap, rd_wr_inst _ _ _ _ _ _ _ hplace, rd_wr_inst _ _ _ _ _ _ _ hplace, rd_wr_field _ _ _ _ _ _ hne.symm]
      simp [hmk]

theorem rd_ite_ev (s : State) (c : Prop) [Decidable c] (src ch detail aux : Nat) {r : Row} (i j : Nat) (h : r.id ≠ Reg.EVT_STAT_BITS.id) :
    (if c then s.ev src ch detail aux else s).rd r i j = s.rd r i j := by
  split
  · exact rd_ev _ _ _ _ _ _ _ _ h
  · rfl

theorem exec_fecRateSecond (s : State) (p : Fin 4) (a b c : List Nat) : ∃ t : State, exec (.fecRateSecond p a b c) s = .next t ∧
    ∀ m : Fin 4, t.rd Reg.NET_FECCORR_COUNT p m = (s.rd Reg.NET_FECCORR_COUNT p m + b.getD m 0) % 2 ^ Reg.NET_FECCORR_COUNT.w ∧
      t.rd Reg.NET_FECUNCORR_COUNT p m = (s.rd Reg.NET_FECUNCORR_COUNT p m + c.getD m 0) % 2 ^ Reg.NET_FECUNCORR_COUNT.w := by
  refine ⟨_, rfl, fun m => ?_⟩
  have hports := rd_foldl_incWrap (r := Reg.NET_FECCORR_COUNT) (r' := Reg.NET_FECUNCORR_COUNT) (by decide) p (fun k => b.getD k 0) (fun k => c.getD k 0)
    (m := m) (by omega) (List.range 4) s List.nodup_range (fun k hk => by have := List.mem_range.mp hk; omega)
  have hin : m.val ∈ List.range 4 := List.mem_range.mpr m.isLt
  rw [if_pos hin, if_pos hin] at hports
  constructor
  · rw [rd_evFlush_settle _ _ _ _ (by decide), rd_ite_ev _ _ _ _ _ _ _ _ (by decide), rd_ite_ev _ _ _ _ _ _ _ _ (by decide),
      rd_ite_ev _ _ _ _ _ _ _ _ (by decide), rd_ite_ev _ _ _ _ _ _ _ _ (by decide)]
    exact hports.1
  · rw [rd_evFlush_settle _ _ _ _ (by decide), rd_ite_ev _ _ _ _ _ _ _ _ (by decide), rd_ite_ev _ _ _ _ _ _ _ _ (by decide),
      rd_ite_ev _ _ _ _ _ _ _ _ (by decide), rd_ite_ev _ _ _ _ _ _ _ _ (by decide)]
    exact hports.2

/-- Settles O24. -/
theorem networkInputCommandsComplete : Obligations.NetworkInputCommandsComplete := by
  refine ⟨fun s m t fr w ch rate x hup hclk hlo hhi hcrc htag => ?frame,
    fun s m t fr w ch rate hup hclk hbad => congrArg finish ((if_neg (frameReceive_runs hup hclk)).trans (if_pos hbad)),
    fun s f ext x hflow hset hdue ha hb hrep hdecl => ⟨fun halone => ?loss, fun hrole hlink => ?asked⟩,
    fun s f net x hflow hup hsilent => ?path, fun s f x m hflow hfmt hlines hdue => ?group, fun s m inv hused hdown => ?macUp,
    fun s m fec hup => ?macDown, fun s f net e x hleave hflow hother => ?leave, fun s p a b c => exec_fecRateSecond s p a b c⟩
  case frame =>
    change execFrameReceive m t fr w ch rate s = _
    unfold execFrameReceive
    rw [htag]
    exact congrArg finish ((if_neg (frameReceive_runs hup hclk)).trans (if_neg (frame_sound hlo hhi hcrc)))
  case loss =>
    change execLossDeclare f ext s = _
    unfold execLossDeclare
    rw [hflow]
    exact congrArg finish ((if_neg (lossDeclare_acts hset hdue ha hb hrep hdecl)).trans (if_pos halone))
  case asked =>
    change execLossDeclare f ext s = _
    unfold execLossDeclare
    rw [hflow]
    exact congrArg finish ((if_neg (lossDeclare_acts hset hdue ha hb hrep hdecl)).trans (if_neg (not_or.mpr ⟨hrole, hlink⟩)))
  case path =>
    change execFlowPathDown f net s = _
    unfold execFlowPathDown
    rw [hflow]
    exact congrArg finish (if_pos ⟨hup, hsilent⟩)
  case group =>
    change execGroupLatch f s = _
    unfold execGroupLatch
    rw [hflow]
    dsimp only
    rw [hfmt]
    exact congrArg finish ((if_neg hlines).trans (if_neg (Nat.not_lt.mpr hdue)))
  case leave =>
    change execJoinLeave f net s = _
    unfold execJoinLeave
    rw [hleave]
    change finish (match s.flowIn f with | some x => _ | none => _) = _
    rw [hflow]
    exact congrArg finish (if_neg hother)
  case macUp =>
    have hmay : ¬((!s.macUsed m) = true ∨ s.macUp m = true) := by simp [hused, hdown]
    exact congrArg finish (if_neg hmay)
  case macDown => exact congrArg finish (if_neg (by rw [hup]; decide))

end Sys2Proof.Machine
end

section
/-! PROOFS. Network output as the obligation writes it: its clauses of a launch leave out the checks whose deadlines have passed (R378). -/

namespace Sys2Proof.Machine

/-- A frame that its role does not launch is counted, and leaves its shaper (R296, R374). -/
def State.suppressed (t : State) (sh now : Nat) (f : QFrame) (p : Prog) : State :=
  ((t.cvuItem (576 + sh) (p.rtpOf f ++ f.payload) none (some (p.seqNo f.seq))).released sh now f).incWrap
    Reg.SHP_MACSTAT_SUPPRESS 1 0 (t.rd Reg.SHP_SHAPER_MAC 0 sh)

/-- Before a launch is decided the checks whose deadlines have passed are judged: they may end the role that launches. -/
theorem exec_frameLaunch_suppressed {s : State} {sh : Fin 256} {t0 : Nat} {bad : List (Nat × Nat)} {f : QFrame} {rest : List QFrame} {p : Prog}
    (hq : (s.shp sh).queue = f :: rest) (hp : s.prog (sh / 4) = some p) (hdue : f.e ≤ max t0 s.ns) (hst : s.chSt (sh / 4) ≠ 6) (hclk : s.fclk = true)
    (hnot : (s.at (max t0 s.ns)).txDue.checksDue.launches (sh / 2 % 2) f.base = false) :
    exec (.frameLaunch sh t0 bad) s = .next ((s.at (max t0 s.ns)).txDue.checksDue.suppressed sh (max t0 s.ns) f p).evFlush.settle := by
  have hmay : ¬(max t0 s.ns < f.e ∨ s.chSt (sh / 4) = 6 ∨ (!s.fclk) = true) := by simp [hst, hclk, Nat.not_lt.mpr hdue]
  change execFrameLaunch sh t0 bad s = _
  simp only [execFrameLaunch, hq, hp, if_neg hmay, hnot, Bool.not_false, if_true]
  rfl

/-- A program on both networks, and a frame of it that is due at once. -/
def bothNets : Prog :=
  { nets := 3, mode := 0, pt := 96, dscp := 0, dport := 0, sport := 0, ssrc := 0, ttl := 64, initSeq := 0, dstA := 0, dstB := 0,
    pmtPid := 0, vidPid := 0, audPid := 0, progNum := 1, audPort := 0, audPt := 97 }
def dueFrame : QFrame :=
  { seq := 0, base := 0, e := 0, k := 188, ts := 0, marker := false, payload := [], lines := [], frame := 0, row := 0, audio := false }

/-- A device in RESYNC with a frame in its last shaper, and a unit whose record has not come by its deadline. -/
def unitOverdue : State :=
  let s := ((((State.reset.wr Reg.PCR_DEVSTAT_DEV 1).wr Reg.PCR_DEVSTAT_PSTATE 2).wr Reg.PAIR_PAIRSTAT_ROLE 3).setProg 63 (some bothNets)).setShp 255
    { queue := [dueFrame] }
  (s.setPair { s.pair with own := [({ ch := 0, stream := 0, row := 0, frames := 0, seq := 0, frame := 0, cc := 0, check := 0 }, 0, 0)] }).at 1

theorem unitOverdue_launch : (unitOverdue.shp (255 : Fin 256)).queue = dueFrame :: [] ∧ unitOverdue.prog ((255 : Fin 256) / 4) = some bothNets ∧
    dueFrame.e ≤ max 0 unitOverdue.ns ∧ unitOverdue.chSt ((255 : Fin 256) / 4) ≠ 6 ∧ unitOverdue.fclk = true := by decide +kernel

/-- Neither with nor without the overdue check does RESYNC launch the frame. -/
theorem unitOverdue_launches : (unitOverdue.at (max 0 unitOverdue.ns)).txDue.launches ((255 : Fin 256) / 2 % 2) dueFrame.base = false ∧
    (unitOverdue.at (max 0 unitOverdue.ns)).txDue.checksDue.launches ((255 : Fin 256) / 2 % 2) dueFrame.base = false := by decide +kernel

/-- The overdue check is counted once where the model judges it, and not at all in the clause's next state. -/
theorem unitOverdue_missing :
    ((unitOverdue.at (max 0 unitOverdue.ns)).txDue.suppressed 255 (max 0 unitOverdue.ns) dueFrame bothNets).rd Reg.PAIR_CHKMISSING_COUNT = 0 ∧
      ((unitOverdue.at (max 0 unitOverdue.ns)).txDue.checksDue.suppressed 255 (max 0 unitOverdue.ns) dueFrame bothNets).rd Reg.PAIR_CHKMISSING_COUNT = 1 := by
  decide +kernel

/-- Refutes O25: in `unitOverdue` a launch counts a missing check record, which the clause of a suppressed frame leaves out. -/
theorem not_networkOutputCommandsComplete : ¬ Obligations.NetworkOutputCommandsComplete := by
  rintro ⟨hsuppress, -⟩
  obtain ⟨hq, hp, hdue, hst, hclk⟩ := unitOverdue_launch
  obtain ⟨hnot, hnotChecked⟩ := unitOverdue_launches
  obtain ⟨hnone, hone⟩ := unitOverdue_missing
  have hclause := hsuppress unitOverdue 255 0 [] dueFrame [] bothNets hq hp hdue hst hclk hnot
  have hstep := Host.Outcome.next.inj ((exec_frameLaunch_suppressed hq hp hdue hst hclk hnotChecked).symm.trans hclause)
  have hcount := congrArg (fun t : State => t.rd Reg.PAIR_CHKMISSING_COUNT) hstep
  rw [rd_evFlush_settle _ _ _ _ (by decide), rd_evFlush_settle _ _ _ _ (by decide)] at hcount
  exact absurd (hone.symm.trans (hcount.trans hnone)) (by decide)

end Sys2Proof.Machine
end

section
/-! PROOFS. Frames of the serial audio ports complete (R335 to R345). -/

namespace Sys2Proof.Machine

theorem sapFrameDrive_runs {s : State} {p : Nat} (hst : s.apSt p ≠ 0) (hmaster : s.apMaster p = true) (hclk : s.fclk = true) :
    ¬(s.apSt p = 0 ∨ (!s.apMaster p) = true ∨ (!s.fclk) = true) := by simp [hst, hmaster, hclk]

theorem sapFrameReceive_runs {s : State} {p : Nat} (hst : s.apSt p ≠ 0) (hslave : s.apMaster p = false) (hclk : s.fclk = true) :
    ¬(s.apSt p = 0 ∨ s.apMaster p = true ∨ (!s.fclk) = true) := by simp [hst, hslave, hclk]

/-- A frame of the right length whose period is within 1% of the port's rate is valid (R340). -/
theorem sapFrame_valid {s : State} {p bclks per : Nat} (hbits : bclks = 2 * (s.apFmt p).2) (hlo : 990000000 ≤ per * s.apFs p)
    (hhi : per * s.apFs p ≤ 1010000000) :
    ¬(!decide (bclks = 2 * (s.apFmt p).2 ∧ 990000000 ≤ per * s.apFs p ∧ per * s.apFs p ≤ 1010000000)) = true := by
  rw [decide_eq_true (And.intro hbits ⟨hlo, hhi⟩)]
  decide

/-- Settles O27. -/
theorem audioPortCommandsComplete : Obligations.AudioPortCommandsComplete := by
  refine ⟨fun s p => rfl, fun s p sl sr hst hmaster hclk => congrArg finish (if_neg (sapFrameDrive_runs hst hmaster hclk)),
    fun s p t0 bclks per sl sr hst hslave hclk hbits hlo hhi =>
      congrArg finish ((if_neg (sapFrameReceive_runs hst hslave hclk)).trans (if_neg (sapFrame_valid hbits hlo hhi))),
    fun s p h hst hslave hlate hhi => ?loss, fun s v hclk => congrArg finish (if_pos ((fclk_hostAccess ..).trans hclk))⟩
  have hruns : ¬(s.apSt p ≠ 2 ∨ s.apMaster p = true ∨ (s.ns - (s.audPort p).lastAt) * s.apFs p < 4000000000) := by
    simp [hst, hslave, Nat.not_lt.mpr hlate]
  change execSapClockLoss p s = _
  unfold execSapClockLoss
  dsimp only
  rw [hhi]
  exact congrArg finish (if_neg hruns)

end Sys2Proof.Machine
end

section
/-! PROOFS. Lane states, lane data, eye scans, injected errors and the lanes' reference clocks complete (R346 to R363, R497, R508). -/

namespace Sys2Proof.Machine

/-! ### Lane states -/

/-- A lane that passes data or adapts loses its signal. -/
theorem laneSignalLoss_seen {s : State} {l : Fin 32} (h : s.lanePasses l = true ∨ s.laneSt l = 3) :
    ¬(!(s.lanePasses l || decide (s.laneSt l = 3))) = true := by
  rw [Bool.not_eq_true', Bool.or_eq_false_iff]
  rintro ⟨hpass, hst⟩
  rcases h with h | h
  · exact absurd (h.symm.trans hpass) (by decide)
  · exact absurd h (of_decide_eq_false hst)

theorem laneBackgroundTrial_due {s : State} {l : Nat} {ws : List (Nat × Nat)} (hpass : s.lanePasses l = true)
    (hbg : s.rd Reg.SDS_ADAPTCTL_BG l ≠ 0) (hws : ws ≠ [])
    (hdue : max (s.lane l).since (s.lane l).trialAt + s.rd Reg.SDS_ADAPTCTL_INTERVAL_MS l * 1000000 ≤ s.ns) :
    ¬((!s.lanePasses l) = true ∨ s.rd Reg.SDS_ADAPTCTL_BG l = 0 ∨ ws = [] ∨
      s.ns < max (s.lane l).since (s.lane l).trialAt + s.rd Reg.SDS_ADAPTCTL_INTERVAL_MS l * 1000000) := by
  rintro (h | h | h | h)
  exacts [absurd h (by rw [hpass]; decide), hbg h, hws h, Nat.not_lt.mpr hdue h]

theorem lane_hostAccess (s : State) (r : Row) (i j l : Nat) : (s.hostAccess r i j).lane l = s.lane l := by
  rw [State.lane, hostAccess_lanes]
  rfl

theorem laneSt_hostAccess (s : State) (r : Row) (i j l : Nat) : (s.hostAccess r i j).laneSt l = s.laneSt l := hostAccess_rd ..

theorem laneRestart_on {s : State} {l : Nat} (h : s.laneSt l ≠ 0) :
    s.laneRestart l = (s.setLane l { s.lane l with faults := 0 }).laneTo l 1 := if_neg h

/-- Settles O28. -/
theorem laneStateCommandsComplete : Obligations.LaneStateCommandsComplete := by
  refine ⟨fun s l hst => congrArg finish (if_pos hst), fun s l hst hlate => congrArg finish (if_pos ⟨hst, hlate⟩),
    fun s l inv hst => congrArg finish (if_neg (not_not_intro hst)), fun s l ws dfe vga hst => congrArg finish (if_neg (not_not_intro hst)),
    fun s l w dfe hpass => congrArg finish (if_neg (by rw [hpass]; decide)), fun s l hseen => congrArg finish ((if_neg (laneSignalLoss_seen hseen)).trans (if_pos rfl)),
    fun s l hseen => congrArg finish ((if_neg (laneSignalLoss_seen hseen)).trans (if_neg (by decide))),
    fun s l hst hfew hlate => congrArg finish (if_pos ⟨hst, hfew, hlate⟩),
    fun s l ws hpass hbg hws hdue => congrArg finish (if_neg (laneBackgroundTrial_due hpass hbg hws hdue)), fun s l hst => ?restart⟩
  have hon : (s.hostAccess Reg.SDS_LCTL_RESTART l).laneSt l ≠ 0 := by rwa [laneSt_hostAccess]
  have hrestart := laneRestart_on hon
  rw [lane_hostAccess] at hrestart
  exact congrArg finish hrestart

/-! ### Superblocks, eye scans and injected errors -/

/-- In mode 2 an error is injected at once, and then after each spacing. -/
theorem injection_due {s : State} {l : Nat} (hdue : ∀ t0, (s.lane l).injAt = some t0 → t0 + s.injSpace l ≤ s.ns) :
    (match (s.lane l).injAt with | some t => decide (t + s.injSpace l ≤ s.ns) | none => true) = true := by
  cases h : (s.lane l).injAt with
  | none => rfl
  | some t0 => exact decide_eq_true (hdue t0 h)

/-- Settles O29. -/
theorem laneDataAndTestCommandsComplete : Obligations.LaneDataAndTestCommandsComplete := by
  refine ⟨fun s l ui sb lane typ cnt pl hlo hhi hpass hinv hsync hgood htyp hspaced => ?superblock, fun s l => ?start,
    fun s l count hscan => congrArg finish (if_neg (by rw [hscan]; decide)), fun s l hopen hmode hpass => congrArg finish (if_pos ?fire),
    fun s l hmode hpass hdue => congrArg finish (if_pos ⟨hmode, hpass, injection_due hdue⟩), fun s pair => rfl,
    fun s pair hoff hclk hrun => congrArg finish ((if_neg (by rw [hoff]; decide)).trans (if_pos ⟨hclk, hrun⟩))⟩
  case superblock =>
    have hruns : ¬(l.val < 16 ∨ 24 ≤ l.val ∨ (!s.lanePasses l) = true) := by
      rintro (h | h | h)
      exacts [Nat.not_lt.mpr hlo h, Nat.not_le.mpr hhi h, absurd h (by rw [hpass]; decide)]
    have hrec : ¬3 ≤ typ := Nat.not_le.mpr htyp
    have hlane (v : Lane) : (s.setLane l v).lane l = v := tget_tset_same ..
    change execSuperblockReceive l ui sb s = _
    simp only [execSuperblockReceive, if_neg hruns, hinv, hsync, Nat.reduceEqDiff, false_and, if_false, hgood, Bool.not_true,
      Bool.false_eq_true, false_or, if_neg hrec, hlane, and_self, hspaced, if_true]
    rfl
  case start =>
    rw [← lane_hostAccess s Reg.SDS_EYECTL_START l 0 l]
    rfl
  case fire =>
    rw [hostAccess_rd, hostAccess_rd, lanePasses_hostAccess]
    exact ⟨hopen, hmode, hpass⟩

end Sys2Proof.Machine
end

section
/-! PROOFS. Claims, heartbeats and link frames (R365 to R376): the heartbeats and the link complete; the end of a contest is written as lost. -/

namespace Sys2Proof.Machine

/-! ### Claims -/

/-- A contest ends won when the partner's line was seen released at least 1 µs before its end (R368). -/
theorem exec_claimWaitTimeout_won {s : State} {t h : Nat} (hclaim : s.pair.claim = .contest t (some h)) (hend : t + 50000 ≤ s.ns)
    (hfree : s.lockIn = false) (hhigh : h + 1000 ≤ t + 50000) : exec .claimWaitTimeout s = .next s.claimWon.evFlush.settle := by
  change execClaimWaitTimeout s = _
  simp only [execClaimWaitTimeout, hclaim, hfree, decide_eq_true hhigh, if_neg (Nat.not_lt.mpr hend), Bool.not_false, Bool.and_self, if_true]
  rfl

/-- A contest that began at 0, with the partner's line released from its first instant on, at its end. -/
def contestOver : State := (State.reset.setPair { State.reset.pair with claim := .contest 0 (some 0) }).at 50000

theorem contestOver_won : contestOver.claimWon.role = 1 := by decide +kernel
theorem contestOver_lost : contestOver.claimLost.role = 0 := by decide +kernel

/-- Refutes O30: the contest of `contestOver` is won, and the clause of CLAIM_WAIT_TIMEOUT takes every contest as lost. -/
theorem not_pairClaimCommandsComplete : ¬ Obligations.PairClaimCommandsComplete := by
  rintro ⟨-, -, -, -, htimeout, -⟩
  have hclaim : contestOver.pair.claim = .contest 0 (some 0) := rfl
  have hend : 0 + 50000 ≤ contestOver.ns := by decide +kernel
  have hwon := exec_claimWaitTimeout_won hclaim hend (by decide) (by decide)
  have hstep := Host.Outcome.next.inj (hwon.symm.trans (htimeout contestOver 0 (some 0) hclaim hend))
  have hrole := congrArg State.role hstep
  rw [role_evFlush_settle, role_evFlush_settle, contestOver_won, contestOver_lost] at hrole
  exact absurd hrole (by decide)

/-! ### Heartbeats -/

theorem heartbeat_due {s : State} (hpaired : s.paired = true) (hclk : s.fclk = true) (hdev : s.dev ≠ 0) (hdue : s.pair.hbNext ≤ s.ns) :
    ¬((!s.paired) = true ∨ (!s.fclk) = true ∨ s.dev = 0 ∨ s.ns < s.pair.hbNext) := by simp [hpaired, hclk, hdev, hdue]

theorem heartbeat_heard {s : State} (hup : s.rd Reg.PAIR_PAIRSTAT_LINKUP = 1) (hclk : s.fclk = true) (hdev : s.dev ≠ 0) :
    ¬(s.rd Reg.PAIR_PAIRSTAT_LINKUP = 0 ∨ (!s.fclk) = true ∨ s.dev = 0) := by simp [hup, hclk, hdev]

/-- The last heartbeat of a path that was alive is older than the timeout. -/
theorem path_silent {s : State} {r : Row} {last : Nat} (hpaired : s.paired = true) (halive : s.rd r ≠ 0)
    (hlate : last + s.rd Reg.PAIR_HBTIMEOUT_US * 1000 ≤ s.ns) :
    ¬((!s.paired) = true ∨ s.rd r = 0 ∨ s.ns < last + s.rd Reg.PAIR_HBTIMEOUT_US * 1000) := by
  rintro (h | h | h)
  exacts [absurd h (by rw [hpaired]; decide), halive h, Nat.not_lt.mpr hlate h]

theorem edge_counts {s : State} (hon : s.rd Reg.PCR_DEVSTAT_PSTATE ≠ 0)
    (hnew : s.fclk = false ∨ s.pair.hbLineAt = 0 ∨ s.pair.hbLineAt + 1000 ≤ s.ns) :
    ¬(s.rd Reg.PCR_DEVSTAT_PSTATE = 0 ∨ (s.fclk = true ∧ s.pair.hbLineAt ≠ 0 ∧ s.ns < s.pair.hbLineAt + 1000)) := by
  rintro (h | ⟨hclk, hset, hsoon⟩)
  · exact hon h
  · rcases hnew with h | h | h
    exacts [absurd (h.symm.trans hclk) (by decide), hset h, Nat.not_lt.mpr h hsoon]

theorem generator_late {s : State} (hrole : s.role = 1) (hlate : s.pair.hbSent + s.rd Reg.PAIR_HBTIMEOUT_US * 500 ≤ s.ns) :
    ¬(s.role ≠ 1 ∨ s.ns < s.pair.hbSent + s.rd Reg.PAIR_HBTIMEOUT_US * 500) := by simp [hrole, hlate]

/-- Settles O31. -/
theorem heartbeatCommandsComplete : Obligations.HeartbeatCommandsComplete :=
  ⟨fun _ hpaired hclk hdev hdue => congrArg finish (if_neg (heartbeat_due hpaired hclk hdev hdue)),
    fun _ _ _ hup hclk hdev => congrArg finish (if_neg (heartbeat_heard hup hclk hdev)),
    fun _ _ hpaired halive hlate => congrArg finish (if_neg (path_silent hpaired halive hlate)),
    fun _ hon hnew => congrArg finish (if_neg (edge_counts hon hnew)), fun _ hrole hlate => congrArg finish (if_neg (generator_late hrole hlate))⟩

/-! ### The link -/

theorem exec_linkControlSend {s : State} {c : Fin 3} (hup : s.rd Reg.PAIR_PAIRSTAT_LINKUP = 1) (hun : (s.tx c).unacked ≠ []) :
    exec .linkControlSend s = .next (s.linkOut 3 0 .ackOnly).evFlush.settle := by
  have hany : (List.range 3).any (fun c => !(s.tx c).unacked.isEmpty) = true :=
    List.any_eq_true.mpr ⟨c, List.mem_range.mpr c.isLt, by simpa using hun⟩
  exact congrArg finish (if_pos ⟨hup, hany⟩)

/-- A mirror in its sequence is applied at once by a device that has the image and holds none back. -/
theorem mirrorIn_inSequence {s : State} {m : MirrorRec} (hrole : 2 ≤ s.role) (hseq : m.seq = s.rd Reg.PAIR_MIRRORSEQ_RX)
    (himage : s.rd Reg.PAIR_PAIRSTAT_IMAGE = 1) (hheld : s.pair.heldMirrors = []) :
    s.mirrorIn m = (s.wr Reg.PAIR_MIRRORSEQ_RX (m.seq + 1)).mirrorApply m := by
  have hwaits : ¬((s.wr Reg.PAIR_MIRRORSEQ_RX (m.seq + 1)).rd Reg.PAIR_PAIRSTAT_IMAGE = 0 ∨ (!s.pair.heldMirrors.isEmpty) = true) := by
    rw [rd_wr_field _ _ _ _ _ _ (by decide), himage, hheld]
    decide
  exact (if_neg (Nat.not_lt.mpr hrole)).trans ((if_neg (not_not_intro hseq)).trans (if_neg hwaits))

/-- Settles O32. -/
theorem linkCommandsComplete : Obligations.LinkCommandsComplete := by
  refine ⟨fun s fr hup hlen hcrc hc hseq => ?frame, fun s c e rest hun hlate => ?again, fun s c e rest hun hlate => ?giveUp,
    fun s c hup hun => exec_linkControlSend hup hun, fun s seq op h p st d r0 r1 hrole hlt hseq himage hheld => ?mirror⟩
  case frame =>
    have hdown : ¬s.rd Reg.PAIR_PAIRSTAT_LINKUP = 0 := by rw [hup]; decide
    have hnext : ¬(3 < fld fr 0 1 ∨ (fld fr 0 1 < 3 ∧ fld fr 2 2 ≠ tget 0 s.pair.rx (fld fr 0 1))) := by
      rintro (h | ⟨-, h⟩)
      exacts [absurd h (by omega), h hseq]
    have hdata : fld fr 0 1 ≠ 3 := by omega
    change execLinkFrameReceive fr none s = _
    simp only [execLinkFrameReceive, if_neg hdown, if_neg (not_not_intro hlen), if_neg (not_not_intro hcrc), if_neg hnext, if_pos hc, if_pos hdata]
    rfl
  case again =>
    change execLinkRetransmit c s = _
    simp only [execLinkRetransmit, hun]
    exact congrArg finish (if_neg (Nat.not_lt.mpr hlate))
  case giveUp =>
    change execLinkGiveup c s = _
    simp only [execLinkGiveup, hun]
    exact congrArg finish (if_neg (Nat.not_lt.mpr hlate))
  case mirror =>
    rw [← mirrorIn_inSequence (m := { seq := seq, op := op, h := h, p := p, status := st, detail := d, r0 := r0, r1 := r1 }) hrole hseq himage hheld]
    change finish (s.mirrorIn { seq := seq % 65536, op := op, h := h, p := p, status := st, detail := d, r0 := r0, r1 := r1 }) = _
    rw [Nat.mod_eq_of_lt hlt]
    rfl

end Sys2Proof.Machine
end

section
/-! PROOFS. Check deadlines as the obligation writes them: a lock line read as neither 0 nor 1 (R371, R378). -/

namespace Sys2Proof.Machine

/-- A unit without its partner's record at its deadline is a missing check, but for a TAILSTOCK that reads the line released. -/
theorem exec_checkDeadline {s : State} {e : CheckRec × Nat × Nat} (h : (s.pair.own.find? fun e => decide (e.2.2 ≤ s.ns)) = some e) :
    exec .checkDeadline s = .next (s.checkMissed e).evFlush.settle := by
  change execCheckDeadline s = _
  unfold execCheckDeadline
  rw [h]
  rfl

/-- A unit whose record is due at once. -/
def overdueUnit : CheckRec × Nat × Nat := ({ ch := 0, stream := 0, row := 0, frames := 0, seq := 0, frame := 0, cc := 0, check := 0 }, 0, 0)

/-- A TAILSTOCK whose field LOCKIN holds 2. No write of the model stores that in a field of one bit, but the statement is about every
state, and the model takes the line as released where LOCKIN is 0, the clause where it is not 1. -/
def lockInTwo : State :=
  let s := State.reset.wr Reg.PAIR_PAIRSTAT_ROLE 2
  { s with regs := tset 0 s.regs (rowKey Reg.PAIR_PAIRSTAT_LOCKIN 0 0) 2, pair := { s.pair with own := [overdueUnit] } }

/-- The clause's next state before its events are processed: the unit is dropped in silence. -/
def State.droppedUnit (s : State) (e : CheckRec × Nat × Nat) : State := s.setPair { s.pair with own := s.pair.own.erase e }

theorem lockInTwo_released : (lockInTwo.droppedUnit overdueUnit).role = 2 ∧ (!(lockInTwo.droppedUnit overdueUnit).lockIn) = true := by decide +kernel

theorem lockInTwo_missing : (lockInTwo.droppedUnit overdueUnit).rd Reg.PAIR_CHKMISSING_COUNT = 0 ∧
    (lockInTwo.checkMissed overdueUnit).rd Reg.PAIR_CHKMISSING_COUNT = 1 := by decide +kernel

/-- Refutes O33: in `lockInTwo` the model counts a missing check record, and the clause of CHECK_DEADLINE drops the unit in silence. The clause fails
in such a state alone: where LOCKIN is 0 or 1 it says what the model does. -/
theorem not_pairDataCommandsComplete : ¬ Obligations.PairDataCommandsComplete := by
  rintro ⟨-, hdeadline, -⟩
  have hfind : (lockInTwo.pair.own.find? fun e => decide (e.2.2 ≤ lockInTwo.ns)) = some overdueUnit := by decide +kernel
  obtain ⟨hnone, hone⟩ := lockInTwo_missing
  have hclause : exec .checkDeadline lockInTwo = .next (lockInTwo.droppedUnit overdueUnit).evFlush.settle :=
    (hdeadline lockInTwo overdueUnit hfind).trans (congrArg finish (if_pos lockInTwo_released))
  have hstep := Host.Outcome.next.inj ((exec_checkDeadline hfind).symm.trans hclause)
  have hcount := congrArg (fun t : State => t.rd Reg.PAIR_CHKMISSING_COUNT) hstep
  rw [rd_evFlush_settle _ _ _ _ (by decide), rd_evFlush_settle _ _ _ _ (by decide)] at hcount
  exact absurd (hone.symm.trans (hcount.trans hnone)) (by decide)

end Sys2Proof.Machine
end

section
/-! PROOFS. DRAM, check value windows and records complete (R391 to R409, R425 to R434, R446, R450). -/

namespace Sys2Proof.Machine

/-! ### DRAM -/

theorem mr4Early_of_due {s : State} (h : ∀ t, s.dmc.mr4At = some t → t + s.rd Reg.DMC_REFCFG_MR4_INT * 1000 ≤ s.ns) : s.mr4Early = false := by
  unfold State.mr4Early
  cases hat : s.dmc.mr4At with
  | none => rfl
  | some t => exact decide_eq_false (Nat.not_lt.mpr (h t hat))

theorem dramScrubLine_due {s : State} {c : Nat} (hready : s.dramReady c = true)
    (hdue : ∀ t, (s.dmcCh c).scrubAt = some t → t + s.rd Reg.DMC_SCRUB_INTERVAL c * 1000000 / dclkKhz (s.rd Reg.DMC_CHSTAT_POINT c) ≤ s.ns) :
    ¬((!s.dramReady c) = true ∨ (match (s.dmcCh c).scrubAt with
      | some t => decide (s.ns < t + s.rd Reg.DMC_SCRUB_INTERVAL c * 1000000 / dclkKhz (s.rd Reg.DMC_CHSTAT_POINT c))
      | none => false) = true) := by
  cases hat : (s.dmcCh c).scrubAt with
  | none => simp [hready]
  | some t => simpa [hready] using hdue t hat

/-- Settles O34. -/
theorem dramCommandsComplete : Obligations.DramCommandsComplete := by
  refine ⟨fun s hup hclk hclosed => ?refresh, fun s readings hup hclk hdue => congrArg finish (if_pos ?poll),
    fun s hdue => congrArg finish (if_neg (Nat.not_lt.mpr hdue)),
    fun s line d res hin hready hfree => congrArg finish ((if_neg (Nat.not_le.mpr hin)).trans ((if_neg (by rw [hfree]; decide)).trans (if_pos hready))),
    fun s line w act res hin hheld => congrArg finish ((if_neg (Nat.not_le.mpr hin)).trans (if_pos hheld)), fun s c slot => rfl,
    fun s c hready hclean hdue => ?scrub, fun s pass t0 htrain hstep => ?train, fun s pt key rest hpoints hst => ?switch⟩
  case refresh =>
    have hruns : ¬((!s.dramUp) = true ∨ (!s.fclk) = true) := by simp [hup, hclk]
    have hwindow : ¬((s.rd Reg.SPD_SPDSTAT_WINDOW = 1 ∧ (!s.dmc.cut) = true) ∧ 0 < s.postMax) := by simp [hclosed]
    exact congrArg finish ((if_neg hruns).trans
      (congrArg (fun u : State => u.nextDue (s.at (cdiv s.dmc.due 16)).refRate s.dmc.due) (if_neg hwindow)))
  case poll =>
    rw [hup, hclk, mr4Early_of_due hdue]
    rfl
  case scrub =>
    refine congrArg finish ((if_neg (dramScrubLine_due hready hdue)).trans ?_)
    dsimp only
    rw [hclean]
    rfl
  case train =>
    change execTrainingStepEnd pass s = _
    unfold execTrainingStepEnd
    rw [htrain]
    exact congrArg finish (if_neg hstep)
  case switch =>
    change execSetPointSwitchEnd s = _
    unfold execSetPointSwitchEnd
    rw [hpoints]
    exact congrArg finish (if_neg (not_not_intro hst))

/-! ### Check values and records -/

theorem fclk_wr (s : State) {r : Row} (v i j : Nat) (h : Reg.PCR_DEVSTAT_PSTATE.id ≠ r.id) : (s.wr r v i j).fclk = s.fclk := by
  rw [State.fclk, rd_wr_field _ _ _ _ _ _ h]
  rfl

theorem cvuCloses_none (s : State) : s.cvuCloses [] = s :=
  List.foldl_fixed (a := s) (List.range 32)

/-- Settles O35. -/
theorem checkValueAndRecordCommandsComplete : Obligations.CheckValueAndRecordCommandsComplete := by
  refine ⟨fun s us hclk => congrArg finish (if_pos hclk), fun s us hclk => ⟨congrArg finish (if_pos ?unit), fun b => congrArg finish (if_pos ?group)⟩,
    fun s => ⟨_, rfl, ?cleared⟩, fun s hclk => congrArg finish (if_pos hclk), fun s hclk => congrArg finish (if_pos hclk)⟩
  case unit => rwa [fclk_wr _ _ _ _ (by decide), fclk_hostAccess]
  case group => rwa [fclk_wr _ _ _ _ (by decide), fclk_hostAccess]
  case cleared =>
    rw [rd_evFlush_settle _ _ _ _ (by decide)]
    dsimp only
    rw [cvuCloses_none, ite_self, rd_wr_same]
    rfl

end Sys2Proof.Machine
end

section
/-! PROOFS. Resets, power states and monitors complete (R452 to R471, R507, R508). -/

namespace Sys2Proof.Machine

/-! ### Resets and rails -/

theorem aoOn_hostAccess (s : State) (r : Row) (i j : Nat) : (s.hostAccess r i j).aoOn = s.aoOn := by
  unfold State.aoOn
  rw [hostAccess_rd, hostAccess_pcr]

theorem coldReset_runs {s : State} (hao : s.aoOn = true) (htrip : s.pcr.tripped = false) (hkind : s.pcr.kind = 1) (hstage : s.pcr.stage = 0) :
    ¬((!s.aoOn) = true ∨ s.pcr.tripped = true ∨ s.pcr.kind ≠ 1 ∨ s.pcr.stage ≠ 0) := by simp [hao, htrip, hkind, hstage]

theorem warmReset_runs {s : State} (hao : s.aoOn = true) (hkind : s.pcr.kind = 2) (hstage : s.pcr.stage = 0) (hrails : s.pcr.rails = true) :
    ¬((!s.aoOn) = true ∨ s.pcr.kind ≠ 2 ∨ s.pcr.stage ≠ 0 ∨ (!s.pcr.rails) = true) := by simp [hao, hkind, hstage, hrails]

theorem railsWaited {s : State} (hkind : s.pcr.kind = 1) (hstage : s.pcr.stage = 1) (hen : s.pcr.en = true) :
    ¬(s.pcr.kind ≠ 1 ∨ s.pcr.stage ≠ 1 ∨ (!s.pcr.en) = true) := by simp [hkind, hstage, hen]

theorem bootEnd_runs {s : State} (hdev : s.dev = 0) (hkind : s.pcr.kind ≠ 0) (hstage : s.pcr.stage = 2) (hwiped : s.rd Reg.CST_CSTSTAT_WIPING = 0) :
    ¬(s.dev ≠ 0 ∨ s.pcr.kind = 0 ∨ s.pcr.stage ≠ 2 ∨ s.rd Reg.CST_CSTSTAT_WIPING = 1) := by simp [hdev, hkind, hstage, hwiped]

/-- A reset by RSTCTL needs its key and a running AO domain. -/
theorem rstctl_key (s : State) (r : Row) (hao : s.aoOn = true) : (0x5A5A : Nat) = 0x5A5A ∧ (s.hostAccess r).aoOn = true :=
  ⟨rfl, (aoOn_hostAccess ..).trans hao⟩

/-- Settles O36. -/
theorem resetCommandsComplete : Obligations.ResetCommandsComplete := by
  refine ⟨fun s => rfl, fun s nv hoff href => congrArg finish (if_neg ?powerOn), fun s hon => congrArg finish (if_neg hon),
    fun s hlost => congrArg finish (if_neg ?refclk), fun s hao => congrArg finish (if_pos hao),
    fun s b hao htrip hkind hstage => congrArg finish (if_neg (coldReset_runs hao htrip hkind hstage)),
    fun s b hao hkind hstage hrails => congrArg finish (if_neg (warmReset_runs hao hkind hstage hrails)),
    fun s hkind hstage hen => congrArg finish (if_neg (railsWaited hkind hstage hen)),
    fun s hkind hstage hen => congrArg finish (if_neg (railsWaited hkind hstage hen)),
    fun s hkind hstage hen hfails => congrArg finish (if_pos ⟨hkind, hstage, ?retry, hfails⟩), fun s hrails => congrArg finish (if_pos hrails),
    fun s hdev hkind hstage hwiped => congrArg finish (if_neg (bootEnd_runs hdev hkind hstage hwiped)),
    fun s temps htrip hcool => congrArg finish (if_neg ?cool), fun s hao => congrArg finish (if_pos (rstctl_key s _ hao)),
    fun s hao => congrArg finish (if_pos (rstctl_key s _ hao)),
    fun s key hkey => ⟨congrArg finish (if_neg fun h => hkey h.1), congrArg finish (if_neg fun h => hkey h.1)⟩⟩
  case powerOn => simp [hoff, href]
  case refclk => simp [hlost]
  case retry => rw [hen]; rfl
  case cool => rw [htrip, hcool]; decide

/-! ### What taking back the queues leaves of the power controller -/

theorem poolNote_pcr (s : State) (n : Nat) : (s.poolNote n).pcr = s.pcr := by
  unfold State.poolNote
  dsimp only
  split <;> rfl

theorem putTask_pcr (s : State) (d : Nat) (t : Task) : (s.putTask d t).pcr = s.pcr := by
  have hseq (v : Task) (before : Nat) : (((s.wr Reg.SPD_GSEQ_NEXT (s.rd Reg.SPD_GSEQ_NEXT + 1)).setTask d v).poolNote before).pcr = s.pcr :=
    poolNote_pcr _ _
  unfold State.putTask
  dsimp only
  split
  · rfl
  · exact hseq _ _

theorem commitTask_pcr (s : State) (c : Commit) : (s.commitTask c).2.pcr = s.pcr := by
  unfold State.commitTask
  split
  · rfl
  · exact putTask_pcr _ _ _

theorem handCommit_pcr (s : State) (c : Commit) : (s.handCommit c).pcr = s.pcr := by
  have h := commitTask_pcr s c
  unfold State.handCommit
  generalize s.commitTask c = x at h
  obtain ⟨d, t⟩ := x
  dsimp only at h ⊢
  split
  · rfl
  split
  · exact h
  split <;> exact h

theorem freeTask_pcr (s : State) (d : Nat) : (s.freeTask d).pcr = s.pcr := by
  unfold State.freeTask
  dsimp only
  split <;> rfl

theorem foldl_pcr {α : Type} {f : State → α → State} (h : ∀ (s : State) (a : α), (f s a).pcr = s.pcr) : ∀ (l : List α) (s : State), (l.foldl f s).pcr = s.pcr
  | [], _ => rfl
  | a :: l, s => (foldl_pcr h l (f s a)).trans (h s a)

theorem dropFetched_pcr (s : State) (q : Nat) : (s.dropFetched q).pcr = s.pcr := foldl_pcr freeTask_pcr _ s

theorem handReplies_pcr (s : State) (q : Nat) : (s.handReplies q).pcr = s.pcr := 
  foldl_pcr (fun (t : State) (r : Rply) => foldl_pcr handCommit_pcr r.commits t) _ s

theorem qstatInit_pcr (s : State) (q en : Nat) : (s.qstatInit q en).pcr = s.pcr := by simp only [State.qstatInit, wr_pcr]

theorem pcieDown_pcr (s : State) : s.pcieDown.pcr = s.pcr := by
  unfold State.pcieDown
  split <;> rfl

/-- What PERST_N leaves of a queue: nothing fetched, its replies' commits handed on, its state as after a reset. -/
def State.queueOff (s : State) (q : Nat) : State := (((s.dropFetched q).handReplies q).setQue q {}).qstatInit q 0

theorem queueOff_pcr (s : State) (q : Nat) : (s.queueOff q).pcr = s.pcr :=
  (qstatInit_pcr _ q 0).trans ((handReplies_pcr _ q).trans (dropFetched_pcr s q))

theorem eqstat_pcr (s : State) : s.eqstat.pcr = s.pcr := by simp only [State.eqstat, wr_pcr]

/-- PERST_N asserted: the link goes down, and AQ, EQ and every queue are as after a reset. -/
theorem exec_perstNAssert {s : State} (hao : s.aoOn = true) :
    exec .perstNAssert s = .next ((((({ s with pcr := { s.pcr with perstN := false } } : State).pcieDown.wr Reg.HIF_AQCTL_ENABLE 0).wr
      Reg.HIF_EQCTL_ENABLE 0).forEach (List.range 67) State.queueOff).eqstat).evFlush.settle :=
  congrArg finish (if_neg (by rw [hao]; decide))

theorem perstN_perstNAssert {s : State} (hao : s.aoOn = true) : ∃ t : State, exec .perstNAssert s = .next t ∧ t.pcr.perstN = false := by
  refine ⟨_, exec_perstNAssert hao, ?_⟩
  rw [settle_pcr, evFlush_pcr, eqstat_pcr, State.forEach, foldl_pcr queueOff_pcr, wr_pcr, wr_pcr, pcieDown_pcr]

/-! ### Power states, monitors and the management core -/

theorem chSt_hostAccess (s : State) (r : Row) (i j n : Nat) : (s.hostAccess r i j).chSt n = s.chSt n := hostAccess_rd ..

theorem clockGateClose_runs {s : State} {u : Fin 256} (hclk : s.fclk = true) (hidle : s.atTarget u = 0) (hopen : tget false s.pcr.gates u = true) :
    ¬((!s.fclk) = true ∨ s.atTarget u ≠ 0 ∨ (!tget false s.pcr.gates u) = true) := by simp [hclk, hidle, hopen]

/-- Settles O37. -/
theorem powerCommandsComplete : Obligations.PowerCommandsComplete := by
  refine ⟨fun s hidle hdev hstopped => congrArg finish (if_neg ?ao), fun s pin hen hpin => congrArg finish (if_pos ⟨hen, hpin⟩),
    fun s hao => perstN_perstNAssert hao, fun s hao => congrArg finish (if_neg ?rise),
    fun s u hclk hidle hopen hu => congrArg finish ((if_neg (clockGateClose_runs hclk hidle hopen)).trans (if_pos hu)),
    fun s temps mv mw hao hmv => congrArg finish ((if_neg ?on).trans (if_neg (Nat.not_lt.mpr hmv))), fun s bits hw hao => ?alarm,
    fun s hao hdev hfew => ?watchdog, fun s hdown => congrArg finish ((if_neg ?down).trans (if_neg (by decide))),
    fun s hdown => congrArg finish ((if_neg ?down').trans (if_pos rfl)), fun s up hao hnew => congrArg finish (if_neg ?link)⟩
  case ao =>
    simp only [hostAccess_rd, dev_hostAccess, chSt_hostAccess, hidle, hstopped]
    simp [hdev]
  case rise => rw [hao]; decide
  case on => rw [hao]; decide
  case alarm =>
    refine ⟨_, congrArg finish (if_pos ((aoOn_hostAccess ..).trans hao)), ?_⟩
    rw [rd_evFlush_settle _ _ _ _ (by decide), State.alarmClear, rd_wr_same, hostAccess_rd, hostAccess_rd]
  case watchdog =>
    have hruns : ¬(!s.aoOn) = true := by rw [hao]; decide
    refine ⟨_, congrArg finish ((if_neg hruns).trans ((if_neg hdev).trans (if_neg (Nat.not_le.mpr hfew)))), ?_, ?_⟩ <;>
      rw [settle_mgt, evFlush_mgt]
  case down => rw [hdown]; decide
  case down' => rw [hdown]; decide
  case link => simp [hao, hnew]

end Sys2Proof.Machine
end

section
/-! PROOFS. Service messages and the rest of an update complete (R472 to R492). -/

namespace Sys2Proof.Machine

/-! ### Messages of the service port -/

/-- A message that the management core takes is acted on once its sequence is noted. -/
theorem finish_svcMsg {s : State} {snd seq typ : Nat} (act : State → State) (ht : s.TakesMsg snd seq typ) :
    finish (s.svcMsg snd seq typ act) = .next (act (s.svcAccept snd seq)).evFlush.settle := congrArg finish (svcMsg_takes s snd seq typ act ht)

theorem exec_reservedServiceMessage {s : State} {snd seq typ : Nat} (hbyte : typ < 256) (hres : typ = 0 ∨ 10 < typ) (ht : s.TakesMsg snd seq typ) :
    exec (.reservedServiceMessage snd seq typ) s = .next ((s.svcAccept snd seq).svcReply snd seq typ stUnsupported 1).evFlush.settle := by
  have hnamed : ¬(1 ≤ typ ∧ typ ≤ 10) := by omega
  change finish (if 1 ≤ typ % 256 ∧ typ % 256 ≤ 10 then s else
    s.svcMsg snd seq (typ % 256) fun s => s.svcReply snd seq (typ % 256) stUnsupported 1) = _
  rw [Nat.mod_eq_of_lt hbyte, if_neg hnamed]
  exact finish_svcMsg _ ht

/-- Settles O38. -/
theorem serviceMessagesComplete : Obligations.ServiceMessagesComplete :=
  ⟨fun _ _ _ ht => finish_svcMsg _ ht, fun _ _ _ _ _ _ ht => finish_svcMsg _ ht, fun _ _ _ _ _ _ ht => finish_svcMsg _ ht,
    fun _ _ _ ht hst => (finish_svcMsg _ ht).trans (congrArg finish (if_neg (not_not_intro hst))), fun _ _ _ _ _ ht => finish_svcMsg _ ht,
    fun _ _ _ ht hcan => (finish_svcMsg _ ht).trans (congrArg finish (if_neg (by rw [hcan]; decide))), fun _ _ _ ht => finish_svcMsg _ ht,
    fun _ _ _ ht => finish_svcMsg _ ht, fun _ _ _ ht => finish_svcMsg _ ht, fun _ _ _ ht => finish_svcMsg _ ht,
    fun _ _ _ _ _ _ ht => finish_svcMsg _ ht, fun _ _ _ _ hbyte hres ht => exec_reservedServiceMessage hbyte hres ht⟩

/-! ### Flash, verification and confirmation -/

theorem exec_flashBlockProgrammed {s : State} {index a b c : Nat} {d : Bytes} (hprog : (s.mgt.prog.find? fun e => e.1 = index) = some (a, b, c, d))
    (hst : s.mgt.nv.staged.st = 1) (hup : s.mgt.down = false) :
    exec (.flashBlockProgrammed index) s = .next (s.programmed index d).evFlush.settle := by
  change execFlashBlockProgrammed index s = _
  unfold execFlashBlockProgrammed
  rw [hprog]
  exact congrArg finish (if_neg (by simp [hst, hup]))

theorem exec_stagingEraseDone {s : State} (off len : Nat) {done : List (Nat × Nat)} (herase : s.mgt.erase = some done) (hup : s.mgt.down = false) :
    exec (.stagingEraseDone off len) s = .next (s.erased off (min len (0x3000000 - off)) done).evFlush.settle := by
  change execStagingEraseDone off len s = _
  unfold execStagingEraseDone
  rw [herase]
  exact congrArg finish (if_neg (by rw [hup]; decide))

/-- The wait of a BEGIN ends, and this device keeps the update. -/
theorem beginEnd_keeps {s : State} {snd seq t : Nat} (hwait : s.mgt.beginWait = some (snd, seq, t))
    (hkeeps : ¬(s.mgt.upd = true ∧ s.rd Reg.PAIR_PAIRSTAT_LINKUP = 1 ∧ s.pair.pUpd = true ∧ s.rd Reg.PAIR_PAIRSTAT_SLOT = 1)) :
    s.beginEnd = ({ s with mgt := { s.mgt with beginWait := none } } : State).svcReply snd seq 2 stOk 0 := by
  unfold State.beginEnd
  rw [hwait]
  exact if_neg hkeeps

theorem exec_beginPairWaitEnd {s : State} {snd seq t : Nat} (hup : s.mgt.down = false) (hwait : s.mgt.beginWait = some (snd, seq, t))
    (hdue : t + 2000 * s.rd Reg.PAIR_HBCFG_PERIOD_US ≤ s.ns) : exec .beginPairWaitEnd s = finish s.beginEnd := by
  have hnow : s.beginDue = true := by
    unfold State.beginDue
    rw [hwait]
    exact decide_eq_true hdue
  exact congrArg finish (if_pos (by rw [hup, hnow]; rfl))

/-- Settles O39. -/
theorem updateProgressCommandsComplete : Obligations.UpdateProgressCommandsComplete := by
  refine ⟨fun s index a b c d hprog hst hup => exec_flashBlockProgrammed hprog hst hup, fun s off len done herase hup => exec_stagingEraseDone off len herase hup,
    fun s ok hup hst => congrArg finish (if_neg ?verify), fun s hconf hup htrial => congrArg finish (if_neg ?confirm),
    fun s snd seq t hup hwait hdue hkeeps => (exec_beginPairWaitEnd hup hwait hdue).trans (congrArg finish (beginEnd_keeps hwait hkeeps))⟩
  case verify => simp [hup, hst]
  case confirm => simp [hconf, hup, htrial]

end Sys2Proof.Machine
end

section
/-! PROOFS. The test block's commands complete while its lock is open (R493 to R499). -/

namespace Sys2Proof.Machine

theorem tstOn_hostAccess (s : State) (r : Row) (i j : Nat) : (s.hostAccess r i j).tstOn = s.tstOn := by
  unfold State.tstOn
  rw [fclk_hostAccess, hostAccess_rd]

/-- Behind an open lock a command of the block is not discarded. -/
theorem tst_acts {s : State} (r : Row) (hon : s.tstOn = true) : ¬(!(s.hostAccess r).tstOn) = true := by
  rw [tstOn_hostAccess, hon]
  decide

theorem tstLock_opens {s : State} {key : Nat} (hclk : s.fclk = true) (hmay : s.tstDeny key = none) (hclosed : s.rd Reg.TST_LOCKSTAT_OPEN = 0) :
    s.tstLock key true = (((s.wr Reg.TST_LOCKSTAT_OPEN 1).wr Reg.TST_LOCK_OPEN 1).tstShow).ev (evTst 0) := by
  simp [State.tstLock, hclk, hmay, hclosed]

theorem exec_tstLockWrite_opens {s : State} {key : Nat} (hclk : s.fclk = true) (hmay : s.tstDeny key = none)
    (hclosed : s.rd Reg.TST_LOCKSTAT_OPEN = 0) :
    exec (.tstLockWrite key true) s = .next (((((s.hostAccess Reg.TST_LOCK_OPEN).wr Reg.TST_LOCKSTAT_OPEN 1).wr Reg.TST_LOCK_OPEN 1).tstShow).ev
      (evTst 0)).evFlush.settle :=
  congrArg finish (tstLock_opens ((fclk_hostAccess ..).trans hclk) ((tstDeny_hostAccess ..).trans hmay) ((hostAccess_rd ..).trans hclosed))

theorem exec_tstLockWrite_closes {s : State} (key : Nat) (hclk : s.fclk = true) :
    exec (.tstLockWrite key false) s = .next (s.hostAccess Reg.TST_LOCK_OPEN).tstClose.evFlush.settle :=
  congrArg finish ((if_neg (by rw [fclk_hostAccess, hclk]; decide)).trans (if_pos rfl))

theorem checkFire_armed {s : State} (hon : s.tstOn = true) (hkind : s.rd Reg.TST_CHKINJ_KIND ≠ 0) :
    s.checkFire = ({ s with tst := { s.tst with inj := (s.rd Reg.TST_CHKINJ_KIND, s.rd Reg.TST_CHKINJ_TARGET, s.rd Reg.TST_CHKINJ_COUNT) } } : State).tstShow := by
  unfold State.checkFire
  rw [if_neg (by rw [hon]; decide)]
  dsimp only
  rw [if_neg hkind]

/-- Settles O40. -/
theorem testCommandsComplete : Obligations.TestCommandsComplete := by
  refine ⟨fun s key hclk hmay hclosed => exec_tstLockWrite_opens hclk hmay hclosed, fun s key hclk => exec_tstLockWrite_closes key hclk,
    fun s hon => ?skew, fun s hon => ?time, fun s hon hkind => ?check, fun s link line ms hon => congrArg finish (if_neg (tst_acts _ hon)),
    fun s t0 huntil => ?expiry, fun s late hon hen hbp hclass => congrArg finish ((if_neg ?runs).trans (if_neg hclass))⟩
  case skew =>
    rw [← hostAccess_dmc s Reg.TST_REFCTL_APPLY 0 0, ← hostAccess_rd s Reg.TST_REFCTL_APPLY Reg.TST_REFSKEW_NS 0 0]
    exact congrArg finish (if_neg (tst_acts _ hon))
  case time =>
    rw [← hostAccess_rd s Reg.TST_TIMECTL_FIRE Reg.TST_TIMESTEP_NS 0 0]
    exact congrArg finish (if_neg (tst_acts _ hon))
  case check =>
    have harmed := checkFire_armed ((tstOn_hostAccess s Reg.TST_CHKINJ_FIRE 0 0).trans hon) ((hostAccess_rd ..).trans_ne hkind)
    rw [hostAccess_rd, hostAccess_rd, hostAccess_rd] at harmed
    exact congrArg finish harmed
  case expiry =>
    change execHbsuppExpiry s = _
    unfold execHbsuppExpiry
    rw [huntil]
    rfl
  case runs => simp [hon, hen, hbp]

end Sys2Proof.Machine
end

section
/-! PROOFS. The values that the tables state stand after reset (R332, R336, R398, R463). -/

namespace Sys2Proof.Machine

/-- After reset a field reads its value in the table's Reset column. -/
theorem rd_reset (r : Row) (i j : Nat) : State.reset.rd r i j = rowReset r i j := rfl

/-- Settles O58: the register file and the memories are empty, and every stated value is the one of its table. -/
theorem resetLeavesTheStatedValues : Obligations.ResetLeavesTheStatedValues := by
  refine ⟨?_, ?_, ?_, ?_, ?_, ?_, ?_, ?_, ?_, ?_, fun w => ?events, fun _ => rfl, fun _ => rfl, fun _ => rfl, rfl, rfl⟩
  case events => rw [rd_reset]; rfl
  all_goals rw [rd_reset]; decide

end Sys2Proof.Machine
end
